-- ==== Sys2Proof/Syntax.lean ====
section
/-! DEFINITION. The commands of the block: one constructor of `Instr` per row of
spec/opcode_table.json, with the records their requests carry. Reserved fields are not carried: R14
gives them no meaning. -/

namespace Sys2Proof

/-- Header of a QMP request (17 Table 17-3) with what the link adds: the function whose ring
carries it, whether its seal verifies under the session's request key (R414), and whether it came
through the boot mailbox (R426). -/
structure Hdr where
  fn : Nat
  session : Nat
  tenancy : Nat
  flags : Nat
  epoch : Nat
  seq : Nat
  length : Nat
  sealOk : Bool
  boot : Bool
  deriving DecidableEq, Repr

/-- One extraction of a key profile (Tables 5-5, 6-6a). -/
structure Extract where
  base : Nat
  offset : Nat
  len : Nat
  deriving DecidableEq, Repr

/-- SLOT_SHARE_SET record (Table 1-5). -/
structure SlotShareRec where
  sleeve : Nat
  flags : Nat
  recirc : Nat
  inject : Nat
  housekeeping : Nat
  replay : Nat
  updateGap : Nat
  deriving DecidableEq, Repr

/-- PTP_PORT_SET record (Table 2-2). -/
structure PtpPortRec where
  port : Nat
  flags : Nat
  domain : Nat
  ingressAsym : Int
  egressAsym : Int
  deriving DecidableEq, Repr

/-- TIME_IO_SET record (Table 2-9). -/
structure TimeIoRec where
  source : Nat
  servoMode : Nat
  sourcePort : Nat
  stepThreshold : Nat
  slewMax : Nat
  ppsOutFlags : Nat
  todDir : Nat
  ppsOutWidth : Nat
  ppsOutOffset : Int
  ppsInDelay : Nat
  synce0Port : Nat
  synce0Freq : Nat
  synce1Port : Nat
  synce1Freq : Nat
  deriving DecidableEq, Repr

/-- TIME_ADJUST record (Table 2-10); `value` is op 1's signed nanoseconds or op 2's seconds. -/
structure TimeAdjustRec where
  op : Nat
  state : Nat
  value : Int
  nanoseconds : Nat
  fraction : Nat
  freqAdj : Int
  deriving DecidableEq, Repr

/-- CUFF_ATTACH record (Table 3-7). -/
structure CuffAttachRec where
  cuff : Nat
  sleeve : Nat
  moveTimeout : Nat
  deriving DecidableEq, Repr

/-- PORT_CONFIG_SET record (Table 3-8). -/
structure PortConfigRec where
  port : Nat
  mode : Nat
  fec : Nat
  flags : Nat
  maxFrame : Nat
  sliceLen : Nat
  urgentPcp : Nat
  urgentUntagged : Nat
  linkHold : Nat
  downHold : Nat
  upHold : Nat
  deriving DecidableEq, Repr

/-- PARSE_PORT_SET record (Table 4-9). -/
structure ParsePortRec where
  port : Nat
  flags : Nat
  stdLayers : Nat
  deepLayers : Nat
  deepBytes : Nat
  windowMax : Nat
  ecpriUdpPort : Nat
  malformedAction : Nat
  orphanAction : Nat
  deriving DecidableEq, Repr

/-- PATTERN_SET record (Table 4-10); `value` holds 32 bytes in wire order. -/
structure PatternRec where
  index : Nat
  vectorBit : Nat
  len : Nat
  offsetMin : Nat
  offsetMax : Nat
  nibbleMask : Nat
  value : List Nat
  deriving DecidableEq, Repr

/-- FRAG_CONFIG_SET record (Table 4-11). -/
structure FragConfigRec where
  sleeve : Nat
  timeoutUs : Nat
  quota : List Nat
  deriving DecidableEq, Repr

/-- FLOW_PROFILE_SET and TCAM_PROFILE_SET records (Tables 5-5, 6-6a). -/
structure ProfileRec where
  profile : Nat
  count : Nat
  selectMask : Nat
  extract : List Extract
  keyMask : List Nat
  deriving DecidableEq, Repr

/-- FLOW_ADD record (Table 5-6). -/
structure FlowAddRec where
  profile : Nat
  flags : Nat
  key : List Nat
  actionRef : Nat
  flowContext : Nat
  metaVal : Nat
  deriving DecidableEq, Repr

/-- FLOW_DEL record: offsets 0-19 of Table 5-6. -/
structure FlowDelRec where
  profile : Nat
  flags : Nat
  key : List Nat
  deriving DecidableEq, Repr

/-- LEARN_POLICY_SET record (Table 5-7). -/
structure LearnPolicyRec where
  ageingS : Nat
  flowIdleS : Nat
  eviction : Nat
  flags : Nat
  flowEviction : Nat
  deriving DecidableEq, Repr

/-- LEARN_QUOTA_SET record (Table 5-8). -/
structure LearnQuotaRec where
  quota : List Nat
  reseedS : Nat
  deriving DecidableEq, Repr

/-- LEARN_PORT_SET record (Table 5-8). -/
structure LearnPortRec where
  port : Nat
  flags : Nat
  defaultBd : Nat
  deriving DecidableEq, Repr

/-- LEARN_STATIC_SET: an address, a bridge domain and a port (R148). -/
structure LearnStaticRec where
  mac : Nat
  bd : Nat
  port : Nat
  deriving DecidableEq, Repr

/-- LEARN_FLUSH: the Sleeves and the fields an entry must match (R148); `flags` bit 0 matches
the port, bit 1 the bridge domain, bit 2 the address. -/
structure LearnFlushRec where
  sleeves : Nat
  flags : Nat
  port : Nat
  bd : Nat
  mac : Nat
  deriving DecidableEq, Repr

/-- TCAM_ITERATE record (Table 6-6). -/
structure TcamIterateRec where
  sleeve : Nat
  version : Nat
  profile : Nat
  startIndex : Nat
  maxResults : Nat
  epoch : Nat
  key : List Nat
  deriving DecidableEq, Repr

/-- TCAM_WRITE record (Table 6-7). -/
structure TcamWriteRec where
  index : Nat
  profile : Nat
  actionRef : Nat
  metaVal : Nat
  value : List Nat
  mask : List Nat
  deriving DecidableEq, Repr

/-- TCAM_THROTTLE_SET record (Table 6-8). -/
structure TcamThrottleRec where
  sleeve : Nat
  tcReserve : Nat
  scrubMs : Nat
  deriving DecidableEq, Repr

/-- ACT_TENANCY_SET record (Table 7-9). -/
structure ActTenancyRec where
  precedence : Nat
  flags : Nat
  missRef : Nat
  pcpMap : Nat
  deriving DecidableEq, Repr

/-- FLOOD_GROUP_SET record (Table 7-9). -/
structure FloodGroupRec where
  group : Nat
  queue : Nat
  ports : Nat
  bdFirst : Nat
  bdCount : Nat
  deriving DecidableEq, Repr

/-- MIRROR_SESSION_SET record (Table 7-9). -/
structure MirrorSessionRec where
  session : Nat
  target : Nat
  port : Nat
  queue : Nat
  sourcePort : Nat
  sourceDir : Nat
  trunc : Nat
  rateMbps : Nat
  burst : Nat
  deriving DecidableEq, Repr

/-- COPY_LIMIT_SET record (Table 7-9). -/
structure CopyLimitRec where
  tenancy : Nat
  sessions : Nat
  burst : Nat
  ratePps : Nat
  mirrorMaxMbps : Nat
  deriving DecidableEq, Repr

/-- ACTION_SET record: the fields of Table 7-5 with live_mask, valid and reserved zero. -/
structure ActionRec where
  index : Nat
  disposition : Nat
  port : Nat
  queue : Nat
  queueSel : Nat
  floodGroup : Nat
  copy : Bool
  copyCollar : Bool
  collarQueue : Nat
  copyLen : Nat
  mirror : Bool
  mirrorSession : Nat
  ttlCopy : Bool
  dropReason : Nat
  rewrite : List Nat
  deriving DecidableEq, Repr

/-- TEMPLATE_SET record (R432): index, length and 64 template bytes in wire order. -/
structure TemplateRec where
  index : Nat
  len : Nat
  bytes : List Nat
  deriving DecidableEq, Repr

/-- One binding of a customer image's manifest (08 Records). -/
structure Binding where
  tenancy : Nat
  stage : Nat
  profile : Nat
  word : Nat
  deriving DecidableEq, Repr

/-- A customer microcode image as DMA and the Clasp deliver it: its digest, whether it passes
R398, its words (stage, word address, 256-bit word) and its manifest. -/
structure UcodeImage where
  digest : Nat
  sigOk : Bool
  words : List (Nat × Nat × BitVec 256)
  bindings : List Binding
  deriving DecidableEq, Repr

/-- UCODE_LOAD record (Table 8-11). -/
structure UcodeLoadRec where
  imageAddr : Nat
  imageLen : Nat
  deriving DecidableEq, Repr

/-- UCODE_ACCEPT record (Table 8-11). -/
structure UcodeAcceptRec where
  digest : Nat
  flags : Nat
  deriving DecidableEq, Repr

/-- UCODE_ACTIVATE record (Table 8-11). -/
structure UcodeActivateRec where
  digest : Nat
  deadlineMs : Nat
  deriving DecidableEq, Repr

/-- CUST_MEM_WRITE record (Table 8-11); CUST_MEM_READ has no data. -/
structure CustMemRec where
  sleeves : Nat
  stage : Nat
  index : Nat
  count : Nat
  data : List Nat
  deriving DecidableEq, Repr

/-- POOL_SET record (Table 9-7). -/
structure PoolRec where
  pool : Nat
  tenancy : Nat
  flags : Nat
  size : Nat
  deriving DecidableEq, Repr

/-- QUEUE_BUF_SET record (Table 9-8). -/
structure QueueBufRec where
  port : Nat
  queue : Nat
  flags : Nat
  limit : Nat
  spillMark : Nat
  returnMark : Nat
  spillMax : Nat
  deriving DecidableEq, Repr

/-- METER_BIND record (Table 10-5); `dscp`, `pcp`, `queue` list green, yellow, red. -/
structure MeterBindRec where
  index : Nat
  mode : Nat
  flags : Nat
  rate1 : Nat
  rate2 : Nat
  burst1 : Nat
  burst2 : Nat
  dscp : List Nat
  pcp : List Nat
  queue : List Nat
  deriving DecidableEq, Repr

/-- METER_TENANCY_SET record (Table 10-6). -/
structure MeterTenancyRec where
  flags : Nat
  untaggedColour : Nat
  nonipColour : Nat
  defaultCtx : Nat
  pcpDeiMap : Nat
  dscpMap : Nat
  deriving DecidableEq, Repr

/-- SCHED_PORT_SET record (Table 11-5). -/
structure SchedPortRec where
  port : Nat
  strictCount : Nat
  quantumUnit : Nat
  queueGate : Nat
  deriving DecidableEq, Repr

/-- SCHED_QUEUE_SET record (Table 11-5). -/
structure SchedQueueRec where
  port : Nat
  queue : Nat
  flags : Nat
  weight : Nat
  rateBps : Nat
  burst : Nat
  sojournMaxUs : Nat
  deriving DecidableEq, Repr

/-- GATE_CONFIG_SET record (Table 11-5). -/
structure GateConfigRec where
  port : Nat
  flags : Nat
  adminGateStates : Nat
  entryCount : Nat
  baseSeconds : Nat
  baseNs : Nat
  cycleNs : Nat
  cycleExtNs : Nat
  deriving DecidableEq, Repr

/-- One gate control list entry (Table 11-1). -/
structure GateEntry where
  durationM1 : Nat
  gateStates : Nat
  deriving DecidableEq, Repr

/-- GATE_ENTRIES_SET record (Table 11-5). -/
structure GateEntriesRec where
  port : Nat
  first : Nat
  count : Nat
  entries : List GateEntry
  deriving DecidableEq, Repr

/-- SAMPLER_QUOTA_SET record (Table 11-6). -/
structure SamplerQuotaRec where
  ringKib : List Nat
  quota : List Nat
  deriving DecidableEq, Repr

/-- SAMPLER_SET record (Table 11-6). -/
structure SamplerRec where
  port : Nat
  flags : Nat
  queueMask : Nat
  intervalNs : Nat
  deriving DecidableEq, Repr

/-- REL_PROFILE_SET record (Table 12-5). -/
structure RelProfileRec where
  index : Nat
  mu : Nat
  extCp : Nat
  flags : Nat
  direction : Nat
  msgMask : Nat
  queue : Nat
  originS : Nat
  originNs : Nat
  openOff : Int
  closeOff : Int
  deriving DecidableEq, Repr

/-- MACSEC_PORT_SET record (Table 13-4). -/
structure MacsecPortRec where
  port : Nat
  flags : Nat
  validate : Nat
  txSc : Nat
  defaultRxSc : Nat
  deriving DecidableEq, Repr

/-- MACSEC_SC_SET record (Table 13-4). -/
structure MacsecScRec where
  sc : Nat
  port : Nat
  flags : Nat
  sci : Nat
  replayWindow : Nat
  pnThreshold : Nat
  deriving DecidableEq, Repr

/-- KEY_LOAD record (Table 13-4). -/
structure KeyLoadRec where
  target : Nat
  suite : Nat
  slot : Nat
  sc : Nat
  an : Nat
  dir : Nat
  ssci : Nat
  lowestPn : Nat
  salt : Nat
  key : Nat
  deriving DecidableEq, Repr

/-- KEY_ERASE record (Table 13-4). -/
structure KeyEraseRec where
  target : Nat
  slot : Nat
  deriving DecidableEq, Repr

/-- BULK_OPEN record (Table 13-6). -/
structure BulkOpenRec where
  keySlot : Nat
  mode : Nat
  flags : Nat
  nonce : Nat
  deriving DecidableEq, Repr

/-- A wrapped context as presented (R328): whether its tag verifies under this boot's context key
and this tenancy, slot and epoch, and the segment number it carries. -/
structure Blob where
  present : Bool
  tagOk : Bool
  segment : Nat
  deriving DecidableEq, Repr

/-- BULK_SEGMENT record (Table 13-6) with the input bytes that DMA reads. -/
structure BulkSegmentRec where
  message : Nat
  aadLen : Nat
  dataLen : Nat
  flags : Nat
  outAddr : Nat
  tag : Nat
  blob : Blob
  input : List Nat
  deriving DecidableEq, Repr

/-- DRAM_CONFIG_SET record (Table 14-7). -/
structure DramConfigRec where
  rate : Nat
  drfmK : Nat
  ueFence : Nat
  ageLimitNs : Nat
  idleSrUs : Nat
  srMinNs : Nat
  deriving DecidableEq, Repr

/-- DRAM_CHANNEL_SET record (Table 14-8). -/
structure DramChannelRec where
  channel : Nat
  op : Nat
  deadlineMs : Nat
  deriving DecidableEq, Repr

/-- REC_STORE_SET record (Table 15-7). -/
structure RecStoreRec where
  storeMib : Nat
  quotaMib : List Nat
  ratePps : List Nat
  deriving DecidableEq, Repr

/-- REC_ARM record (Table 15-7). -/
structure RecArmRec where
  sleeveMask : Nat
  mode : Nat
  flags : Nat
  capUnits : Nat
  ports : Nat
  ratePps : Nat
  preDepth : Nat
  postDepth : Nat
  trigger : Nat
  eventCode : Nat
  refValue : Nat
  refMask : Nat
  dropMask : Nat
  trigRef : Nat
  trigDropMask : Nat
  deriving DecidableEq, Repr

/-- REC_EXPORT record (Table 15-7). -/
structure RecExportRec where
  firstIndex : Nat
  count : Nat
  keySlot : Nat
  hostAddr : Nat
  deriving DecidableEq, Repr

/-- REPLAY_RUN record (Table 15-7). -/
structure ReplayRunRec where
  liveSleeve : Nat
  replaySleeve : Nat
  pool : Nat
  flags : Nat
  firstIndex : Nat
  count : Nat
  deriving DecidableEq, Repr

/-- PORT_TENANCY_SET record (Table 16-1). -/
structure PortTenancyRec where
  port : Nat
  mode : Nat
  tenancy : Nat
  firstVid : Nat
  count : Nat
  entries : List Nat
  deriving DecidableEq, Repr

/-- RES_ASSIGN record (Table 16-3). -/
structure ResAssignRec where
  kind : Nat
  tenancy : Nat
  flags : Nat
  first : Nat
  count : Nat
  queueMask : Nat
  deriving DecidableEq, Repr

/-- TENANT_ENROL record (R397). -/
structure TenantEnrolRec where
  tenancy : Nat
  flags : Nat
  key : Nat
  deriving DecidableEq, Repr

/-- A consent token (Table 16-9); `sigOk` says whether its signature verifies under the key its
place demands, `deviceOk` whether device_id is this device's. -/
structure Token where
  version : Nat
  scope : Nat
  flags : Nat
  deviceOk : Bool
  subject : Nat
  notAfter : Nat
  maxDurationS : Nat
  nonce : Nat
  sigOk : Bool
  deriving DecidableEq, Repr

/-- SESSION_OPEN record (Table 17-4); `signer` is the hash of the key that signed the transcript and
`sigOk` whether that signature verifies. -/
structure SessionOpenRec where
  role : Nat
  tenancy : Nat
  hostEph : Nat
  signer : Nat
  sigOk : Bool
  token : Token
  deriving DecidableEq, Repr

/-- GUS_CONFIG_SET record (Table 19-5). -/
structure GusConfigRec where
  pmbusAddr : Nat
  flags : Nat
  capUf : Nat
  vcutMv : Nat
  holdDiv : Nat
  pHoldMw : Nat
  effPct : Nat
  deriving DecidableEq, Repr

/-- SVC_UNIT_SET record (Table 20-9). -/
structure SvcUnitRec where
  kind : Nat
  op : Nat
  unit : Nat
  deadlineMs : Nat
  deriving DecidableEq, Repr

/-- SVC_TEST record (Table 20-9). -/
structure SvcTestRec where
  kind : Nat
  unit : Nat
  deriving DecidableEq, Repr

/-- A Brovin image of type 1 or 2 as DMA or flash delivers it (Table 16-8): its digest, whether it
passes every check of R398 but the rollback one, its security version, whether its manifest accepts
the running firmware's handover format (R494), and whether it permits mixed vendor code (R492). -/
structure FwImage where
  digest : Nat
  accepted : Bool
  imageType : Nat
  securityVersion : Nat
  handoverOk : Bool
  mixedOk : Bool
  deriving DecidableEq, Repr

/-- FW_STORE record (Table 20-9) with the image that DMA reads; `ucode` is the content of a customer image. -/
structure FwStoreRec where
  target : Nat
  imageLen : Nat
  image : FwImage
  ucode : Option UcodeImage
  deriving DecidableEq, Repr

/-- EJECT_CONFIG_SET record (Table 20-9). -/
structure EjectConfigRec where
  mode : Nat
  graceMs : Nat
  deriving DecidableEq, Repr

/-- Direction of a port. -/
inductive Dir where
  | rx
  | tx
  deriving DecidableEq, Repr

/-- The locks a lane gains and loses (R78, R79). -/
inductive LockKind where
  | signal
  | cdr
  | pcs
  | fec
  deriving DecidableEq, Repr

/-- What an FEC decoder finds in one codeword (R74, Table 3-9). -/
inductive FecResult where
  | clean
  | corrected (symbols : Nat)
  | uncorrectable
  deriving DecidableEq, Repr

/-- What an ECC check finds (R204, R228, R335). -/
inductive Ecc where
  | clean
  | corrected
  | uncorrectable
  deriving DecidableEq, Repr

/-- How a DMA read completion ends (R447, R448). -/
inductive DmaStatus where
  | ok
  | bad
  deriving DecidableEq, Repr

/-- JTAG instructions (R402, R518). -/
inductive Jtag where
  | bypass
  | idcode
  | samplePreload
  | extest
  | other (code : Nat)
  deriving DecidableEq, Repr

/-- The register fields that REGISTER_WRITE reaches (R13): those without a row of their own. -/
inductive Reg where
  | reqBase
  | reqSize
  | rspBase
  | rspSize
  | rxBase
  | rxSize
  | irqRsp
  | irqRx
  | hbTimeout
  | bootMbx (word : Nat)
  | irqMisc
  | irqMask
  | reqErrorClear
  | msixMask (vector : Nat)
  | readOnly
  | reserved
  | drcTiming (ch set : Nat)
  | drcLane (ch lane set : Nat)
  | drcCa (ch set : Nat)
  | drcMonitor (ch lane : Nat)
  deriving DecidableEq, Repr


/-- A packet that the Collar injects (R17, R24, R52), without frame check sequence: its tenancy and
the injection metadata. `requestTime` is the ingress time of the Pdelay_Req it answers, in 2^-16 ns. -/
structure InjectRec where
  tenancy : Nat
  bytes : List Nat
  oneStep : Bool
  twoStep : Bool
  requestTime : Nat
  deriving DecidableEq, Repr

/-- Work that the Collar gives a Sleeve's slot arbiter: a packet to inject (R24), a housekeeping
routine to start in a context of a stage engine at a word (R215), or an interrupt whose routine starts
at a word (R217). -/
inductive SlotWork where
  | inject (i : InjectRec)
  | routine (stage ctx word : Nat)
  | interrupt (stage word : Nat)
  deriving DecidableEq, Repr


/-- The commands of spec/opcode_table.json, in the table's order. -/
inductive Instr where
  /-- FRAME_RX_START (R19): A frame's start arrives on a Cuff lane; the frame is dropped whole and counted if the Cuff's slice buffer is full. -/
  | frameRxStart (port : Nat) (fid : Nat) (lag : Nat) (bytes : List Nat)
  /-- TENANCY_MAP_LOOKUP (R378): With 16 bytes of a frame held, the Cuff applies the port tenancy map and allocates the first Pocket from the tenancy's receive pool, or drops the frame. -/
  | tenancyMapLookup (fid : Nat)
  /-- RX_NEXT_POCKET (R237): As further frame bytes arrive the Cuff allocates the next Pocket, and on failure writes no more bytes and marks the frame incomplete. -/
  | rxNextPocket (fid : Nat)
  /-- SLICE_OFFER (R18): In the cycle after the slice's last byte arrives, the Cuff offers the header slice to its Sleeve's slot arbiter. -/
  | sliceOffer (fid : Nat)
  /-- FRAME_RX_END (R18): The frame's last byte and frame check sequence are received and the frame's receive outcome is decided. -/
  | frameRxEnd (fid : Nat) (fcsOk : Bool)
  /-- MACSEC_RX_VERIFY (R320): A frame held in the MACsec receive hold buffer has its SecTAG, PN and ICV checked and is delivered or discarded. -/
  | macsecRxVerify (fid : Nat)
  /-- MACSEC_RX_DELIVER (R319): A verified frame's start of frame crosses the receive MAC boundary 30 cycles after its FCS crossed the PCS boundary. -/
  | macsecRxDeliver (fid : Nat)
  /-- FEC_CODEWORD_DECODE (R74): A lane decodes an FEC codeword, correcting it or counting it uncorrectable. -/
  | fecCodewordDecode (lane : Nat) (result : FecResult)
  /-- SLOT_GRANT (R25): Each cycle each Sleeve's slot arbiter grants its slot by the priority order, or leaves it idle, and updates share credits. -/
  | slotGrant (sleeve : Nat) (work : List SlotWork)
  /-- PARSE (R92): Stages 0 to 2 parse the layers of the header slice within the profile's limits and record offsets, types and flags. -/
  | parse (fid : Nat)
  /-- PAYLOAD_PATTERN_MATCH (R100): Stage 3 opens the payload window and evaluates all 512 patterns into the match vector. -/
  | payloadPatternMatch (fid : Nat)
  /-- FRAGMENT_LOOKUP (R106): Stage 4 looks up the fragment table, creating, applying, orphaning or recirculating per fragment kind, and frees expired ways. -/
  | fragmentLookup (fid : Nat)
  /-- FRAGMENT_WRITE_BACK (R107): A first fragment's final decision and flow context land in its fragment entry, which becomes DECIDED. -/
  | fragmentWriteBack (fid : Nat)
  /-- FRAG_SWEEP_VISIT (R111): The fragment housekeeping sweep visits a set and frees its expired ways. -/
  | fragSweepVisit (sleeve : Nat)
  /-- FLOW_KEY_BUILD (R123): Stage 5 selects the key profile, builds the flow and learning keys and hashes them. -/
  | flowKeyBuild (fid : Nat)
  /-- FLOW_LOOKUP (R125): Stage 6 reads both candidate buckets and takes a matching live entry, setting its hit bit. -/
  | flowLookup (fid : Nat) (ecc : Ecc)
  /-- LEARN_LOOKUP (R134): Stage 7 looks up the destination and source addresses and raises a learn request for an unknown source. -/
  | learnLookup (fid : Nat) (ecc : Ecc)
  /-- TCAM_SEARCH (R156): Stages 8 and 9 search the tenancy's banks, mask by version and suspect rows, and verify up to four candidates. -/
  | tcamSearch (fid : Nat) (spurious : List Nat) (missed : List Nat)
  /-- METER_ACCESS (R260): Stage 10 chooses the flow context, refills and decides the meter, and gives the packet its colour. -/
  | meterAccess (fid : Nat) (ecc : Ecc)
  /-- COLOUR_ACTION (R264): Stage 11 sets red drop, remark and queue-by-colour from the binding. -/
  | colourAction (fid : Nat)
  /-- ACTION_SELECT (R185): Stage 12 selects the action record by the first applicable line. -/
  | actionSelect (fid : Nat)
  /-- FORWARD_RESOLVE (R186): Stage 13 resolves forward, bridge, flood and recirculate dispositions and checks targets. -/
  | forwardResolve (fid : Nat)
  /-- TTL_COPY_MIRROR (R190): Stage 14 applies TTL checks and sets copy and mirror requests. -/
  | ttlCopyMirror (fid : Nat)
  /-- REWRITE_COMPILE (R266): Stages 15 and 16 compile the rewrite program, appending colour remarks. -/
  | rewriteCompile (fid : Nat)
  /-- RELEASE_CLASSIFY (R299): Stage 17 binds a fronthaul packet to a release profile, computes its window and classifies it. -/
  | releaseClassify (fid : Nat)
  /-- ENQUEUE_DECISION (R240): Stage 18 turns the descriptor into a drop, an enqueue request or a Seam-path claim. -/
  | enqueueDecision (fid : Nat)
  /-- EGRESS_HANDOFF (R176): Stage 19 hands the materialised descriptor and rewrite program to the egress side. -/
  | egressHandoff (fid : Nat)
  /-- SEAM_CLAIM (R240): A Seam-path claim reaches the queue manager and is granted or turned into an ordinary enqueue. -/
  | seamClaim (port : Nat)
  /-- SEAM_LAUNCH (R241): At launch cycle sof+147 the egress Cuff starts the Seam-path frame at the transmit MAC boundary. -/
  | seamLaunch (port : Nat)
  /-- ENQUEUE (R239): After the frame's last byte is in Pockets the queue manager discards, drops, spills, calendars or enqueues it. -/
  | enqueue (fid : Nat)
  /-- COPY_MIRROR_READ (R188): The Yoke reads a frame's Pockets to make a copy or mirror, under the limiters. -/
  | copyMirrorRead (fid : Nat) (served : Bool)
  /-- RX_RING_COPY_WRITE (R425): The Yoke writes a copy into a function's receive ring, or drops it when no room. -/
  | rxRingCopyWrite (fn : Nat)
  /-- SPILL_WRITE_DONE (R247): A spill write to DRAM completes and the frame's Pockets are freed. -/
  | spillWriteDone (fid : Nat)
  /-- SPILL_RETURN (R248): The deep-buffer engine returns a queue's oldest spilled frames into Pockets. -/
  | spillReturn (port : Nat) (queue : Nat)
  /-- SPILL_RETURN_RETRY (R248): A return that found its pool empty is retried every 256 cycles. -/
  | spillReturnRetry (port : Nat) (queue : Nat)
  /-- CALENDAR_RELEASE (R303): The calendar releases a held frame to the tail of its queue once network time reaches its open. -/
  | calendarRelease (port : Nat)
  /-- SCHEDULER_SELECT (R277): The egress scheduler selects a frame by strict priority and deficit round robin for a start 72 cycles later. -/
  | schedulerSelect (port : Nat)
  /-- FRAME_TX_START (R85): The egress Cuff starts a frame: rewrite, max_frame check, MACsec and egress timestamp. -/
  | frameTxStart (port : Nat) (ecc : Ecc)
  /-- FRAME_TX_END (R233): A transmission ends and the frame's reference count falls. -/
  | frameTxEnd (port : Nat)
  /-- CACHE_PREFETCH (R235): A pocket cache holding fewer than 4 Pockets of a pool fetches it back to 8. -/
  | cachePrefetch (unit : Nat) (pool : Nat)
  /-- CACHE_IDLE_RETURN (R235): After 4,096 idle cycles a cache drops its longest-idle pool and returns its Pockets. -/
  | cacheIdleReturn (unit : Nat)
  /-- CACHE_LOW_WATER_RETURN (R236): Caches return their Pockets of a pool below the low-water mark within 64 cycles. -/
  | cacheLowWaterReturn (pool : Nat)
  /-- SOJOURN_CHECK (R286): Each cycle a port discards a head frame whose sojourn reached sojourn_max. -/
  | sojournCheck (port : Nat)
  /-- LINK_DOWN_FLUSH (R82): A flushing port's queues discard one frame per cycle. -/
  | linkDownFlush (port : Nat)
  /-- LINK_HOLD_EXPIRY (R82): A held port not UP within link_hold changes to flush. -/
  | linkHoldExpiry (port : Nat)
  /-- LANE_LOCK_ACQUIRE (R78): A lane gains signal, CDR, PCS or FEC lock, advancing its port's bring-up. -/
  | laneLockAcquire (lane : Nat) (kind : LockKind)
  /-- LANE_LOCK_LOSS (R79): A lane loses lock; reception is truncated and the down_hold timer starts. -/
  | laneLockLoss (lane : Nat) (kind : LockKind)
  /-- SYNCE_RESUME (R59): A SyncE output resumes 100 ms after its lane regains lock. -/
  | synceResume (out : Nat)
  /-- REMOTE_FAULT_RX (R79): A port receives remote fault, starting down_hold. -/
  | remoteFaultRx (port : Nat) (present : Bool)
  /-- DOWN_HOLD_EXPIRY (R79): A loss condition persisting for down_hold takes the whole port out of UP to ALIGN. -/
  | downHoldExpiry (port : Nat)
  /-- AN_RESOLVED (R78): Clause 73 auto-negotiation resolves, moving to TRAIN or raising AN_MISMATCH. -/
  | anResolved (port : Nat) (mode : Nat) (fec : Nat)
  /-- TRAINING_COMPLETE (R78): Link training completes and the port enters ALIGN. -/
  | trainingComplete (port : Nat)
  /-- TRAINING_TIMEOUT (R78): Training not complete in 500 ms returns to AN or restarts TRAIN. -/
  | trainingTimeout (port : Nat)
  /-- UP_HOLD_EXPIRY (R78): A port that held every lock for up_hold enters UP. -/
  | upHoldExpiry (port : Nat)
  /-- CUFF_FENCE_DRAINED (R83): The old Sleeve's in-flight count for a moving Cuff reaches zero and the switch connects it to the new Sleeve. -/
  | cuffFenceDrained (cuff : Nat)
  /-- CUFF_MOVE_TIMEOUT (R83): A move not drained by move_timeout is abandoned and completes with TIMEOUT. -/
  | cuffMoveTimeout (cuff : Nat)
  /-- PORT_SETTING_EFFECT (R87): A PORT_CONFIG_SET change other than mode or FEC takes effect at the next frame boundary. -/
  | portSettingEffect (port : Nat) (dir : Dir)
  /-- PTP_SETTING_EFFECT (R55): A PTP_PORT_SET takes effect in each direction at the next frame boundary. -/
  | ptpSettingEffect (port : Nat) (dir : Dir)
  /-- MACSEC_SETTING_EFFECT (R323): A MACSEC_TX_AN_SET or MACSEC_PORT_SET change takes effect at the next frame boundary. -/
  | macsecSettingEffect (port : Nat) (dir : Dir)
  /-- TENANCY_LOSS_EFFECT (R382): At the frame boundary after a port stops being held wholly, MACsec is turned off, SCs removed and port counters zeroed. -/
  | tenancyLossEffect (port : Nat) (dir : Dir)
  /-- HEM_TIME_ADVANCE (R45): Each core cycle the Hem advances network time by HEM_INCR. -/
  | hemTimeAdvance (cycles : Nat)
  /-- SERVO_UPDATE (R61): The internal servo applies a measured offset by step or slew and advances the Hem state. -/
  | servoUpdate (offsetNs : Int) (freqAdj : Int)
  /-- SOURCE_LOST (R60): A selected time source is lost, entering HOLDOVER or FREERUN under the internal servo. -/
  | sourceLost (source : Nat)
  /-- SOURCE_VALID (R60): A selected source becomes valid and the Hem enters ACQUIRING. -/
  | sourceValid (source : Nat)
  /-- PPS_IN_EDGE (R56): A PPS_IN rising edge is timestamped, or ignored as spurious. -/
  | ppsInEdge
  /-- PPS_IN_MISSING (R56): No PPS_IN edge within 1.1 s counts a missing edge and raises source loss. -/
  | ppsInMissing
  /-- PPS_OUT_EDGE (R57): PPS_OUT rises when network time plus offset reaches a whole second. -/
  | ppsOutEdge
  /-- PPS_OUT_PULSE_END (R57): PPS_OUT falls after its configured width. -/
  | ppsOutPulseEnd
  /-- TOD_TX (R58): The Hem sends the ToD message 10 ms after the PPS_OUT edge it names. -/
  | todTx
  /-- TOD_RX (R58): A received ToD message is accepted or counted in tod_rx_bad. -/
  | todRx (bytes : List Nat)
  /-- FLOW_IDLE_SCAN (R131): Once per idle period the Collar reads and clears hit bits and reports idle flow entries. -/
  | flowIdleScan (tenancy : Nat)
  /-- LEARN_ENGINE_TURN (R136): Every 8 cycles the learn engine takes one learn request or static write, or drains the stash when idle. -/
  | learnEngineTurn (sleeve : Nat)
  /-- LEARN_SCANNER_VISIT (R140): The scanner visits a bucket or four stash entries, ageing and freeing entries. -/
  | learnScannerVisit (sleeve : Nat)
  /-- GENERATOR_RESEED (R138): At a reseed interval the Clasp gives a Sleeve a new eviction seed and its epoch rises. -/
  | generatorReseed
  /-- TCAM_SCRUB_PASS_START (R161): Once per scrub period a scrub pass of a Sleeve's rows begins. -/
  | tcamScrubPassStart (sleeve : Nat) (differing : List Nat)
  /-- TCAM_BAND_EVAL (R163): Every 300,000 cycles the Gusset evaluates each Sleeve's TCAM thermal band. -/
  | tcamBandEval
  /-- SEARCH_WINDOW_BOUNDARY (R164): At each 64-cycle window boundary search-slot counts restart and new band or reserve settings apply. -/
  | searchWindowBoundary (sleeve : Nat)
  /-- SLOT_DRAIN_COMPLETE (R175): A DRAINING version slot whose in-flight count is zero in all Sleeves becomes FREE. -/
  | slotDrainComplete (slot : Nat)
  /-- PREPARATION_START (R178): With no slot preparing or prepared and one FREE, the Collar starts its preparation sweep. -/
  | preparationStart
  /-- PREPARATION_COMPLETE (R178): The preparation sweep completes in all seven Sleeves and the slot becomes PREPARED. -/
  | preparationComplete
  /-- COMMIT_SLOT_READY (R180): A commit waiting at step 2 finds a PREPARED slot, retests staleness and writes its journal record. -/
  | commitSlotReady
  /-- COMMIT_DEADLINE (R179): A commit whose deadline passes before a PREPARED slot completes with VERSION_BUSY. -/
  | commitDeadline (commit : Nat)
  /-- JOURNAL_WRITE_DONE (R181): Both copies of a commit's journal record complete and the changes are written into the PREPARED slot. -/
  | journalWriteDone (ok : Bool)
  /-- COMMIT_CYCLE (R179): In one cycle the PREPARED slot becomes CURRENT with the next epoch, the old becomes DRAINING, and the commit completes. -/
  | commitCycle
  /-- OVERLAY_DRAIN (R216): Committed overlay entries drain into the arrays in cycles without other table writes. -/
  | overlayDrain (sleeve : Nat) (stage : Nat)
  /-- CS_SCRUB_READ (R220): The scrub walker reads one control-store word every 64 cycles and corrects or marks it bad. -/
  | csScrubRead (sleeve : Nat) (stage : Nat) (ecc : Ecc)
  /-- CS_WORD_REPAIR (R220): The Collar rewrites a bad control-store word from its repair copy. -/
  | csWordRepair (sleeve : Nat) (stage : Nat) (addr : Nat)
  /-- HOOK_GEN_DRAINED (R221): No packet of the old hook generation remains in flight and its words become free. -/
  | hookGenDrained
  /-- GATE_ENTRY_ADVANCE (R281): An operational gate list entry's duration ends and the next entry's gate states apply. -/
  | gateEntryAdvance (port : Nat)
  /-- GATE_CYCLE_BOUNDARY (R281): At a cycle boundary in network time the operational list restarts at entry 0. -/
  | gateCycleBoundary (port : Nat)
  /-- GATE_CONFIG_CHANGE (R282): At the change time the administrative list becomes operational. -/
  | gateConfigChange (port : Nat)
  /-- SAMPLER_TICK (R288): At each sampling interval the sampler writes a record of queue depths and sojourns. -/
  | samplerTick (port : Nat) (tenancy : Nat)
  /-- KEY_TAKE_EFFECT (R321): A KEY_LOAD takes effect at the next frame boundary in the slot's direction. -/
  | keyTakeEffect (slot : Nat)
  /-- KEY_ERASE_COMPLETE (R322): After frames in the lanes finish, the Clasp zeroes a RETIRING slot and it becomes EMPTY. -/
  | keyEraseComplete (slot : Nat)
  /-- BULK_JOB_START (R325): An engine takes a queued segment in rotating user order and restores its context. -/
  | bulkJobStart
  /-- BULK_JOB_COMPLETE (R330): A bulk segment finishes, its context is saved or wrapped and BULK_SEGMENT completes. -/
  | bulkJobComplete (engine : Nat)
  /-- BULK_KEY_CHANGE (R329): A pending bulk key load or erase takes effect after running jobs end, raising the key generation. -/
  | bulkKeyChange (slot : Nat)
  /-- BOOT_EPOCH_ADVANCE (R327): Firmware writes and reads back the incremented boot epoch and starts the bulk service if it matches. -/
  | bootEpochAdvance (readback : Nat)
  /-- BOOT_EPOCH_RETRY (R327): Firmware retries a failed boot epoch advance every 1 s. -/
  | bootEpochRetry (readback : Nat)
  /-- DRAM_COMMAND_ISSUE (R341): Each channel cycle the scheduler issues the first permitted command for the chosen request. -/
  | dramCommandIssue (channel : Nat)
  /-- DRAM_READ_COMPLETE (R339): A burst's read data returns, is ECC-checked and crosses into the core clock. -/
  | dramReadComplete (channel : Nat) (ecc : Ecc)
  /-- DRAM_SPARE_TAKEOVER (R353): The spare exits self-refresh and takes the fenced channel's logical number. -/
  | dramSpareTakeover
  /-- JOURNAL_RECOPY_DONE (R353): The surviving journal copy has been copied into the new channel. -/
  | journalRecopyDone
  /-- DRAM_REFRESH_INTERVAL_BOUNDARY (R343): At a refresh interval boundary the interval is halved or restored and pending settings apply. -/
  | dramRefreshIntervalBoundary
  /-- DRAM_REFRESH_SLOT (R344): At a channel's refresh slot it issues PREab and REFab. -/
  | dramRefreshSlot (channel : Nat)
  /-- DRAM_MR4_POLL (R343): Every 1 ms the controller reads MR4 of every active channel. -/
  | dramMr4Poll (temps : List Nat)
  /-- DRAM_IDLE_SR_ENTRY (R349): A channel idle for idle_sr_us enters self-refresh. -/
  | dramIdleSrEntry (channel : Nat)
  /-- DRAM_SR_EXIT (R349): After sr_min_ns a channel with a held request issues SRX. -/
  | dramSrExit (channel : Nat)
  /-- DRAM_RATE_CHANNEL_DONE (R350): One channel's rate change completes and the next begins. -/
  | dramRateChannelDone (channel : Nat)
  /-- DRAM_MIGRATION_COMPLETE (R351): A migration copy finishes and the target takes the logical number. -/
  | dramMigrationComplete
  /-- DRAM_SWEEP_DONE (R347): A delay sweep of a channel completes with its windows. -/
  | dramSweepDone (channel : Nat) (windows : List Nat)
  /-- DRAM_SYSTEM_SCRUB (R355): Hourly, the scrubber reads and corrects every system-area burst. -/
  | dramSystemScrub (channel : Nat) (errors : Nat)
  /-- DRAM_TRAINING_DONE (R359): Firmware finishes initialising and training the channels and enables the controller. -/
  | dramTrainingDone (passed : List Bool)
  /-- LINING_RECORD_WRITE (R362): Once the Yoke outcome is known the Lining writes a record, or a loss record, into the ring. -/
  | liningRecordWrite (tenancy : Nat) (served : Bool)
  /-- LINING_RING_DRAIN (R372): Ring records are sealed and written to the Lining store in DRAM. -/
  | liningRingDrain
  /-- SNAPSHOT_SWEEP_DONE (R367): The snapshot sweep finishes and the capture enters RUNNING. -/
  | snapshotSweepDone (tenancy : Nat)
  /-- REPLAY_EPOCH_SWITCH (R369): After the former epoch's records drain, the journal diff is written and replay issue resumes. -/
  | replayEpochSwitch (sleeve : Nat)
  /-- REPLAY_STREAM_END (R369): The last record is issued and the Collar starts restoring the replay Sleeve. -/
  | replayStreamEnd (sleeve : Nat)
  /-- REPLAY_RESTORE_DONE (R369): The replay Sleeve is restored and REPLAY_RUN completes with its summary. -/
  | replayRestoreDone (sleeve : Nat)
  /-- RES_SCRUB_COMMIT (R389): A scrub commit of a reassignment finds a PREPARED slot and commits its removals. -/
  | resScrubCommit (res : Nat)
  /-- RES_DRAIN_DONE (R389): The slots and retirement sweeps a reassignment waits on have completed. -/
  | resDrainDone (res : Nat)
  /-- RES_UNIT_SCRUB_DONE (R389): The units of a reassignment have been scrubbed in all Sleeves. -/
  | resUnitScrubDone (res : Nat)
  /-- RES_EPOCH_ISSUE (R389): A reassignment takes its turn of the assignment counter and completes with the new epoch. -/
  | resEpochIssue (res : Nat)
  /-- ASSIGN_COUNTER_TURN (R385): A waiting assignment transaction takes the next counter value and makes its change. -/
  | assignCounterTurn
  /-- MAINT_SESSION_EXPIRY (R401): A maintenance session is closed at max_duration_s. -/
  | maintSessionExpiry (fn : Nat) (session : Nat)
  /-- MAINT_NOT_AFTER_CHECK (R401): Once per second or at a step, a session past not_after is closed. -/
  | maintNotAfterCheck
  /-- DEBUG_NONCE_EXPIRY (R403): A debug nonce expires 300 s after issue. -/
  | debugNonceExpiry
  /-- ROLLBACK_FUSE_BLOW (R399): The Clasp blows one rollback fuse bit per 1 ms up to the target. -/
  | rollbackFuseBlow
  /-- CLASP_HEALTH_TEST_FAIL (R395): A failed entropy health test stops every draw. -/
  | claspHealthTestFail
  /-- DRAW_TIMEOUT (R395): A message waiting 1 s for a random draw completes with BAD_STATE. -/
  | drawTimeout
  /-- HELLO_EXPIRY (R411): A session hello expires 10 s after its response and its ephemeral key is zeroised. -/
  | helloExpiry (fn : Nat)
  /-- WATCHDOG_EXPIRY (R427): A Collar core's watchdog expires or it has an uncorrectable error, marking it failed. -/
  | watchdogExpiry (core : Nat)
  /-- CORE_TAKEOVER (R428): The spare core takes the failed logical core and completes or restarts messages from effect records. -/
  | coreTakeover
  /-- HEARTBEAT_EXPIRY (R430): A function whose heartbeat timeout expires without a kick is lost. -/
  | heartbeatExpiry (fn : Nat)
  /-- IRQ_COALESCE_TIMEOUT (R424): The oldest unreported ring entry waits its time and the ring's MSI-X interrupt fires. -/
  | irqCoalesceTimeout (fn : Nat) (ring : Nat)
  /-- REQ_RING_ENABLE_WRITE (R408): Setting or clearing req_enable starts or stops request consumption, aligning head to tail. -/
  | reqRingEnableWrite (fn : Nat) (on : Bool)
  /-- RSP_RING_ENABLE_WRITE (R408): Setting or clearing rsp_enable starts or stops response ring writes. -/
  | rspRingEnableWrite (fn : Nat) (on : Bool)
  /-- RX_RING_ENABLE_WRITE (R408): Setting or clearing rx_enable starts or stops copy delivery. -/
  | rxRingEnableWrite (fn : Nat) (on : Bool)
  /-- REQ_DOORBELL (R409): A write of HST_REQ_TAIL makes new requests available and the Collar reads, checks and starts them. -/
  | reqDoorbell (fn : Nat) (tail : Nat) (unknown : List (Nat × Hdr))
  /-- RSP_HEAD_WRITE (R410): The driver frees response slots, letting held requests and queued events proceed. -/
  | rspHeadWrite (fn : Nat) (index : Nat)
  /-- RX_HEAD_WRITE (R410): The driver frees receive ring slots. -/
  | rxHeadWrite (fn : Nat) (index : Nat)
  /-- HEARTBEAT_KICK (R430): A write of 1 to HST_HB_KICK restarts the heartbeat timer. -/
  | heartbeatKick (fn : Nat)
  /-- BOOT_GO (R426): A write of 1 to HST_BOOT_GO submits the boot mailbox request. -/
  | bootGo (fn : Nat)
  /-- BOOT_DONE_CLEAR (R426): Writing 1 to boot_done clears it, allowing a new boot request. -/
  | bootDoneClear (fn : Nat)
  /-- HOST_LOST_CLEAR (R431): The driver clears host_lost so the function may serve again. -/
  | hostLostClear (fn : Nat)
  /-- IRQ_STATUS_CLEAR (R444): Writing 1 clears an interrupt status bit so it may signal again. -/
  | irqStatusClear (fn : Nat) (mask : Nat)
  /-- REGISTER_WRITE (R13): A host or firmware write to a register field without behaviour of its own, applied by its access code. -/
  | registerWrite (fn : Nat) (reg : Reg) (value : Nat)
  /-- DRC_SET_SWAP (R346): Firmware swaps a channel's active and shadow register sets while it is not in service. -/
  | drcSetSwap (channel : Nat)
  /-- DRC_MODE_REGISTER_ACCESS (R347): Firmware issues a mode-register write or read to a channel not in service. -/
  | drcModeRegisterAccess (channel : Nat) (ok : Bool)
  /-- DRC_TRAINING_ROW_ACCESS (R347): Firmware writes or reads the training rows of a channel not in service. -/
  | drcTrainingRowAccess (channel : Nat) (write : Bool)
  /-- DRC_READ_COMPARE (R347): Firmware compares read data with a written pattern for per-lane pass bits. -/
  | drcReadCompare (channel : Nat) (errors : Nat)
  /-- BAR_MISALIGNED_ACCESS (R439): A BAR access of other size or alignment completes without effect and is counted. -/
  | barMisalignedAccess (fn : Nat) (write : Bool)
  /-- PCIE_LINK_UP (R436): The PCIe link trains to L0. -/
  | pcieLinkUp (speed : Nat) (width : Nat)
  /-- PCIE_LINK_DOWN (R430): The PCIe link goes down and every function is lost. -/
  | pcieLinkDown
  /-- HOT_RESET (R453): A hot reset resets configuration space and BAR blocks of all functions and loses every function. -/
  | hotReset
  /-- FUNCTION_LEVEL_RESET (R450): A function-level reset stops the function's DMA and starts its teardown. -/
  | functionLevelReset (fn : Nat)
  /-- BUS_MASTER_CLEAR (R449): Clearing bus-master enable stops the function's requests and loses it. -/
  | busMasterClear (fn : Nat)
  /-- BUS_MASTER_SET (R449): Setting bus-master enable is recorded; DMA resumes only after teardown and host_lost clear. -/
  | busMasterSet (fn : Nat)
  /-- D3HOT_ENTRY (R452): A function entering D3hot is treated as bus-master enable cleared. -/
  | d3hotEntry (fn : Nat)
  /-- D0_RETURN (R452): A function returns to D0 without reset. -/
  | d0Return (fn : Nat)
  /-- VF_ENABLE_SET (R438): Setting VF Enable brings virtual functions below NumVFs into existence. -/
  | vfEnableSet (numVfs : Nat)
  /-- VF_ENABLE_CLEAR (R451): Clearing VF Enable loses every virtual function and starts their teardown. -/
  | vfEnableClear
  /-- CONFIG_REQUEST (R451): A configuration request is answered normally or with CRS during start or teardown. -/
  | configRequest (fn : Nat) (write : Bool) (ctoValue : Nat)
  /-- DMA_COMPLETION_ARRIVAL (R442): A DMA read completion arrives and its data is delivered in issue order, or discarded. -/
  | dmaCompletionArrival (tag : Nat) (status : DmaStatus)
  /-- COMPLETION_TIMEOUT (R445): A DMA read times out, its operation fails and its tag enters quarantine. -/
  | completionTimeout (tag : Nat)
  /-- TAG_QUARANTINE_END (R446): A quarantined tag becomes free after twice its timeout. -/
  | tagQuarantineEnd (tag : Nat)
  /-- REQ_RING_FETCH_RETRY (R446): An abandoned request-ring fetch is retried after 1 ms. -/
  | reqRingFetchRetry (fn : Nat)
  /-- TEARDOWN_FINISH (R450): A function's teardown finishes and teardown_pending clears. -/
  | teardownFinish (fn : Nat)
  /-- GUSSET_VOLTAGE_EVAL (R460): Every 1 ms the Gusset computes the core voltage request from speed margins. -/
  | gussetVoltageEval
  /-- PMBUS_READBACK (R460): The Gusset reads back READ_VOUT and retries or holds on failure. -/
  | pmbusReadback (mv : Nat) (acked : Bool)
  /-- PMBUS_HOLDOFF_END (R460): 1 s after a PMBus failure the Gusset may request voltage again. -/
  | pmbusHoldoffEnd
  /-- PMBUS_ALERT (R517): PMB_ALERT_N makes the Gusset treat its last request as unconfirmed. -/
  | pmbusAlert
  /-- THERMAL_SAMPLE (R459): Every 100 µs the thermal sensors are sampled and Tj updated. -/
  | thermalSample (temps : List Int)
  /-- RING_OSC_SAMPLE (R458): Ageing ring oscillator ratios and replica slack are measured. -/
  | ringOscSample (site : Nat) (ratio : Nat) (slack : Int)
  /-- SRAM_VMIN_TEST (R460): Every 60 s the SRAM minimum-voltage test runs on spare rows. -/
  | sramVminTest (mv : Nat)
  /-- SERDES_ADAPT_STEP (R462): Each second the Gusset checks lane eyes and steps receiver adaptation. -/
  | serdesAdaptStep (lane : Nat) (eye : Nat)
  /-- DRAM_WINDOW_CHECK (R463): The Gusset checks read windows and starts or retries a re-centring. -/
  | dramWindowCheck (channel : Nat) (windows : List Nat) (centre : List Int)
  /-- TCAM_MARGIN_TEST (R464): Every 60 s per bank a margin test lowers band thresholds by lost steps. -/
  | tcamMarginTest (sleeve : Nat) (bank : Nat) (steps : Nat)
  /-- FLASH_OP_CHECK (R466): The island checks hold-up energy before a flash operation and starts or defers it. -/
  | flashOpCheck (code : Nat)
  /-- FLASH_DEFER_RECHECK (R466): A deferred flash operation is re-checked every 10 ms. -/
  | flashDeferRecheck (code : Nat)
  /-- FLASH_OP_COMPLETE (R466): A flash operation finishes and the next waiting one may start. -/
  | flashOpComplete
  /-- FLASH_WRITE_DEADLINE (R467): A message whose deferred write has not started in 10 s completes with TIMEOUT. -/
  | flashWriteDeadline
  /-- POWER_FAIL_ASSERT (R468): POWER_FAIL_N low for 20 µs starts the post-mortem write sequence. -/
  | powerFailAssert (code : Nat)
  /-- POWER_FAIL_DEASSERT (R468): POWER_FAIL_N deasserts while power holds and the record is marked as a dip. -/
  | powerFailDeassert
  /-- POSTMORTEM_BUFFER_REFRESH (R468): Every 100 ms firmware updates the post-mortem buffer. -/
  | postmortemBufferRefresh
  /-- HISTORY_APPEND (R470): Every 6 h, at start and on end of margin, a history record is appended. -/
  | historyAppend (kind : Nat)
  /-- ISLAND_POWER_ON_RESET (R510): VDD_HOLD within tolerance for 1 ms releases the island's own reset. -/
  | islandPowerOnReset
  /-- PERST_RELEASE (R476): Release of PERST# is a fundamental reset; ROM locks PLL, checks fuses and enters link training. -/
  | perstRelease (fusesOk : Bool)
  /-- PERST_ASSERT (R475): PERST# asserted holds the whole device in reset. -/
  | perstAssert
  /-- RAIL_FAULT (R475): A rail leaves tolerance with PERST# high, leaving the device undefined. -/
  | railFault
  /-- ROM_IMAGE_SELECT (R478): ROM reads and checks the active image, falls back, or enters recovery. -/
  | romImageSelect (flashOk : Bool)
  /-- FIRMWARE_START (R476): Quesin firmware starts, arms watchdogs, reads flash records and draws keys. -/
  | firmwareStart
  /-- FIRMWARE_READY (R435): Stage 3: fw_ready is set on every function and CRS ends. -/
  | firmwareReady
  /-- SLEEVES_ENABLE (R480): After start steps complete the Sleeves are enabled. -/
  | sleevesEnable
  /-- EJECT_REQUEST (R496): EJECT_REQ_N low for 1 ms raises EJECT_STATE requested. -/
  | ejectRequest
  /-- EJECT_CANCEL (R497): EJECT_REQ_N high before step 1 cancels the request. -/
  | ejectCancel
  /-- EJECT_GRACE_EXPIRY (R496): grace_ms ends and the ejection sequence proceeds. -/
  | ejectGraceExpiry
  /-- EJECT_READY (R496): With DRAM in self-refresh, EJECT_RDY_N goes low. -/
  | ejectReady
  /-- FW_STORE_COMPLETE (R493): The last page of a stored image is written. -/
  | fwStoreComplete (ok : Bool)
  /-- FW_SWITCH_LOADED (R494): The new image is decrypted into the idle code bank and cores stop at boundaries. -/
  | fwSwitchLoaded
  /-- FW_SWITCH_RESUME (R494): The new firmware resumes messages and FW_SWITCH completes OK. -/
  | fwSwitchResume
  /-- FW_SWITCH_TIMEOUT (R494): No resume 200 ms after start restarts the old bank and completes with TIMEOUT. -/
  | fwSwitchTimeout
  /-- PATCH_ROLL_SLEEVE_DONE (R492): One Sleeve is patched and tested during PATCH_ROLL. -/
  | patchRollSleeveDone (passed : Bool)
  /-- SVC_OUT_OF_SERVICE_DONE (R485): A Sleeve's in-flight counts drain and it becomes OUT_OF_SERVICE. -/
  | svcOutOfServiceDone
  /-- SVC_DEADLINE (R485): A service operation's deadline passes and it completes with TIMEOUT. -/
  | svcDeadline
  /-- SVC_TEST_DONE (R486): A unit test ends and the unit is OUT_OF_SERVICE or FAILED. -/
  | svcTestDone (passed : Bool)
  /-- CORE_HANDOVER_DONE (R489): A planned Collar core handover completes on the spare. -/
  | coreHandoverDone
  /-- REFCLK_STOP (R513): REFCLK156 stops, stopping the core. -/
  | refclkStop
  /-- SRD_REFCLK_LOSS (R513): A lost SerDes reference takes its four Cuffs' lanes out of lock. -/
  | srdRefclkLoss (bank : Nat)
  /-- SMBUS_SAMPLE_UPDATE (R515): Every 100 µs the SMBus values are sampled. -/
  | smbusSampleUpdate
  /-- SMBUS_TJ (R515): SMBus read command 0x01 returns Tj. -/
  | smbusTj
  /-- SMBUS_STAGE (R515): SMBus read command 0x02 returns SYS_STATE.stage. -/
  | smbusStage
  /-- SMBUS_FLAGS (R515): SMBus read command 0x03 returns health flags. -/
  | smbusFlags
  /-- SMBUS_CORE_MV (R515): SMBus read command 0x04 returns the core voltage request. -/
  | smbusCoreMv
  /-- SMBUS_EOM (R515): SMBus read command 0x05 returns the end-of-margin mask. -/
  | smbusEom
  /-- SMBUS_SENSORS (R515): SMBus block read 0x06 returns the 24 thermal sensors. -/
  | smbusSensors
  /-- SMBUS_ALERT_RESPONSE (R516): A read of the Alert Response Address returns 0x5A and releases SMB_ALERT_N. -/
  | smbusAlertResponse
  /-- SMBUS_WRITE_NACK (R515): Any SMBus write or unknown command is NACKed. -/
  | smbusWriteNack
  /-- JTAG_INSTRUCTION (R402): A JTAG instruction is executed, or acts as BYPASS while debug is locked. -/
  | jtagInstruction (inst : Jtag)
  /-- SLOT_SHARE_SET (R41): Sets a Sleeve's slot shares, update gap and oversubscribe flag. -/
  | slotShareSet (h : Hdr) (r : SlotShareRec)
  /-- SLOT_STATUS_GET (R42): Returns a Sleeve's slot counters and settings. -/
  | slotStatusGet (h : Hdr) (sleeve : Nat)
  /-- PTP_PORT_SET (R55): Sets a port's PTP trapping and asymmetries. -/
  | ptpPortSet (h : Hdr) (r : PtpPortRec)
  /-- TIME_STATUS_GET (R69): Returns network time, Hem state and source. -/
  | timeStatusGet (h : Hdr)
  /-- TIME_IO_SET (R62): Sets time source, servo mode and time I/O. -/
  | timeIoSet (h : Hdr) (r : TimeIoRec)
  /-- TIME_ADJUST (R68): Steps, sets, sets frequency of, or sets the state of network time. -/
  | timeAdjust (h : Hdr) (r : TimeAdjustRec)
  /-- HEM_COUNTERS_GET (R70): Returns the Hem counters. -/
  | hemCountersGet (h : Hdr)
  /-- CUFF_ATTACH (R83): Starts moving a Cuff to another Sleeve by a fence. -/
  | cuffAttach (h : Hdr) (r : CuffAttachRec)
  /-- PORT_CONFIG_SET (R87): Sets a port's mode, FEC, profile and link settings. -/
  | portConfigSet (h : Hdr) (r : PortConfigRec)
  /-- PORT_STATUS_GET (R89): Returns a port's link state. -/
  | portStatusGet (h : Hdr) (port : Nat)
  /-- MAC_STATS_GET (R89): Returns a port's MAC statistics. -/
  | macStatsGet (h : Hdr) (port : Nat)
  /-- PARSE_PORT_SET (R113): Sets a port's parsing settings. -/
  | parsePortSet (h : Hdr) (r : ParsePortRec)
  /-- PATTERN_SET (R114): Stages a pattern into a free index. -/
  | patternSet (h : Hdr) (r : PatternRec)
  /-- PATTERN_CLEAR (R114): Stages removal of a live pattern. -/
  | patternClear (h : Hdr) (index : Nat)
  /-- FRAG_CONFIG_SET (R115): Sets fragment timeout and quotas. -/
  | fragConfigSet (h : Hdr) (r : FragConfigRec)
  /-- PARSE_STATS_GET (R116): Returns parsing, pattern or fragment counters. -/
  | parseStatsGet (h : Hdr) (kind : Nat) (unit : Nat) (tenancy : Nat)
  /-- FLOW_PROFILE_SET (R145): Stages a flow key profile. -/
  | flowProfileSet (h : Hdr) (r : ProfileRec)
  /-- FLOW_ADD (R146): Stages a flow entry with relocation or eviction. -/
  | flowAdd (h : Hdr) (r : FlowAddRec)
  /-- FLOW_DEL (R146): Stages removal of a flow entry. -/
  | flowDel (h : Hdr) (r : FlowDelRec)
  /-- FLOW_READ (R146): Returns the tenancy's flow entries from the shadow. -/
  | flowRead (h : Hdr)
  /-- LEARN_POLICY_SET (R148): Sets a tenancy's ageing, idle and eviction policy. -/
  | learnPolicySet (h : Hdr) (r : LearnPolicyRec)
  /-- LEARN_QUOTA_SET (R147): Sets learning quotas and the reseed interval. -/
  | learnQuotaSet (h : Hdr) (r : LearnQuotaRec)
  /-- LEARN_PORT_SET (R148): Sets a port's learning enable and default bridge domain. -/
  | learnPortSet (h : Hdr) (r : LearnPortRec)
  /-- LEARN_STATIC_SET (R148): Writes a static learning entry into every Sleeve. -/
  | learnStaticSet (h : Hdr) (r : LearnStaticRec)
  /-- LEARN_FLUSH (R148): Removes matching non-static learning entries. -/
  | learnFlush (h : Hdr) (r : LearnFlushRec)
  /-- LEARN_READ (R143): Returns a Sleeve's learning entries of the tenancy. -/
  | learnRead (h : Hdr) (sleeve : Nat)
  /-- TABLE_STATS_GET (R149): Returns flow and learning counters. -/
  | tableStatsGet (h : Hdr) (sleeve : Nat)
  /-- TCAM_PROFILE_SET (R167): Stages a TCAM key profile. -/
  | tcamProfileSet (h : Hdr) (r : ProfileRec)
  /-- TCAM_WRITE (R158): Stages a TCAM entry at a free index. -/
  | tcamWrite (h : Hdr) (r : TcamWriteRec)
  /-- TCAM_CLEAR (R158): Stages removal of a live TCAM entry. -/
  | tcamClear (h : Hdr) (index : Nat)
  /-- TCAM_ITERATE (R166): Makes one diagnostic TCAM search and returns matching entries. -/
  | tcamIterate (h : Hdr) (r : TcamIterateRec)
  /-- TCAM_THROTTLE_SET (R168): Sets tc_reserve and the scrub period. -/
  | tcamThrottleSet (h : Hdr) (r : TcamThrottleRec)
  /-- TCAM_STATUS_GET (R169): Returns TCAM counters, band and thresholds. -/
  | tcamStatusGet (h : Hdr) (sleeve : Nat)
  /-- TBL_COMMIT (R179): Accepts a commit of the tenancy's staged changes. -/
  | tblCommit (h : Hdr) (deadlineMs : Nat)
  /-- TBL_ABORT (R180): Discards staged changes not taken by a commit. -/
  | tblAbort (h : Hdr)
  /-- VERSION_STATUS_GET (R183): Returns version slot states, epochs and counts. -/
  | versionStatusGet (h : Hdr)
  /-- ACT_TENANCY_SET (R194): Sets a tenancy's precedence, miss reference and PCP map. -/
  | actTenancySet (h : Hdr) (r : ActTenancyRec)
  /-- FLOOD_GROUP_SET (R194): Sets a flood group's members, queue and bridge-domain range. -/
  | floodGroupSet (h : Hdr) (r : FloodGroupRec)
  /-- MIRROR_SESSION_SET (R194): Sets a mirror session. -/
  | mirrorSessionSet (h : Hdr) (r : MirrorSessionRec)
  /-- COPY_LIMIT_SET (R192): Sets a tenancy's copy limiter and mirror grants. -/
  | copyLimitSet (h : Hdr) (r : CopyLimitRec)
  /-- ACTION_SET (R195): Stages an action record. -/
  | actionSet (h : Hdr) (r : ActionRec)
  /-- ACTION_CLEAR (R195): Stages removal of an action record. -/
  | actionClear (h : Hdr) (index : Nat)
  /-- ACT_STATS_GET (R196): Returns action and version counters. -/
  | actStatsGet (h : Hdr)
  /-- TEMPLATE_SET (R189): Writes one header template and its length. -/
  | templateSet (h : Hdr) (r : TemplateRec)
  /-- UCODE_LOAD (R219): Loads and checks an owner-signed customer microcode image. -/
  | ucodeLoad (h : Hdr) (r : UcodeLoadRec) (img : UcodeImage)
  /-- UCODE_ACCEPT (R222): A tenant accepts or revokes a customer image's bindings. -/
  | ucodeAccept (h : Hdr) (r : UcodeAcceptRec)
  /-- UCODE_ACTIVATE (R221): Switches the hook generation stamped by all slot arbiters. -/
  | ucodeActivate (h : Hdr) (r : UcodeActivateRec)
  /-- CUST_MEM_WRITE (R223): Writes words of customer memory. -/
  | custMemWrite (h : Hdr) (r : CustMemRec)
  /-- CUST_MEM_READ (R223): Reads words of customer memory. -/
  | custMemRead (h : Hdr) (r : CustMemRec)
  /-- UCODE_STATUS_GET (R224): Returns stage-engine counters and residences. -/
  | ucodeStatusGet (h : Hdr)
  /-- POOL_SET (R250): Sets a pool's tenancy, role and size. -/
  | poolSet (h : Hdr) (r : PoolRec)
  /-- QUEUE_BUF_SET (R251): Sets a queue's class, limit and spill marks. -/
  | queueBufSet (h : Hdr) (r : QueueBufRec)
  /-- BUF_GLOBAL_SET (R251): Sizes the deep-buffer region. -/
  | bufGlobalSet (h : Hdr) (regionMib : Nat)
  /-- YOKE_STATS_GET (R252): Returns Yoke counters. -/
  | yokeStatsGet (h : Hdr)
  /-- POOL_STATUS_GET (R252): Returns a Pocket's metadata word. -/
  | poolStatusGet (h : Hdr) (pool : Nat) (pocket : Nat)
  /-- METER_BIND (R263): Stages a meter binding. -/
  | meterBind (h : Hdr) (r : MeterBindRec)
  /-- METER_UNBIND (R270): Stages removal of a meter binding. -/
  | meterUnbind (h : Hdr) (index : Nat)
  /-- METER_TENANCY_SET (R271): Sets a tenancy's colour maps and default context. -/
  | meterTenancySet (h : Hdr) (r : MeterTenancyRec)
  /-- METER_STATS_GET (R272): Returns a context's counters and meter state. -/
  | meterStatsGet (h : Hdr) (index : Nat)
  /-- SCHED_PORT_SET (R290): Sets strict count, quantum unit and queue-to-gate map. -/
  | schedPortSet (h : Hdr) (r : SchedPortRec)
  /-- SCHED_QUEUE_SET (R290): Sets a queue's weight, shaper and sojourn limit. -/
  | schedQueueSet (h : Hdr) (r : SchedQueueRec)
  /-- GATE_CONFIG_SET (R282): Sets gate enable and admin states or schedules a configuration change. -/
  | gateConfigSet (h : Hdr) (r : GateConfigRec)
  /-- GATE_ENTRIES_SET (R290): Writes entries of the administrative gate list. -/
  | gateEntriesSet (h : Hdr) (r : GateEntriesRec)
  /-- SAMPLER_QUOTA_SET (R291): Sets sample ring sizes and quotas. -/
  | samplerQuotaSet (h : Hdr) (r : SamplerQuotaRec)
  /-- SAMPLER_SET (R291): Enables sampling of a port's queues. -/
  | samplerSet (h : Hdr) (r : SamplerRec)
  /-- SAMPLE_READ (R289): Returns and frees the oldest sample records. -/
  | sampleRead (h : Hdr) (maxRecords : Nat)
  /-- SCHED_STATS_GET (R292): Returns scheduler counters. -/
  | schedStatsGet (h : Hdr) (kind : Nat) (unit : Nat)
  /-- GATE_STATUS_GET (R292): Returns a port's gate parameters and position. -/
  | gateStatusGet (h : Hdr) (port : Nat)
  /-- REL_PROFILE_SET (R307): Stages a release profile. -/
  | relProfileSet (h : Hdr) (r : RelProfileRec)
  /-- REL_PROFILE_CLEAR (R307): Stages removal of a release profile. -/
  | relProfileClear (h : Hdr) (index : Nat)
  /-- REL_TENANCY_SET (R308): Enables or disables a tenancy's release binding. -/
  | relTenancySet (h : Hdr) (flags : Nat)
  /-- REL_PORT_SET (R308): Sets a port's calendar limit. -/
  | relPortSet (h : Hdr) (port : Nat) (calLimit : Nat)
  /-- REL_STATS_GET (R309): Returns release counters. -/
  | relStatsGet (h : Hdr) (kind : Nat) (unit : Nat)
  /-- REL_PROFILE_READ (R309): Returns the tenancy's release profiles from the shadow. -/
  | relProfileRead (h : Hdr) (index : Nat)
  /-- MACSEC_PORT_SET (R323): Sets a port's MACsec protection and validation. -/
  | macsecPortSet (h : Hdr) (r : MacsecPortRec)
  /-- MACSEC_SC_SET (R324): Creates, changes or removes a secure channel. -/
  | macsecScSet (h : Hdr) (r : MacsecScRec)
  /-- MACSEC_TX_AN_SET (R315): Selects a transmit SC's association number. -/
  | macsecTxAnSet (h : Hdr) (sc : Nat) (an : Nat)
  /-- KEY_LOAD (R321): Loads a key into an SA or bulk key slot. -/
  | keyLoad (h : Hdr) (r : KeyLoadRec)
  /-- KEY_ERASE (R322): Makes a key slot RETIRING for erasure. -/
  | keyErase (h : Hdr) (r : KeyEraseRec)
  /-- MACSEC_SA_STATUS_GET (R313): Returns a slot's state and next PN. -/
  | macsecSaStatusGet (h : Hdr) (slot : Nat)
  /-- BULK_OPEN (R326): Opens a bulk cipher message, generating its nonce. -/
  | bulkOpen (h : Hdr) (r : BulkOpenRec)
  /-- BULK_SEGMENT (R325): Queues one segment of a bulk message. -/
  | bulkSegment (h : Hdr) (r : BulkSegmentRec)
  /-- BULK_CLOSE (R331): Abandons a bulk message and frees its context. -/
  | bulkClose (h : Hdr) (message : Nat)
  /-- BULK_CONFIG_SET (R331): Sets wrapped-context quotas. -/
  | bulkConfigSet (h : Hdr) (quota : List Nat)
  /-- MACSEC_STATS_GET (R332): Returns MACsec counters. -/
  | macsecStatsGet (h : Hdr) (port : Nat)
  /-- BULK_STATS_GET (R332): Returns bulk cipher counters. -/
  | bulkStatsGet (h : Hdr)
  /-- DRAM_CONFIG_SET (R357): Sets DRAM rate, DRFM, fence and self-refresh settings. -/
  | dramConfigSet (h : Hdr) (r : DramConfigRec)
  /-- DRAM_CHANNEL_SET (R357): Migrates, returns, takes out of service or fences a channel. -/
  | dramChannelSet (h : Hdr) (r : DramChannelRec)
  /-- DRAM_STATUS_GET (R358): Returns channel states, windows and counters. -/
  | dramStatusGet (h : Hdr)
  /-- REC_STORE_SET (R373): Sizes the Lining store and per-tenancy quotas. -/
  | recStoreSet (h : Hdr) (r : RecStoreRec)
  /-- REC_ARM (R367): Arms a capture, writing RESEED and HOOK records and starting the snapshot sweep. -/
  | recArm (h : Hdr) (r : RecArmRec)
  /-- REC_TRIGGER (R365): Triggers the sender's capture manually. -/
  | recTrigger (h : Hdr)
  /-- REC_STOP (R371): Stops the sender's capture. -/
  | recStop (h : Hdr)
  /-- REC_CLEAR (R374): Returns a capture to IDLE, frees its area and zeroises its key. -/
  | recClear (h : Hdr)
  /-- REC_EXPORT (R372): Exports records re-encrypted through the bulk service. -/
  | recExport (h : Hdr) (r : RecExportRec)
  /-- REC_STATUS_GET (R374): Returns a capture's state and counters. -/
  | recStatusGet (h : Hdr)
  /-- REPLAY_RUN (R369): Starts replaying a live Sleeve's records on a replay Sleeve. -/
  | replayRun (h : Hdr) (r : ReplayRunRec)
  /-- REPLAY_ABORT (R371): Aborts a replay, restoring the replay Sleeve. -/
  | replayAbort (h : Hdr) (sleeve : Nat)
  /-- REPLAY_REPORT_READ (R370): Returns replay report entries. -/
  | replayReportRead (h : Hdr) (maxEntries : Nat)
  /-- PORT_TENANCY_SET (R382): Sets a port's tenancy map. -/
  | portTenancySet (h : Hdr) (r : PortTenancyRec)
  /-- RES_ASSIGN (R389): Reassigns units, starting with the fence cycle. -/
  | resAssign (h : Hdr) (r : ResAssignRec)
  /-- RES_STATUS_GET (R432): Returns units of a kind with tenancy and epoch. -/
  | resStatusGet (h : Hdr) (kind : Nat)
  /-- OWNER_KEY_SET (R396): Records or replaces the owner public key. -/
  | ownerKeySet (h : Hdr) (key : Nat) (sigOk : Bool)
  /-- TENANT_ENROL (R397): Enrols or removes a tenant key, scrubbing its units. -/
  | tenantEnrol (h : Hdr) (r : TenantEnrolRec)
  /-- ROLLBACK_ADVANCE (R399): Starts advancing the anti-rollback fuses. -/
  | rollbackAdvance (h : Hdr) (target : Nat)
  /-- ATTEST_GET (R400): Returns an IDK-signed attestation report. -/
  | attestGet (h : Hdr) (nonce : Nat)
  /-- DEBUG_NONCE_GET (R403): Issues a debug unlock nonce. -/
  | debugNonceGet (h : Hdr)
  /-- DEBUG_UNLOCK (R403): Verifies tokens, erases tenant state and unlocks debug. -/
  | debugUnlock (h : Hdr) (owner : Token) (vendor : Token)
  /-- SESSION_HELLO (R411): Starts a session handshake, returning the device ephemeral key. -/
  | sessionHello (h : Hdr) (hostNonce : Nat)
  /-- SESSION_OPEN (R412): Opens a sealed session and derives its keys. -/
  | sessionOpen (h : Hdr) (r : SessionOpenRec)
  /-- SESSION_CLOSE (R413): Closes a session and zeroises its keys. -/
  | sessionClose (h : Hdr)
  /-- EVENT_MASK_SET (R422): Sets a session's event mask. -/
  | eventMaskSet (h : Hdr) (mask : Nat)
  /-- MBX_STATS_GET (R434): Returns mailbox counters. -/
  | mbxStatsGet (h : Hdr)
  /-- HOST_STATUS_GET (R456): Returns link, state and endpoint counters. -/
  | hostStatusGet (h : Hdr)
  /-- GUS_CONFIG_SET (R471): Sets PMBus address, planning flags and hold-up parameters in the island. -/
  | gusConfigSet (h : Hdr) (r : GusConfigRec)
  /-- GUS_STATUS_GET (R471): Returns live Gusset values. -/
  | gusStatusGet (h : Hdr)
  /-- GUS_HISTORY_READ (R471): Returns ageing history records. -/
  | gusHistoryRead (h : Hdr) (first : Nat) (count : Nat)
  /-- GUS_POSTMORTEM_READ (R471): Returns a post-mortem record. -/
  | gusPostmortemRead (h : Hdr) (slot : Nat)
  /-- SVC_UNIT_SET (R485): Takes a unit out of service or returns it. -/
  | svcUnitSet (h : Hdr) (r : SvcUnitRec)
  /-- SVC_TEST (R486): Starts a unit's service test. -/
  | svcTest (h : Hdr) (r : SvcTestRec)
  /-- SVC_STATUS_GET (R499): Returns every unit's service state and last test. -/
  | svcStatusGet (h : Hdr)
  /-- FW_STORE (R493): Checks an image and starts writing it into flash. -/
  | fwStore (h : Hdr) (r : FwStoreRec)
  /-- FW_SWITCH (R494): Starts moving the Collar to the stored inactive image. -/
  | fwSwitch (h : Hdr) (digest : Nat)
  /-- FW_COMMIT (R495): Writes the boot directory to name the running image. -/
  | fwCommit (h : Hdr) (digest : Nat)
  /-- PATCH_ROLL (R492): Starts applying the vendor patch set Sleeve by Sleeve. -/
  | patchRoll (h : Hdr) (digest : Nat)
  /-- EJECT_CONFIG_SET (R496): Sets eject mode and grace time. -/
  | ejectConfigSet (h : Hdr) (r : EjectConfigRec)
  /-- SVC_EJECT (R496): Confirms or holds an ejection. -/
  | svcEject (h : Hdr) (op : Nat)
  /-- BOOT_INFO (R479): ROM returns recovery cause and image results. -/
  | bootInfo (h : Hdr)
  /-- BOOT_IMAGE_LOAD (R479): ROM loads and checks a firmware image from host memory and starts it. -/
  | bootImageLoad (h : Hdr) (len : Nat) (img : FwImage)
  /-- UCODE_ACTIVATE_TIMEOUT (R223): An UCODE_ACTIVATE whose old hook generation has not drained by deadline_ms completes with TIMEOUT. -/
  | ucodeActivateTimeout
  /-- DRAM_CHANNEL_TIMEOUT (R357): A DRAM_CHANNEL_SET op 1 migration, or a Gusset re-centring, that has not finished by deadline_ms is abandoned and completes with TIMEOUT, the source staying ACTIVE. -/
  | dramChannelTimeout
  /-- SCRUB_QUEUE_DISCARD (R389): From the fence cycle a reassigned egress queue discards its frames one per cycle with drop reason 29, SCRUB, freeing their Pockets. -/
  | scrubQueueDiscard (port : Nat) (queue : Nat)
  /-- EJECT_FLASH_ABANDON (R496): A deferred flash write still waiting 100 ms after step 1 of an ejection is abandoned, letting the sequence go on to self-refresh and EJECT_RDY_N. -/
  | ejectFlashAbandon
  deriving DecidableEq, Repr

end Sys2Proof
end

