-- ==== Sys2Proof/Word.lean ====
section
/-! DEFINITION. Plain arithmetic, the sparse tables that hold numbered state, and the canonical
memories. -/

namespace Sys2Proof

/-- The core clock's rate, 3.000 GHz (R8): cycles in one microsecond, millisecond, second. -/
def cyclesPerUs : Nat := 3000
def cyclesPerMs : Nat := 3000000
def cyclesPerS : Nat := 3000000000

/-- The quotient of `a` by `b` rounded up. -/
def ceilDiv (a b : Nat) : Nat := (a + (b - 1)) / b

/-- `w` bits of `n` from bit `lo`. -/
def bits (n lo w : Nat) : Nat := (n >>> lo) % 2 ^ w

/-- Bit `i` of `n`. -/
def bit (n i : Nat) : Bool := n.testBit i

/-- `n` with bit `i` set. -/
def setBit (n i : Nat) : Nat := n ||| (2 ^ i)

/-- `n` with bit `i` clear. -/
def clearBit (n i : Nat) : Nat := if n.testBit i then n - 2 ^ i else n

/-- The number of ones among the low `w` bits of `n`. -/
def popCount (w n : Nat) : Nat := (List.range w).countP (n.testBit ·)

/-- The positions of the ones among the low `w` bits of `n`, lowest first. -/
def onesOf (w n : Nat) : List Nat := (List.range w).filter (n.testBit ·)

/-- The bytes of a list, first byte most significant, as a number (network order). -/
def beNat (bs : List Nat) : Nat := bs.foldl (fun a b => a * 256 + b) 0

/-- The bytes of a list, first byte least significant, as a number (record order, R11). -/
def leNat : List Nat → Nat
  | [] => 0
  | b :: bs => b + 256 * leNat bs

/-- `n` as `k` bytes, most significant first. -/
def beBytes (k n : Nat) : List Nat := (List.range k).map fun i => (n >>> (8 * (k - 1 - i))) % 256

/-- `n` as `k` bytes, least significant first. -/
def leBytes (k n : Nat) : List Nat := (List.range k).map fun i => (n >>> (8 * i)) % 256

/-- The two's complement value of the low `w` bits of `n`. -/
def signed (w n : Nat) : Int :=
  let m := n % 2 ^ w
  if m < 2 ^ (w - 1) then (m : Int) else (m : Int) - (2 ^ w : Nat)

/-- The low `w` bits of an integer in two's complement. -/
def wrap (w : Nat) (z : Int) : Nat := (z % (2 ^ w : Nat)).toNat

/-- A number put in its place of an ascending list. -/
def insertAsc (n : Nat) : List Nat → List Nat
  | [] => [n]
  | m :: ms => if n ≤ m then n :: m :: ms else m :: insertAsc n ms

/-- A list in ascending order. -/
def ascending (l : List Nat) : List Nat := l.foldr insertAsc []

/-- A numbered table: what no listed number names holds the default that the reader gives. -/
structure Tab (α : Type) where
  cells : List (Nat × α)
  deriving DecidableEq, Repr

/-- The table that lists nothing. -/
def Tab.none {α : Type} : Tab α := ⟨[]⟩

/-- Entry `k` of a table whose unlisted entries hold `d`. -/
def Tab.get {α : Type} (t : Tab α) (d : α) (k : Nat) : α :=
  match t.cells.lookup k with
  | some v => v
  | .none => d

/-- The entry listed under `k`, if one is. -/
def Tab.get? {α : Type} (t : Tab α) (k : Nat) : Option α := t.cells.lookup k

/-- The table with entry `k` holding `v`. -/
def Tab.set {α : Type} (t : Tab α) (k : Nat) (v : α) : Tab α :=
  ⟨(k, v) :: t.cells.filter fun c => c.1 != k⟩

/-- The table with `k` unlisted. -/
def Tab.del {α : Type} (t : Tab α) (k : Nat) : Tab α := ⟨t.cells.filter fun c => c.1 != k⟩

/-- Every listed value changed. -/
def Tab.map {α : Type} (t : Tab α) (f : Nat → α → α) : Tab α :=
  ⟨t.cells.map fun c => (c.1, f c.1 c.2)⟩

/-- The listed values that `p` accepts. -/
def Tab.filter {α : Type} (t : Tab α) (p : Nat → α → Bool) : Tab α :=
  ⟨t.cells.filter fun c => p c.1 c.2⟩

/-- A canonical memory of words: addresses strictly rising, and no listed word zero, which is what
an unlisted address reads as. -/
abbrev Mem := List (Nat × Nat)

/-- The canonical form of a memory. -/
def Mem.wf : Mem → Bool
  | [] => true
  | [c] => c.2 != 0
  | c :: d :: m => c.2 != 0 && decide (c.1 < d.1) && Mem.wf (d :: m)

/-- The word at an address. -/
def Mem.read (m : Mem) (a : Nat) : Nat :=
  match m.lookup a with
  | some v => v
  | none => 0

/-- The memory with word `v` at address `a`. -/
def Mem.write : Mem → Nat → Nat → Mem
  | [], a, v => if v = 0 then [] else [(a, v)]
  | c :: m, a, v =>
    if a < c.1 then (if v = 0 then c :: m else (a, v) :: c :: m)
    else if a = c.1 then (if v = 0 then m else (a, v) :: m)
    else c :: Mem.write m a v

/-- The words `vs` written from address `a` on. -/
def Mem.writeList : Mem → Nat → List Nat → Mem
  | m, _, [] => m
  | m, a, v :: vs => Mem.writeList (Mem.write m a v) (a + 1) vs

/-- Every word of `[a, a + n)` returned to zero. -/
def Mem.clearRange (m : Mem) (a n : Nat) : Mem := m.filter fun c => !(a ≤ c.1 && c.1 < a + n)

end Sys2Proof
end

