-- ==== Sys2Proof/Config.lean ====
section
/-! DEFINITION. What the spec leaves open, as constants without a body: no proof can see a value of
them, so a claim holds whatever they are. Their argument is a counter of the state, so that each use
is a fresh value, or what the value depends on. -/

namespace Sys2Proof.Config

/-- The occurrence count an event carries (17, Events): no rule states it. -/
opaque freeOccurrence : Nat → Nat

/-- A random draw of the Clasp (R395): salts, seeds, nonces and keys. -/
opaque freeDraw : Nat → Nat

/-- A register value that a table operation of a control word returns in a layout the spec does not
give (R206, Table 8-8). -/
opaque freeWord : Nat → Nat

/-- A yes or no that the spec does not determine. -/
opaque freeBit : Nat → Bool

/-- The code of a cause that SESSION_CLOSED carries; the causes are numbered in the order of R413. -/
opaque closeCause : Nat → Nat

/-- The device's identity: the IDK public key, the fuse serial (Table 16-6), and the IDK's signature over a report. -/
opaque idkPublic : Nat
opaque serial : Nat
opaque idkSignature : List Nat → Nat

/-- The keys of a session, from the device's ephemeral key and the opening software's (R411). -/
opaque sessionKey : Nat → Nat → Nat

/-- The SHA-384 digest or hash of a value (16, 17). -/
opaque digest : Nat → Nat

/-- Whether the board's DRAM components are of 16 Gb, not 8 Gb (R334, Table 14-1). -/
opaque dramDense : Bool

/-- The highest rate that the fitted speed bins allow, as DRAM_CONFIG_SET codes it (R334, R357). -/
opaque dramBin : Nat

/-- Whether the copy of a striped unit had not landed when the source of a migration was fenced (R353): for the draw of
that fence, and the unit. -/
opaque freeUncopied : Nat → Nat → Bool

/-- The cause code that a LINK_STATE event carries for AN_MISMATCH (R78); no rule numbers it. -/
opaque anMismatch : Nat

/-- The receiver adaptation steps within a port mode's limits (R462). -/
opaque adaptSteps : Nat → Nat

/-- The Subsystem ID of the board record (18, Table 18-2): a value of the board. -/
opaque subsystem : Nat

end Sys2Proof.Config
end

