-- ==== Sys2Proof/Machine/State.lean ====
section
/-! DEFINITION. The state of the TH9600: every register, table, queue, counter, mode and pin that the
spec gives it, as plain data, one structure per chapter; and the state after reset. -/

namespace Sys2Proof.Machine

/-- Why the block stops. -/
inductive Fault where
  /-- Raised by every command but the PERST# rows after RAIL_FAULT (R475) or REFCLK_STOP (R513), which
  leave the device in an undefined state until the next fundamental reset. Safe: nothing is claimed of
  a device whose state the spec calls undefined. -/
  | undefinedUntilReset
  deriving DecidableEq, Repr

/-- Why a command has no meaning. -/
inductive Refusal where
  /-- Raised by an arm of `exec` whose command is not modelled. Safe: nothing is claimed of it. -/
  | notModelled (mnemonic : String)
  deriving DecidableEq, Repr

/-- Whether the device runs: powered and out of reset; held in reset by PERST#; stopped by the thermal
shutdown of R459; or undefined after a rail or reference fault. -/
inductive Power where
  | on
  | reset
  | shutdown
  | undefined
  deriving DecidableEq, Repr

/-- The counters of the chapters' tables; what the two units of a counter are is said where it counts. -/
inductive Ctr where
  | completionsDiscarded
  | responses
  | events
  | eventsLost
  | requests
  | badSeal
  | badSequence
  | ringErrors
  | rxCopies
  | rxRingDrop
  | staleEpochRejects
  | notPermittedRejects
  | scrubDiscards
  | scrubs
  | poolAlloc
  | poolAllocFail
  | poolRxDrop
  | cacheReturns
  | doubleFree
  | foreignFree
  | pocketQuarantined
  | queueDrops
  | spillFrames
  | spillReturns
  | spillLost
  | spillReturnWait
  | seamFrames
  | seamContention
  | seamMiss
  | seamAborted
  | slotsIngress
  | slotsRecirc
  | slotsInject
  | slotsReplay
  | slotsHousekeeping
  | slotsBubble
  | slotsIdle
  | rxFramesOk
  | rxOctetsOk
  | rxFcsErr
  | rxUndersize
  | rxRunt
  | rxOversize
  | rxMacControl
  | rxTruncated
  | rxSlotOverflow
  | rxMacsecDiscard
  | rxUnmapped
  | rxPoolDropPort
  | txFrames
  | txOctets
  | txAborted
  | txLinkDownDiscard
  | txOversizeDiscard
  | fecCorrected
  | fecUncorrectable
  | fecSymbolErr
  | pcsLockLoss
  | linkDownEvents
  | parseMalformed
  | parseMalformedLate
  | parseTruncated
  | patternHits
  | fragCreated
  | fragFirstDup
  | fragRefused
  | fragDecidedHits
  | fragOrphan
  | fragPendingOrphan
  | fragExpired
  | flowLookups
  | flowHits
  | flowKeySkip
  | dstMiss
  | learnInserted
  | learnRelocated
  | learnDuplicate
  | learnEvicted
  | learnRefusedQuota
  | learnRefusedFull
  | learnQueueDrop
  | learnMoves
  | learnStaticConflict
  | learnAged
  | drops
  | actionHits
  | copiesSent
  | copyRateDrop
  | copyQueueDrop
  | mirrorQueueDrop
  | mirrorsSent
  | mirrorRateDrop
  | floodReplicas
  | recircPasses
  | rewriteSkipped
  | commits
  | versionBusy
  | journalGaps
  | csEccCorrected
  | csEccUncorrectable
  | tableEccCorrected
  | tableEccUncorrectable
  | ucodeFaults
  | contPasses
  | hkRollbacks
  | overlayFull
  | greenPackets
  | greenOctets
  | yellowPackets
  | yellowOctets
  | redPackets
  | redOctets
  | meterUnbound
  | meterOutOfRange
  | remarkSkipped
  | meterEcc
  | txQFrames
  | txQOctets
  | sojournExpired
  | sduExceeded
  | gateOverrun
  | guardIdle
  | gateChanges
  | sampleOverflow
  | relBound
  | relNotBound
  | relOnTime
  | relHeld
  | relLate
  | relError0
  | relError1
  | relError2
  | relError3
  | calEntered
  | calReleased
  | calLateDrop
  | calLateFwd
  | calFull
  | calStepLate
  | calStepError
  | relStartLate
  | relNotStrict
  | txPktsProtected
  | txPktsEncrypted
  | txScOctets
  | txSaRetiredDrop
  | rxScOk
  | rxScUnchecked
  | rxScNotValid
  | rxScLate
  | rxScNotUsingSa
  | rxScOctets
  | rxUntagged
  | rxBadTag
  | rxUnknownSci
  | rxPortUnchecked
  | bulkSegments
  | bulkBytes
  | bulkKeyChanged
  | bulkTagFail
  | tenancyUnmapped
  | tcamSearches
  | tcamHits
  | tcamMulti
  | tcamKeySkip
  | tcamFalseHits
  | scrubMismatches
  | tcamUpdates
  | throttleDeferrals
  | bandCycles1
  | bandCycles2
  | recFrames
  | recMarkers
  | recLostRate
  | recLostRing
  | recLostYoke
  | recLostDram
  | recOverwritten
  | replayIssued
  | replayCompared
  | replayClass
  | avsUp
  | avsDown
  | pmbusFail
  | flashDeferrals
  | postmortemWritten
  | postmortemLost
  | recentrings
  | historyRecords
  | dramReads
  | dramWrites
  | rowHits
  | dramCe
  | dramUe
  | refreshes
  | drfm
  | srEntries
  | agePromotions
  | spillBackpressure
  | regWriteRefused
  | migrations
  | fences
  | dmaReads
  | dmaWrites
  | completionTimeouts
  | lateCompletions
  | badCompletions
  | masterOffDiscards
  | misalignedAccess
  | teardowns
  | linkDowns
  | linkRetrains
  | correctableErrors
  | timeSteps
  | holdoverEntries
  | ppsInMissing
  | ppsInSpurious
  | todRxBad
  | ptpRxTrapped
  | ptpOneStep
  | ptpTwoStep
  | tsFifoOverflow
  deriving DecidableEq, Repr

/-- A counter's width in bits (R10: 64 unless its table says otherwise). -/
def Ctr.width : Ctr → Nat
  | .ringErrors => 32
  | .scrubs => 32
  | .pcsLockLoss => 32
  | .linkDownEvents => 32
  | .gateChanges => 32
  | .pmbusFail => 32
  | .recentrings => 32
  | .migrations => 32
  | .fences => 32
  | .teardowns => 32
  | .linkDowns => 32
  | .linkRetrains => 32
  | _ => 64

/-- Whether a counter saturates. -/
def Ctr.saturates : Ctr → Bool
  | .pcsLockLoss => true
  | .linkDownEvents => true
  | _ => false

/-! ### Network time (02) -/

/-- The Hem states of Table 2-5. -/
inductive HemMode where
  | freerun
  | acquiring
  | locked
  | holdover
  deriving DecidableEq, Repr

/-- A value of network time with its step generation: seconds, nanoseconds, 2^-16 ns. -/
structure Stamp where
  sec : Nat
  ns : Nat
  frac : Nat
  gen : Nat
  deriving DecidableEq, Repr

/-- The zero time. -/
def Stamp.zero : Stamp := { sec := 0, ns := 0, frac := 0, gen := 0 }

/-- A port's PTP settings (Table 2-2). -/
structure PtpPort where
  flags : Nat
  domain : Nat
  ingressAsym : Int
  egressAsym : Int
  deriving DecidableEq, Repr

/-- A port's PTP settings after reset (R55). -/
def PtpPort.reset : PtpPort := { flags := 0, domain := 0, ingressAsym := 0, egressAsym := 0 }

/-- An entry of an egress timestamp FIFO (R54). -/
structure TxStamp where
  stamp : Stamp
  messageType : Nat
  domain : Nat
  sequenceId : Nat
  deriving DecidableEq, Repr

/-- A SyncE output: whether its clock runs, and the cycle its lane regained lock while it is held
low (R59). -/
structure SyncOut where
  running : Bool
  relockAt : Option Nat
  deriving DecidableEq, Repr

/-- A SyncE output after reset: held low. -/
def SyncOut.reset : SyncOut := { running := false, relockAt := none }

/-- The Hem. `acc` is network time in units of 2^-48 ns since the PTP epoch, `incr` HEM_INCR,
`history` the cycles at which HEM_INCR changed with the value set, newest first. PTP settings in
force stand per direction (R55), `ptpNext` those accepted and not yet in force. `ppsOutAt` is the cycle of the latest
PPS_OUT edge and `ppsOutSec` the second it marks; `todFor` the edge that the latest ToD message named, `todSent` the
messages sent, newest first. -/
structure HemState where
  acc : Nat
  stepGen : Nat
  incr : Nat
  freqAdj : Int
  history : List (Nat × Nat)
  utcOffset : Int
  clockClass : Nat
  mode : HemMode
  everLocked : Bool
  withinSince : Option Nat
  io : TimeIoRec
  valid : List Nat
  offsetNs : Int
  ptpRx : Tab PtpPort
  ptpTx : Tab PtpPort
  ptpNextRx : Tab PtpPort
  ptpNextTx : Tab PtpPort
  fifos : Tab (List TxStamp)
  ppsOut : Bool
  ppsOutAt : Option Nat
  ppsOutSec : Nat
  todFor : Option Nat
  ppsInAt : Option Nat
  ppsInStamp : Nat
  todSent : List (List Nat)
  todIn : Option (List Nat)
  sync0 : SyncOut
  sync1 : SyncOut
  deriving DecidableEq, Repr

/-- TIME_IO_SET's settings after reset: Table 2-9's defaults, source 0, internal servo, ToD off, SyncE
off (R71). -/
def timeIoReset : TimeIoRec :=
  { source := 0, servoMode := 0, sourcePort := 0xFFFF, stepThreshold := 10000,
    slewMax := 12800000, ppsOutFlags := 0, todDir := 0, ppsOutWidth := 100000000,
    ppsOutOffset := 0, ppsInDelay := 0, synce0Port := 0xFFFF, synce0Freq := 0,
    synce1Port := 0xFFFF, synce1Freq := 0 }

/-- The nominal HEM_INCR (R45). -/
def hemBase : Nat := 0x555555555555

/-- The Hem after a fundamental reset (R71). -/
def HemState.reset : HemState :=
  { acc := 0, stepGen := 0, incr := hemBase, freqAdj := 0, history := [],
    utcOffset := 0, clockClass := 248, mode := .freerun, everLocked := false, withinSince := none,
    io := timeIoReset, valid := [], offsetNs := 0, ptpRx := .none, ptpTx := .none,
    ptpNextRx := .none, ptpNextTx := .none, fifos := .none, ppsOut := false, ppsOutAt := none, ppsOutSec := 0, todFor := none,
    ppsInAt := none, ppsInStamp := 0, todSent := [], todIn := none, sync0 := .reset,
    sync1 := .reset }

/-! ### Mailboxes (17) -/

/-- The roles of Table 0 (R1). -/
inductive Role where
  | owner
  | tenant
  | maint
  deriving DecidableEq, Repr

/-- The status codes of Table 17-6. -/
inductive Status where
  | ok
  | accepted
  | notPermitted
  | staleEpoch
  | badField
  | badState
  | noSpace
  | slotBusy
  | versionBusy
  | timeout
  | badSeal
  | retired
  | keyChanged
  | poolEmpty
  | busMasterOff
  | badOpcode
  | badSequence
  deriving DecidableEq, Repr

/-- A response or event as it stands in the response ring (R409, R410, Table 17-3). -/
structure Entry where
  index : Nat
  slots : Nat
  phase : Bool
  code : Nat
  tenancy : Nat
  flags : Nat
  session : Nat
  seq : Nat
  status : Status
  requestSeq : Nat
  body : List Nat
  deriving DecidableEq, Repr

/-- An event before it is written: its code and its body (network time, step generation, occurrence
count, four arguments). -/
structure EventMsg where
  code : Nat
  body : List Nat
  deriving DecidableEq, Repr

/-- A session: session 0 of a function, or a sealed session 1 to 4 (R407); `serial` is the model's own number of
its opening. -/
structure Session where
  role : Role
  tenancy : Nat
  highest : Nat
  seen : List Nat
  rspSeq : Nat
  mask : Nat
  held : List EventMsg
  lost : Nat
  key : Nat
  openedAt : Nat
  maxDuration : Nat
  timeFree : Bool
  notAfter : Nat
  serial : Nat
  deriving DecidableEq, Repr

/-- Session 0 when its window is reset; its role counts on PF0 only (R396). -/
def Session.zero : Session :=
  { role := .owner, tenancy := 0, highest := 0, seen := [], rspSeq := 0, mask := 0xFFFFFFFF,
    held := [], lost := 0, key := 0, openedAt := 0, maxDuration := 0, timeFree := false,
    notAfter := 0, serial := 0 }

/-- A hello awaiting its SESSION_OPEN (R411). -/
structure Hello where
  hostNonce : Nat
  draw : Nat
  since : Nat
  deriving DecidableEq, Repr

/-- A message in progress, which some later command completes: where its final response goes, to the session of
that `serial` only. -/
structure Token where
  fn : Nat
  session : Nat
  tenancy : Nat
  seq : Nat
  code : Nat
  isAsync : Bool
  reserve : Nat
  boot : Bool
  serial : Nat
  deriving DecidableEq, Repr

/-- An entry of a receive ring (Table 17-5) with the frame bytes that follow it. -/
structure RxEntry where
  index : Nat
  slots : Nat
  phase : Bool
  length : Nat
  port : Nat
  tenancy : Nat
  flags : Nat
  stepGen : Nat
  decision : Nat
  seconds : Nat
  frameLen : Nat
  nanos : Nat
  fraction : Nat
  bytes : List Nat
  deriving DecidableEq, Repr

/-- One ring's registers (Table 17-2); `base` holds address bits [63:12]. -/
structure Ring where
  enabled : Bool
  base : Nat
  size : Nat
  head : Nat
  tail : Nat
  deriving DecidableEq, Repr

/-- A ring after reset. -/
def Ring.reset : Ring := { enabled := false, base := 0, size := 0, head := 0, tail := 0 }

/-- A ring's interrupt: HST_IRQ_RSP or HST_IRQ_RX, the entries written since the last interrupt and
the cycle of the oldest of them (R424). -/
structure RingIrq where
  vector : Nat
  countM1 : Nat
  timeUs : Nat
  waiting : Nat
  oldest : Nat
  deriving DecidableEq, Repr

/-- A ring's interrupt after reset. -/
def RingIrq.reset : RingIrq := { vector := 0, countM1 := 0, timeUs := 0, waiting := 0, oldest := 0 }

/-- The mailbox of one function: its register block (Table 17-2), what stands in its rings, its
sessions and its messages in progress. `fetched` is the request index up to which the ring has been
read, `unknown` the requests with opcodes of no command that stand first in it, `halted` says that a framing error has stopped the request ring and `zeroOpen` that session 0 is open, both
until the ring is enabled anew (R408, R417, R430). -/
structure Mailbox where
  req : Ring
  rsp : Ring
  rx : Ring
  reqError : Bool
  halted : Bool
  zeroOpen : Bool
  hostLost : Bool
  bootDone : Bool
  irqRsp : RingIrq
  irqRx : RingIrq
  hbTimeout : Nat
  hbSince : Nat
  boot : Mem
  bootWaiting : Bool
  fetched : Nat
  unknown : List (Nat × Hdr)
  entries : List Entry
  copies : List RxEntry
  reserved : Nat
  zero : Session
  sealed : Tab Session
  hello : Option Hello
  busy : Option Token
  asyncs : List Token
  deriving DecidableEq, Repr

/-- A function's mailbox after reset (R435). -/
def Mailbox.reset : Mailbox :=
  { req := .reset, rsp := .reset, rx := .reset, reqError := false, halted := false,
    zeroOpen := false, hostLost := false,
    bootDone := false, irqRsp := .reset, irqRx := .reset, hbTimeout := 0, hbSince := 0, boot := [],
    bootWaiting := false, fetched := 0, unknown := [], entries := [], copies := [], reserved := 0,
    zero := .zero, sealed := .none, hello := none, busy := none, asyncs := [] }

/-- The mailboxes and the Collar's cores. `opens` counts the sessions opened, `serves k` is the physical core of logical core `k`;
`spare` the spare core; `absent` the logical cores whose core has failed and not been replaced; `effects` the final
statuses that wait in effect records for such a core (R428). -/
structure MbxState where
  fwReady : Bool
  opens : Nat
  fns : Tab Mailbox
  serves : Tab Nat
  spare : Option Nat
  absent : List Nat
  rxQueue : List (Nat × RxEntry)
  effects : List (Token × Status × Nat × List Nat)
  deriving DecidableEq, Repr

/-- The mailboxes after a fundamental reset (R435): physical core 4 is the spare. -/
def MbxState.reset : MbxState :=
  { fwReady := false, opens := 0, fns := .none, serves := .none, spare := some 4, absent := [],
    rxQueue := [], effects := [] }

/-! ### Tenancy and secrecy (16) -/

/-- One assignable unit of Table 16-2: its tenancy, or none, and its assignment epoch, 0 while it is
unassigned or being scrubbed (R384). -/
structure ResUnit where
  tenancy : Option Nat
  epoch : Nat
  scrubbing : Bool
  deriving DecidableEq, Repr

/-- A unit after reset (R405). -/
def ResUnit.reset : ResUnit := { tenancy := none, epoch := 0, scrubbing := false }

/-- A port tenancy map (R378); `vids` lists the mapped VIDs, the rest are 0xFF. -/
structure PortMap where
  mode : Nat
  tenancy : Nat
  vids : Tab Nat
  epoch : Nat
  deriving DecidableEq, Repr

/-- A port tenancy map after reset (R405). -/
def PortMap.reset : PortMap := { mode := 0, tenancy := 0xFF, vids := .none, epoch := 0 }

/-- A reassignment in progress (R389), or the scrub that a TENANT_ENROL asks for (R397): the units that move and
those that keep their tenancy, the old holder of every unit that has one, the epoch it has taken already,
and the step it stands at (1 its fence waits for a commit, 2 scrub commits, 3 drain, 4 scrub, 5 epoch). `first`
and `mask` are the record's fields, `waitSlots` the slots whose retirement it waits for. -/
structure Reassign where
  id : Nat
  kind : Nat
  moving : List Nat
  kept : List Nat
  newTenancy : Option Nat
  holders : List (Nat × Nat)
  paired : Bool
  value : Option Nat
  enrol : Option Nat
  step : Nat
  waitSlots : List Nat
  fence : Nat
  token : Option Token
  deriving DecidableEq, Repr

/-- What a message still does when what it waits for has come: its turn of the assignment counter (R385), or
the data of its DMA read (R442). -/
inductive Deferred where
  | learnQuota (r : LearnQuotaRec)
  | pool (r : PoolRec)
  | recStore (r : RecStoreRec)
  | portTenancy (r : PortTenancyRec)
  | enrol (r : TenantEnrolRec)
  | ucodeLoad (r : UcodeLoadRec) (img : UcodeImage)
  | fwStore (r : FwStoreRec)
  | bulkSegment (r : BulkSegmentRec)
  | bootLoad (img : FwImage)
  deriving DecidableEq, Repr

/-- An assignment transaction that waits for its turn of the assignment counter (R385). -/
structure WaitingTurn where
  token : Token
  cmd : Deferred
  deriving DecidableEq, Repr

/-- Tenancy and the Clasp. `pendingLoss` lists, per direction, the ports whose holder changes at the
next frame boundary (R382), with the tenancies that lost the port. `journalKeys` are the tenancies with
a journal key; `draws` the messages that wait for a random draw (R395). -/
structure TenState where
  ports : Tab PortMap
  units : Tab ResUnit
  counter : Nat
  issuedAt : List Nat
  turns : List WaitingTurn
  moves : List Reassign
  moveSeq : Nat
  lossRx : Tab (List Nat)
  lossTx : Tab (List Nat)
  rollback : Nat
  lifecycle : Nat
  rollbackTarget : Option (Nat × Token × Nat)
  rngOk : Bool
  draws : List (Token × Nat)
  ownerKey : Option Nat
  tenantKeys : Tab Nat
  debugNonce : Option (Nat × Nat)
  debugUnlocked : Bool
  contextKey : Option Nat
  journalKeys : Tab Nat
  enrols : List (Token × TenantEnrolRec)
  deriving DecidableEq, Repr

/-- Tenancy after a fundamental reset (R405). -/
def TenState.reset : TenState :=
  { ports := .none, units := .none, counter := 1, issuedAt := [], turns := [], moves := [],
    moveSeq := 0, lossRx := .none, lossTx := .none, rollback := 0, lifecycle := 0,
    rollbackTarget := none, rngOk := true, draws := [], ownerKey := none, tenantKeys := .none,
    debugNonce := none, debugUnlocked := false, contextKey := none, journalKeys := .none,
    enrols := [] }

/-! ### Host endpoint (18) -/

/-- What a DMA read fetches: the request ring up to an index, or the data of a message. -/
inductive DmaUse where
  | ringFetch (upTo : Nat)
  | message (tok : Token) (cmd : Deferred)
  deriving DecidableEq, Repr

/-- An outstanding DMA read (R442, R445), with the timeout in cycles of its function when it was issued. `arrived`
holds an early completion's status. -/
structure DmaRead where
  tag : Nat
  fn : Nat
  unit : Nat
  issued : Nat
  timeout : Nat
  use : DmaUse
  arrived : Option DmaStatus
  discard : Bool
  deriving DecidableEq, Repr

/-- One function of the endpoint: Command register, D-state, Completion Timeout Value, SYS_FN_STATUS,
teardown, AER log bits, interrupt status block and MSI-X table. -/
structure EndFn where
  busMaster : Bool
  d3hot : Bool
  ctoValue : Nat
  teardown : Bool
  crs : Bool
  lostCause : Nat
  aerTimeout : Bool
  aerUnexpected : Bool
  irqStatus : Nat
  miscVector : Nat
  miscEnable : Bool
  irqMask : Nat
  msixMasked : List Nat
  msixPending : List Nat
  refetchAt : Option Nat
  deriving DecidableEq, Repr

/-- A function of the endpoint after reset; every MSI-X vector is masked, as PCI Express has it (PRESUMED). -/
def EndFn.reset : EndFn :=
  { busMaster := false, d3hot := false, ctoValue := 0, teardown := false, crs := false,
    lostCause := 0, aerTimeout := false, aerUnexpected := false, irqStatus := 0, miscVector := 0,
    miscEnable := false, irqMask := 0, msixMasked := List.range 64, msixPending := [], refetchAt := none }

/-- How the endpoint answered the latest configuration request: normally or with Configuration Request Retry Status
(R451, R455). -/
inductive ConfigAnswer where
  | none
  | normal
  | retry
  deriving DecidableEq, Repr

/-- The endpoint. `configOpen` says that PF0 and PF1 answer configuration requests without CRS (R455, R476, R479),
`answer` how the latest one was answered. `beatFrom` is the cycle Quesin firmware started (SYS_FW_BEAT). `quarantine` lists the tags in
quarantine with their function and end cycle; `msiSent` the MSI-X writes sent, `dataOut` the output
data that the bulk cipher has written to host memory (function, address, bytes), newest first. -/
structure HostState where
  linkUp : Bool
  speed : Nat
  width : Nat
  vfEnable : Bool
  numVfs : Nat
  fns : Tab EndFn
  reads : List DmaRead
  waitingReads : List DmaRead
  quarantine : List (Nat × Nat × Nat)
  beatFrom : Option Nat
  subsystemId : Nat
  configOpen : Bool
  answer : ConfigAnswer
  msiSent : List (Nat × Nat)
  dataOut : List (Nat × Nat × List Nat)
  deriving DecidableEq, Repr

/-- The endpoint after a fundamental reset (R457). -/
def HostState.reset : HostState :=
  { linkUp := false, speed := 0, width := 0, vfEnable := false, numVfs := 0, fns := .none,
    reads := [], waitingReads := [], quarantine := [], beatFrom := none,
    subsystemId := 0, configOpen := false, answer := .none, msiSent := [], dataOut := [] }

/-! ### Start-up and service (20) -/

/-- The service states of Table 20-7. A unit in service or spare is `inService`: which of the two follows from
what it serves (R484). -/
inductive SvcState where
  | inService
  | outOfService
  | testing
  | failed
  deriving DecidableEq, Repr

/-- A serviced unit: its state and last test result (0 none, 1 passed, 2 failed). -/
structure SvcUnit where
  state : SvcState
  lastTest : Nat
  deriving DecidableEq, Repr

/-- A service operation in progress on a unit (R485, R486, R489): kind, unit, op (1 out of service,
2 return, 3 test), its deadline cycle and its message. -/
structure SvcOp where
  kind : Nat
  unit : Nat
  op : Nat
  deadline : Nat
  before : SvcState
  token : Option Token
  deriving DecidableEq, Repr

/-- A boot directory copy (Table 20-4); `valid` says that magic, crc and active are correct. -/
structure BootDir where
  valid : Bool
  sequence : Nat
  active : Nat
  digestA : Nat
  digestB : Nat
  deriving DecidableEq, Repr

/-- An erased boot directory copy. -/
def BootDir.erased : BootDir := { valid := false, sequence := 0, active := 0, digestA := 0, digestB := 0 }

/-- A FW_STORE in progress (R493): its flash area, its image, and the content of a customer image. -/
structure FwStoring where
  target : Nat
  area : Nat
  image : FwImage
  ucode : Option UcodeImage
  deriving DecidableEq, Repr

/-- A FW_SWITCH in progress (R494): the image and its area, whether the cores have stopped for step 4, and the cycle
of step 4. -/
structure FwSwitching where
  token : Token
  image : FwImage
  area : Nat
  stopped : Bool
  at4 : Nat
  deriving DecidableEq, Repr

/-- A PATCH_ROLL in progress (R492): the patch set and the Sleeves still to patch, in order. -/
structure PatchRolling where
  digest : Nat
  left : List Nat
  deriving DecidableEq, Repr

/-- The steps of the ejection sequence (R496): none, requested, held by SVC_EJECT op 2, step 1 done
(waiting for flash), ready. -/
inductive EjectStep where
  | idle
  | requested
  | held
  | proceeding
  | ready
  deriving DecidableEq, Repr

/-- Start-up, firmware and ejection. `stage` is SYS_STATE.stage and `ready` says that SYS_READY has been raised; `bank`
is the code bank that runs, `running` the running image and `runningArea` its flash area; `fallback` the area started
and the other's result when ROM fell back (R478); `romCause`, `romResultA` and `romResultB` are the fields of Table
20-5. `units` lists the serviced units that are out of service, under test or failed, or that have been tested (Sleeve
`s` at `s`, core `p` at 16 + `p`, bank `b` of Sleeve `s` at 32 + 16`s` + `b`); `ops` the service operations in
progress; `patches` the vendor patch set of each Sleeve. `ejectReqLow` is the pin EJECT_REQ_N, `ejectGo` that an
ejection may proceed, `ejectAt` the cycle of the request and then of step 1, `ejectRdyLow` the pin EJECT_RDY_N. -/
structure BootState where
  stage : Nat
  ready : Bool
  bank : Nat
  running : Option FwImage
  runningArea : Option Nat
  fallback : Option (Nat × Nat)
  romCause : Nat
  romResultA : Nat
  romResultB : Nat
  units : Tab SvcUnit
  ops : List SvcOp
  storing : Option FwStoring
  switching : Option FwSwitching
  rolling : Option PatchRolling
  patches : Tab Nat
  ejectReqLow : Bool
  ejectMode : Nat
  ejectGrace : Nat
  eject : EjectStep
  ejectGo : Bool
  ejectAt : Nat
  ejectRdyLow : Bool
  deriving DecidableEq, Repr

/-- Start-up after a fundamental reset (R500). -/
def BootState.reset : BootState :=
  { stage := 0, ready := false, bank := 0, running := none, runningArea := none, fallback := none,
    romCause := 0, romResultA := 0, romResultB := 0, units := .none, ops := [], storing := none,
    switching := none, rolling := none, patches := .none, ejectReqLow := false, ejectMode := 0,
    ejectGrace := 5000, eject := .idle, ejectGo := false, ejectAt := 0, ejectRdyLow := false }

/-! ### Slots and Sleeves (01) -/

/-- The slot settings of a Sleeve (Table 1-5). -/
structure Shares where
  oversubscribe : Bool
  recirc : Nat
  inject : Nat
  housekeeping : Nat
  replay : Nat
  updateGap : Nat
  deriving DecidableEq, Repr

/-- Table 1-5's defaults (R43). -/
def Shares.reset : Shares :=
  { oversubscribe := false, recirc := 32, inject := 16, housekeeping := 4, replay := 1024,
    updateGap := 256 }

/-- Work that waits for a housekeeping slot of a Sleeve: a meter refresh (R261), a Collar write of a
customer-memory word (08 Records), a step of a routine context of a stage
engine (R215), or the rewrite of a flow entry that an ECC error lost (05). -/
inductive HkWork where
  | meterRefresh (ctx : Nat)
  | custWrite (stage addr : Nat) (value : BitVec 64)
  | routine (stage ctx : Nat)
  | flowRewrite (index : Nat)
  deriving DecidableEq, Repr

/-- Work that waits for an update bubble (R159): a TCAM entry written or cleared, the repair of a
suspect entry, the scrub read of a row, a diagnostic search, or the row-mask copy of a bank. -/
inductive Bubble where
  | write (index : Nat)
  | repair (index : Nat)
  | scrub (index : Nat) (differs : Bool)
  | diagnostic (tok : Token) (tenancy : Nat) (r : TcamIterateRec)
  | rowMask (bank : Nat)
  deriving DecidableEq, Repr

/-- A place of the recirculation queue: its packet, and from which cycle its pass may be granted
(none: the packet has not reached the queue). -/
structure RecircPlace where
  fid : Nat
  readyAt : Option Nat
  deriving DecidableEq, Repr

/-- A Sleeve's slot arbiter and queues. `enabledAt` is the cycle of its enable, `credit` are the share credits of recirculation, injection,
housekeeping and replay at the cycle `creditAt`, `owed` the packet whose second slot is due in the next
cycle with the holder it counts for (0 a Cuff, 1 recirculation, 2 injection, 3 replay), the three pointers
where the rotations of steps 2, 4 and 5 of R25 start. -/
structure SleeveState where
  enabled : Bool
  enabledAt : Nat
  shares : Shares
  credit : List Nat
  creditAt : Nat
  lastGrant : Option Nat
  owed : Option (Nat × Nat)
  lastBubble : Option Nat
  urgentPtr : Nat
  otherPtr : Nat
  beyondPtr : Nat
  recirc : List RecircPlace
  injects : List InjectRec
  hk : List HkWork
  updates : List Bubble
  urgentWait : Nat
  issued : Nat
  deriving DecidableEq, Repr

/-- A Sleeve after reset (R43). -/
def SleeveState.reset : SleeveState :=
  { enabled := false, enabledAt := 0, shares := .reset, credit := [0, 0, 0, 0], creditAt := 0, lastGrant := none,
    owed := none, lastBubble := none, urgentPtr := 0, otherPtr := 0, beyondPtr := 0, recirc := [],
    injects := [], hk := [], updates := [], urgentWait := 0, issued := 0 }

/-- The Sleeves. -/
structure ArchState where
  sleeves : Tab SleeveState
  deriving DecidableEq, Repr

/-- The Sleeves after a fundamental reset (R43). -/
def ArchState.reset : ArchState := { sleeves := .none }

/-! ### Cuffs, ports and frames (03, 04, 09) -/

/-- The link states of Table 3-6. -/
inductive LinkState where
  | disabled
  | an
  | train
  | align
  | lockedWait
  | up
  deriving DecidableEq, Repr

/-- A port. `cfg` is the accepted PORT_CONFIG_SET, `rxCfg` and `txCfg` what is in force in each
direction (R87); `locks` of a lane stand in `PortState.lanes`. -/
structure Port where
  cfg : PortConfigRec
  rxCfg : PortConfigRec
  txCfg : PortConfigRec
  link : LinkState
  since : Nat
  changed : Stamp
  lossSince : Option Nat
  remoteFault : Bool
  anResult : Option (Nat × Nat)
  downAt : Nat
  flushing : Bool
  rxFrame : Option Nat
  txFrame : Option Nat
  txEnds : Nat
  txDone : Nat
  deriving DecidableEq, Repr

/-- Table 3-8's defaults for port `p`, with mode 0 (R90). -/
def portCfgReset (p : Nat) : PortConfigRec :=
  { port := p, mode := 0, fec := 0, flags := 0, maxFrame := 1518, sliceLen := 128, urgentPcp := 0,
    urgentUntagged := 0, linkHold := 10, downHold := 0, upHold := 0 }

/-- Port `p` after a fundamental reset (R90). -/
def Port.reset (p : Nat) : Port :=
  { cfg := portCfgReset p, rxCfg := portCfgReset p, txCfg := portCfgReset p, link := .disabled,
    since := 0, changed := .zero, lossSince := none, remoteFault := false, anResult := none,
    downAt := 0, flushing := false, rxFrame := none, txFrame := none, txEnds := 0, txDone := 0 }

/-- The locks a lane holds (R78), and the cycles of its latest uncorrectable codewords. -/
structure Lane where
  signal : Bool
  cdr : Bool
  pcs : Bool
  fec : Bool
  uncorrectable : List Nat
  deriving DecidableEq, Repr

/-- A lane without lock. -/
def Lane.reset : Lane :=
  { signal := false, cdr := false, pcs := false, fec := false, uncorrectable := [] }

/-- A move of a Cuff in progress (R83). -/
structure CuffMove where
  target : Nat
  started : Nat
  timeoutUs : Nat
  token : Token
  deriving DecidableEq, Repr

/-- A Cuff: the Sleeve it is attached to, the frames whose slices wait for slots in arrival order
(R19), and a move in progress. -/
structure Cuff where
  sleeve : Nat
  slices : List Nat
  move : Option CuffMove
  deriving DecidableEq, Repr

/-- Cuff `c` after reset: the standard map of R32. -/
def Cuff.reset (c : Nat) : Cuff := { sleeve := c / 4, slices := [], move := none }

/-- The states of an SA key slot (Table 13-2). -/
inductive SaState where
  | empty
  | active
  | retiring
  | retired
  deriving DecidableEq, Repr

/-- An SA key slot (Table 13-2); `pn` counts on past the last packet number. -/
structure SaKey where
  state : SaState
  key : Nat
  salt : Nat
  ssci : Nat
  pn : Nat
  sc : Nat
  an : Nat
  transmit : Bool
  suite : Nat
  raised : Bool
  deriving DecidableEq, Repr

/-- An empty slot. -/
def SaKey.empty : SaKey :=
  { state := .empty, key := 0, salt := 0, ssci := 0, pn := 0, sc := 0, an := 0, transmit := false,
    suite := 0, raised := false }

/-- Where a frame comes from: a Cuff, the Collar (R24), or a record of the Lining (R369). -/
inductive Origin where
  | cuff
  | inject (i : InjectRec)
  | replay (record : Nat)
  deriving DecidableEq, Repr

/-- The stages a packet passes, one per row of the data path; `slot` waits for a slot. -/
inductive Phase where
  | slot
  | parse
  | pattern
  | fragment
  | keyBuild
  | flow
  | learn
  | tcam
  | meter
  | colour
  | action
  | forward
  | ttl
  | rewrite
  | release
  | enqueue
  | handoff
  | recirc
  | yoke
  | done
  deriving DecidableEq, Repr

/-- A learn request (R135). -/
structure LearnReq where
  tenancy : Nat
  bd : Nat
  mac : Nat
  port : Nat
  deriving DecidableEq, Repr

/-- The key of the fragment table (R105), as the 40 bytes that are hashed. -/
abbrev FragKey := List Nat

/-- What parsing leaves for stage 4 and the Yoke beside the context: the fragmented layer (R104), whether
the packet is a trapped PTP event (R51), and where the first inner Ethernet header starts (0: none). -/
structure ParseNote where
  fragKey : Option FragKey
  later : Bool
  fragBad : Bool
  ptpTrap : Bool
  innerEth : Nat
  deriving DecidableEq, Repr

/-- No note. -/
def ParseNote.none : ParseNote :=
  { fragKey := Option.none, later := false, fragBad := false, ptpTrap := false, innerEth := 0 }

/-- Release data of a descriptor (R295): times in 2^-16 ns. -/
structure RelData where
  state : Nat
  profile : Nat
  openAt : Int
  latest : Int
  lateFwd : Bool
  errFwd : Bool
  queue : Nat
  deriving DecidableEq, Repr

/-- A Seam-path claim: made by stage 18, granted by the queue manager until its launch, or launched. -/
inductive Seam where
  | none
  | claimed
  | granted (launch txCycles : Nat)
  | launched
  deriving DecidableEq, Repr

/-- A copy or mirror that the Yoke has still to make (R188): to a Collar queue, to the host receive
ring of a tenancy, or for a mirror session; `len` bytes. -/
inductive CopyTarget where
  | collar (queue : Nat)
  | host (tenancy : Nat)
  | mirror (tenancy session : Nat)
  deriving DecidableEq, Repr

/-- A copy or mirror: its target, the tenancy whose limiter it takes, its length (0 whole), and whether
R188 leaves it whole in the owner's hands (a trapped PTP event). -/
structure CopyJob where
  target : CopyTarget
  tenancy : Nat
  len : Nat
  whole : Bool
  deriving DecidableEq, Repr

/-- A frame and the packet made of it. `bytes` are the received bytes without the frame check
sequence and `len` counts the four more; `start` is the cycle its first bit crossed the PCS boundary and
`sof` its start of frame at the receive MAC boundary; `ptp` and `maxFrame` are those in force at its
start; `deep` and `slice` are its slice's. `noMore` says that a Pocket was missing (R237), `offered` the
offer cycle of its slice, `rxDrop` why the Cuff dropped it (1 slot overflow, 2 unmapped, 3 no pool or
first Pocket, 4 MACsec, 5 MAC control, 6 bad before its slice was offered); `map` is the port tenancy map
in force at its first byte. A frame in the MACsec hold buffer is `macsecHeld`: `wireEnd` is the cycle of the last
byte of its FCS, `rxMac`, `rxSc` and `sa` the settings, SC and key slot that its SecTAG met. `ctx`, `side` and `desc` are the packet context, the sidecar and
the action descriptor (R98, R203, R184); `first` the bytes, length, profile and slice of pass 0 once
a pass has been made, `stored` the decision of a fragment entry that stage 4 applied, `fragWaits` from which cycle
the pass of R109 may reach stage 4, `members`
the ports that a flood goes to, `cont` a continuation request (R214). -/
structure Frame where
  origin : Origin
  port : Nat
  sleeve : Nat
  bytes : List Nat
  len : Nat
  start : Nat
  sof : Nat
  stamp : Stamp
  ptp : PtpPort
  maxFrame : Nat
  deep : Bool
  slice : Nat
  tenancy : Option Nat
  pool : Nat
  pockets : List Nat
  refs : Nat
  noMore : Bool
  ended : Bool
  bad : Bool
  truncated : Bool
  map : PortMap
  macsecHeld : Bool
  wireEnd : Option Nat
  verified : Bool
  rxMac : MacsecPortRec
  rxSc : Option Nat
  sa : Option (Nat × SaKey)
  macsecSaved : Nat
  offered : Option Nat
  rxDrop : Nat
  urgent : Bool
  phase : Phase
  pass : Nat
  ctx : BitVec 512
  side : BitVec 192
  desc : BitVec 256
  note : ParseNote
  first : Option (List Nat × Nat × Bool × Nat)
  fragIndex : Option Nat
  stored : Nat
  fragWaits : Option Nat
  members : List Nat
  appliedRec : Bool
  rel : Option RelData
  learn : Option LearnReq
  cont : Bool
  place : Bool
  seam : Seam
  copies : List CopyJob
  flowKey : Option (Nat × List Nat)
  meterCtx : Option Nat
  seq : Nat
  deriving DecidableEq, Repr

/-- A frame that enters a queue: since when, its Pockets, whether it is spilled (0 in Pockets, 1
marked for spill, 2 in DRAM, 3 lost), late, truncated (0 whole), whether it is a mirror, and its length after
rewrite with frame check sequence. -/
structure QEntry where
  fid : Nat
  since : Nat
  pockets : Nat
  spill : Nat
  units : List Nat
  late : Bool
  trunc : Nat
  isMirror : Bool
  len : Nat
  deriving DecidableEq, Repr

/-- Ports, lanes, Cuffs and the frames between reception and the end of their last reference. -/
structure PortState where
  ports : Tab Port
  lanes : Tab Lane
  cuffs : Tab Cuff
  frames : Tab Frame
  nextFid : Nat
  deriving DecidableEq, Repr

/-- Ports after a fundamental reset (R90). The model numbers the frames that no Cuff receives from
2^32 on. -/
def PortState.reset : PortState :=
  { ports := .none, lanes := .none, cuffs := .none, frames := .none, nextFid := 2 ^ 32 }

/-! ### Parsing, patterns and fragments (04) -/

/-- A port's parsing after reset (Table 4-9, R118). -/
def parsePortReset (p : Nat) : ParsePortRec :=
  { port := p, flags := 0, stdLayers := 6, deepLayers := 16, deepBytes := 512, windowMax := 256,
    ecpriUdpPort := 0, malformedAction := 0, orphanAction := 0 }

/-- A pattern (R99) with its live mask. -/
structure Pattern where
  data : PatternRec
  live : Nat
  deriving DecidableEq, Repr

/-- A fragment-table entry that is not FREE (Table 4-7): `decided` holds the decision vector and flow
context once the entry is DECIDED. -/
structure FragEntry where
  key : FragKey
  created : Nat
  decided : Option (Nat × Nat)
  version : Nat
  deriving DecidableEq, Repr

/-- Patterns and, per Sleeve (key `sleeve`·4,096 + entry), the fragment tables. `sweepSet` and
`sweepFrom` are the housekeeping sweep's next set and the cycle its pass started; `full` lists the
tenancies (`sleeve`·16 + tenancy) whose quota refused an entry since they last had room. -/
structure ParseState where
  ports : Tab ParsePortRec
  patterns : Tab Pattern
  frags : Tab FragEntry
  timeoutUs : Tab Nat
  quota : Tab (List Nat)
  sweepSet : Tab Nat
  sweepFrom : Tab Nat
  full : List Nat
  writeBacks : List (Nat × Nat × Nat × Nat)
  deriving DecidableEq, Repr

/-- Parsing after a fundamental reset (R118). -/
def ParseState.reset : ParseState :=
  { ports := .none, patterns := .none, frags := .none, timeoutUs := .none, quota := .none,
    sweepSet := .none, sweepFrom := .none, full := [], writeBacks := [] }

/-! ### Flow and learning tables (05) -/

/-- A flow-table entry (Table 5-2); `serial` is the count of device commits that made it live
(R130), `live` its mask. An entry with a zero mask is free. -/
structure FlowEntry where
  key : Nat
  tenancy : Nat
  profile : Nat
  live : Nat
  actionRef : Nat
  flowContext : Nat
  metaVal : Nat
  idle : Bool
  insertEpoch : Nat
  serial : Nat
  deriving DecidableEq, Repr

/-- A learning-table entry that is valid (Table 5-4). -/
structure LearnEntry where
  mac : Nat
  bd : Nat
  tenancy : Nat
  isStatic : Bool
  port : Nat
  age : Nat
  hit : Bool
  deriving DecidableEq, Repr

/-- A tenancy's policies after reset (Table 5-7). -/
def learnPolicyReset : LearnPolicyRec :=
  { ageingS := 300, flowIdleS := 60, eviction := 0, flags := 3, flowEviction := 0 }

/-- A port's learning settings after reset (Table 5-8). -/
def learnPortReset (p : Nat) : LearnPortRec := { port := p, flags := 1, defaultBd := 1 }

/-- A Sleeve's learn engine, scanner and eviction generator; `shortest` is the shortest ageing time (s)
of the scanner's sweep in progress. -/
structure LearnSleeve where
  queue : List LearnReq
  statics : List Nat
  lastTurn : Option Nat
  scanSlot : Nat
  scanFrom : Nat
  sweeps : Nat
  shortest : Nat
  seed : Nat
  seedEpoch : Nat
  seedAt : Nat
  tableFull : Bool
  deriving DecidableEq, Repr

/-- A Sleeve's learning after reset. -/
def LearnSleeve.reset : LearnSleeve :=
  { queue := [], statics := [], lastTurn := none, scanSlot := 0, scanFrom := 0, sweeps := 0, shortest := 300,
    seed := 0, seedEpoch := 0, seedAt := 0, tableFull := false }

/-- A static write in progress (R148): its record, its message, the Sleeves that have applied it and
what each held under the key before. -/
structure StaticWrite where
  id : Nat
  token : Token
  tenancy : Nat
  data : LearnStaticRec
  done : List (Nat × Nat)
  deriving DecidableEq, Repr

/-- The tables of stages 5 to 7. Flow entries stand once for the seven Sleeves, whose hit bits
(`sleeve`·2^19 + entry) and entries lost to an ECC error differ; learning entries stand per Sleeve
(`sleeve`·2^19 + entry, the stash from 262,144 on). Profiles are keyed by tenancy·4 + profile. -/
structure TableState where
  flow : Tab FlowEntry
  flowHits : List Nat
  flowBad : List Nat
  serial : Nat
  profiles : Tab ProfileRec
  idleAt : Tab Nat
  learn : Tab LearnEntry
  engines : Tab LearnSleeve
  salt : Nat
  policies : Tab LearnPolicyRec
  quotas : Tab Nat
  quotaEpochs : Tab Nat
  quotaFull : List Nat
  ports : Tab LearnPortRec
  reseedS : Nat
  statics : List StaticWrite
  nextStatic : Nat
  deriving DecidableEq, Repr

/-- The tables after a fundamental reset (R150); the learn salt is drawn when firmware starts. -/
def TableState.reset : TableState :=
  { flow := .none, flowHits := [], flowBad := [], serial := 0, profiles := .none, idleAt := .none,
    learn := .none, engines := .none, salt := 0, policies := .none, quotas := .none,
    quotaEpochs := .none, quotaFull := [], ports := .none, reseedS := 60, statics := [],
    nextStatic := 0 }

/-! ### Ternary search (06) -/

/-- A TCAM entry record (Table 6-2): what was written, its owner, width and live mask. -/
structure TcamEntry where
  data : TcamWriteRec
  tenancy : Nat
  paired : Bool
  live : Nat
  deriving DecidableEq, Repr

/-- A Sleeve's search throttle: band, the settings that wait for the next window, the window and its counts, the scrub and the thresholds (°C). -/
structure TcamSleeve where
  band : Nat
  nextBand : Nat
  bandAt : Nat
  reserve : Nat
  nextReserve : Nat
  window : Nat
  searches : Nat
  plain : Nat
  scrubMs : Nat
  nextScrubMs : Nat
  scrubAt : Option Nat
  threshold1 : Int
  threshold2 : Int
  deriving DecidableEq, Repr

/-- A Sleeve's throttle after reset (R170). -/
def TcamSleeve.reset : TcamSleeve :=
  { band := 0, nextBand := 0, bandAt := 0, reserve := 8, nextReserve := 8, window := 0, searches := 0, plain := 0,
    scrubMs := 1000, nextScrubMs := 1000, scrubAt := none, threshold1 := 95, threshold2 := 105 }

/-- The TCAM. Entries stand once for the seven Sleeves; `suspects` (`sleeve`·32,768 + index) and the
last bubble of each bank (`sleeve`·16 + bank) differ. `paired` lists the bank pairs of paired width,
profiles are keyed by tenancy·4 + profile. -/
structure TcamState where
  entries : Tab TcamEntry
  suspects : List Nat
  paired : List Nat
  profiles : Tab ProfileRec
  sleeves : Tab TcamSleeve
  bankAt : Tab Nat
  deriving DecidableEq, Repr

/-- The TCAM after a fundamental reset (R170). -/
def TcamState.reset : TcamState :=
  { entries := .none, suspects := [], paired := [], profiles := .none, sleeves := .none,
    bankAt := .none }

/-! ### Rule versions and actions (07) -/

/-- Version slot states (Table 7-2). -/
inductive SlotState where
  | free
  | preparing
  | prepared
  | current
  | draining
  deriving DecidableEq, Repr

/-- A version slot: its state and epoch. -/
structure VersionSlot where
  state : SlotState
  epoch : Nat
  deriving DecidableEq, Repr

/-- An action record in use: its fields and live mask. -/
structure Action where
  data : ActionRec
  live : Nat
  deriving DecidableEq, Repr

/-- The kinds of object that a commit changes (Table 7-1), with what it adds and what it removes, so
that the journal can be followed in either direction (R182). -/
inductive Change where
  | flowAdd (index : Nat) (e : FlowEntry) (moves : List (Nat × Nat)) (victim : Option Nat)
  | flowDel (index : Nat) (e : FlowEntry)
  | flowProfile (key : Nat) (r : ProfileRec) (old : Option ProfileRec)
  | tcamAdd (index : Nat) (r : TcamWriteRec)
  | tcamDel (index : Nat) (e : TcamEntry)
  | tcamProfile (key : Nat) (r : ProfileRec) (old : Option ProfileRec)
  | patternAdd (index : Nat) (r : PatternRec)
  | patternDel (index : Nat) (r : PatternRec)
  | actionAdd (index : Nat) (r : ActionRec)
  | actionDel (index : Nat) (r : ActionRec)
  | bindAdd (index : Nat) (r : MeterBindRec)
  | bindDel (index : Nat) (r : MeterBindRec)
  | relAdd (index : Nat) (r : RelProfileRec)
  | relDel (index : Nat) (r : RelProfileRec)
  deriving DecidableEq, Repr

/-- A staged change: the tenancy that staged it, the units whose epochs it depends on (kind, unit,
epoch when staged), and the journal entries it counts. -/
structure Staged where
  tenancy : Nat
  change : Change
  units : List (Nat × Nat × Nat)
  entries : Nat
  deriving DecidableEq, Repr

/-- An accepted TBL_COMMIT (R179), or a scrub commit of R389 without message and deadline: the changes it
took, the step it stands at (2 waits for a slot, 3 for its journal record, 4 for its commit cycle), and for a
scrub commit its reassignment. -/
structure Commit where
  id : Nat
  token : Option Token
  tenancy : Nat
  changes : List Staged
  step : Nat
  deadline : Option Nat
  scrub : Option Nat
  deriving DecidableEq, Repr

/-- A commit-journal record (Table 7-3); the change entries stand as the changes themselves. -/
structure JournalRec where
  epoch : Nat
  slot : Nat
  tenancy : Nat
  time : Stamp
  gap : Bool
  changes : List Change
  deriving DecidableEq, Repr

/-- A tenancy's action settings after reset (R197). -/
def actTenancyReset : ActTenancyRec := { precedence := 0, flags := 0, missRef := 0, pcpMap := 0 }

/-- A tenancy's copy limits after reset (Table 7-9). -/
def copyLimitReset (t : Nat) : CopyLimitRec :=
  { tenancy := t, sessions := 0, burst := 64, ratePps := 1000, mirrorMaxMbps := 0 }

/-- A token bucket that counts whole cycles: its level and the cycle of that level. -/
structure Tokens where
  level : Nat
  at' : Nat
  deriving DecidableEq, Repr

/-- A mirror session (Table 7-9) and its limiter. -/
structure Mirror where
  data : MirrorSessionRec
  tokens : Tokens
  deriving DecidableEq, Repr

/-- Versions, commits, the journal, action records and their tenancies' settings. `inflight` is keyed
by slot·8 + Sleeve, flood groups by their absolute number, mirror sessions by tenancy·16 + session,
templates by absolute number (length and bytes). -/
structure VersState where
  slots : Tab VersionSlot
  inflight : Tab Nat
  staged : List Staged
  commits : List Commit
  nextCommit : Nat
  journal : List JournalRec
  actions : Tab Action
  tenancies : Tab ActTenancyRec
  groups : Tab FloodGroupRec
  mirrors : Tab Mirror
  limits : Tab CopyLimitRec
  copyTokens : Tab Tokens
  templates : Tab TemplateRec
  deriving DecidableEq, Repr

/-- Versions after a fundamental reset (R197): slot 0 is CURRENT with epoch 0, the others FREE. -/
def VersState.reset : VersState :=
  { slots := ⟨[(0, { state := .current, epoch := 0 })]⟩, inflight := .none, 
    staged := [], commits := [], nextCommit := 0, journal := [], actions := .none,
    tenancies := .none, groups := .none, mirrors := .none, limits := .none, copyTokens := .none,
    templates := .none }

/-- A version slot that is not listed. -/
def VersionSlot.reset : VersionSlot := { state := .free, epoch := 0 }

/-! ### Stage engines (08) -/

/-- A routine context of a stage engine (R215): its registers, its next word, the commit snapshot and
whether it runs. -/
structure Routine where
  running : Bool
  regs : List (BitVec 64)
  pc : Nat
  snapRegs : List (BitVec 64)
  snapPc : Nat
  deriving DecidableEq, Repr

/-- A routine context after reset. -/
def Routine.reset : Routine :=
  { running := false, regs := [], pc := 0, snapRegs := [], snapPc := 0 }

/-- A pending write of an overlay (R216): which context wrote it, the customer-memory address and
value, and whether a commit point has made it visible. -/
structure OverlayEntry where
  ctx : Nat
  addr : Nat
  value : BitVec 64
  committed : Bool
  deriving DecidableEq, Repr

/-- A stage engine of one Sleeve (key `sleeve`·32 + stage): routine contexts 0 to 3, the interrupt
context 4, the pending interrupt's routine word, the interrupted context, the overlay, and the words
marked bad. -/
structure StageEngine where
  routines : Tab Routine
  interrupt : Option Nat
  interrupted : Option Nat
  overlay : List OverlayEntry
  bad : List Nat
  scrubAt : Nat
  deriving DecidableEq, Repr

/-- A stage engine after reset (R225). -/
def StageEngine.reset : StageEngine :=
  { routines := .none, interrupt := none, interrupted := none, overlay := [], bad := [],
    scrubAt := 0 }

/-- A customer image that is loaded: its digest, words and bindings, the residences of its bound
paths, and the tenancies that have accepted it. -/
structure LoadedImage where
  digest : Nat
  words : List (Nat × Nat × BitVec 256)
  bindings : List Binding
  residences : List Nat
  accepted : List Nat
  deriving DecidableEq, Repr

/-- A UCODE_ACTIVATE in progress (R221, R223): its message, the generation that drains, and its
deadline. -/
structure Activation where
  token : Option Token
  old : Nat
  deadline : Nat
  deriving DecidableEq, Repr

/-- The stage engines. Control stores are keyed by stage·4,096 + word and hold the same words in all
Sleeves but for those a PATCH_ROLL has not reached; hooks by generation, tenancy, stage and profile;
customer memory by ((`sleeve`·20 + stage)·4,096 + word). -/
structure MicroState where
  stores : Tab (BitVec 256)
  engines : Tab StageEngine
  images : List LoadedImage
  hooks : Tab Nat
  generation : Nat
  genDigest : Tab Nat
  activation : Option Activation
  loading : Bool
  custMem : Mem
  memOps : List (Token × List Nat × Nat)
  deriving DecidableEq, Repr

/-- The stage engines after a fundamental reset (R225). -/
def MicroState.reset : MicroState :=
  { stores := .none, engines := .none, images := [], hooks := .none, generation := 0,
    genDigest := .none, activation := none, loading := false, custMem := [], memOps := [] }

/-! ### The Yoke (09) -/

/-- A Pocket's metadata (Table 9-1) and the tenancy it last served. -/
structure Pocket where
  allocated : Bool
  pool : Nat
  unit : Nat
  refs : Nat
  next : Nat
  last : Bool
  fill : Nat
  served : Option Nat
  deriving DecidableEq, Repr

/-- A Pocket's metadata after reset. -/
def Pocket.reset : Pocket :=
  { allocated := false, pool := 0, unit := 0, refs := 0, next := 0, last := false, fill := 0,
    served := none }

/-- A pool: its tenancy, assignment epoch, size and free list (ranges of Pocket numbers, head first), the
Pockets in all that it holds now, its rotating pointer and the flags of its two events. -/
structure Pool where
  tenancy : Nat
  epoch : Nat
  size : Nat
  total : Nat
  free : List (Nat × Nat)
  pointer : Nat
  low : Bool
  failed : Bool
  deriving DecidableEq, Repr

/-- A pool after reset (R253). -/
def Pool.reset : Pool :=
  { tenancy := 0, epoch := 0, size := 0, total := 0, free := [], pointer := 0, low := false, failed := false }

/-- A pool that a cache serves: the Pockets it holds of it and the cycle of its last use. -/
structure Served where
  pool : Nat
  held : List Nat
  used : Nat
  deriving DecidableEq, Repr

/-- A queue's buffering after reset (Table 9-8, R253). -/
def queueBufReset (p q : Nat) : QueueBufRec :=
  { port := p, queue := q, flags := 0, limit := 4096, spillMark := 0, returnMark := 0, spillMax := 0 }

/-- The Yoke. Queues are keyed by port·16 + queue, caches by their unit code; `reserve` is the pool
reserve as ranges; `spill` the DRAM units in use with their channel; Collar queues 0 to 7 hold what copies
put there (the Lining queue is the offers of the captures). -/
structure YokeState where
  pockets : Tab Pocket
  pools : Tab Pool
  rxPool : Tab Nat
  inPool : Tab Nat
  reserve : List (Nat × Nat)
  caches : Tab (List Served)
  bufs : Tab QueueBufRec
  queues : Tab (List QEntry)
  queueMax : Tab Nat
  calendars : Tab (List (Nat × Nat))
  calEntries : Nat
  descUsed : Nat
  regionMib : Nat
  spillUnits : List Nat
  retryAt : Tab Nat
  collarQueues : Tab (List (Nat × RxEntry))
  quarantined : List Nat
  deriving DecidableEq, Repr

/-- The Yoke after a fundamental reset (R253): every Pocket in the reserve. -/
def YokeState.reset : YokeState :=
  { pockets := .none, pools := .none, rxPool := .none, inPool := .none, reserve := [(0, 524288)],
    caches := .none, bufs := .none, queues := .none, queueMax := .none,
    calendars := .none, calEntries := 0, descUsed := 0, regionMib := 0, spillUnits := [],
    retryAt := .none, collarQueues := .none, quarantined := [] }

/-! ### Policing (10) -/

/-- A meter binding in use (Table 10-2): its record, increments and live mask. -/
structure MeterBinding where
  data : MeterBindRec
  live : Nat
  deriving DecidableEq, Repr

/-- A meter state (Table 10-3). -/
structure MeterCell where
  c : Nat
  e : Nat
  last : Nat
  deriving DecidableEq, Repr

/-- A meter state after reset. -/
def MeterCell.reset : MeterCell := { c := 0, e := 0, last := 0 }

/-- A tenancy's policing settings after reset (R274). -/
def meterTenancyReset : MeterTenancyRec :=
  { flags := 0, untaggedColour := 0, nonipColour := 0, defaultCtx := 0, pcpDeiMap := 0, dscpMap := 0 }

/-- Policing: bindings by absolute context, states by `sleeve`·65,536 + context. -/
structure MeterState where
  bindings : Tab MeterBinding
  cells : Tab MeterCell
  tenancies : Tab MeterTenancyRec
  deriving DecidableEq, Repr

/-- Policing after a fundamental reset (R274). -/
def MeterState.reset : MeterState := { bindings := .none, cells := .none, tenancies := .none }

/-! ### Queues, scheduling and gates (11) -/

/-- A port's selection settings: strict count, quantum unit, queue-to-gate map, and the pointer P. -/
structure SchedPort where
  strict : Nat
  quantum : Nat
  gateMap : Nat
  pointer : Nat
  deriving DecidableEq, Repr

/-- The default queue-to-gate map: queue `q` to gate ⌊q/2⌋. -/
def gateMapReset : Nat := ((List.range 16).map fun q => (q / 2) * 8 ^ q).sum

/-- A port's selection settings after reset (R293). -/
def SchedPort.reset : SchedPort := { strict := 4, quantum := 256, gateMap := gateMapReset, pointer := 11 }

/-- A queue's settings, deficit and shaper (credit in 2^-32 byte, and the cycle of that credit). -/
structure SchedQueue where
  weight : Nat
  shaper : Bool
  rate : Nat
  burst : Nat
  sojournUs : Nat
  deficit : Nat
  credit : Int
  creditAt : Nat
  deriving DecidableEq, Repr

/-- A queue after reset (R293). -/
def SchedQueue.reset : SchedQueue :=
  { weight := 1, shaper := false, rate := 8000, burst := 9216, sojournUs := 100000, deficit := 0,
    credit := 9216 * 2 ^ 32, creditAt := 0 }

/-- A gate control list with its base time (ns), cycle time and extension, and the longest open run of each
gate in cycles (R285; none: no limit). -/
structure GateList where
  entries : List GateEntry
  baseNs : Nat
  cycleNs : Nat
  extNs : Nat
  longest : List (Option Nat)
  deriving DecidableEq, Repr

/-- A list that is zero. -/
def GateList.zero : GateList := { entries := [], baseNs := 0, cycleNs := 0, extNs := 0, longest := [] }

/-- A port's gates: enable, the gate states held without a list, the administrative entries and
parameters, the operational list with the entry it stands at, the cycle that entry started and the
network time (ns) of its next boundary, and the change time (ns) of a
pending change with the cycle of its acceptance. -/
structure GatePort where
  enabled : Bool
  adminStates : Nat
  adminEntries : Tab GateEntry
  admin : GateConfigRec
  oper : Option GateList
  entry : Nat
  entryAt : Nat
  nextNs : Nat
  change : Option Nat
  asked : Nat
  deriving DecidableEq, Repr

/-- GATE_CONFIG_SET's settings when nothing has set them. -/
def gateConfigZero (p : Nat) : GateConfigRec :=
  { port := p, flags := 0, adminGateStates := 255, entryCount := 0, baseSeconds := 0, baseNs := 0,
    cycleNs := 0, cycleExtNs := 0 }

/-- A port's gates after reset (R293). -/
def GatePort.reset : GatePort :=
  { enabled := false, adminStates := 255, adminEntries := .none, admin := gateConfigZero 0,
    oper := none, entry := 0, entryAt := 0, nextNs := 0, change := none, asked := 0 }

/-- A sample record (Table 11-4). -/
structure Sample where
  stamp : Stamp
  kind : Nat
  port : Nat
  queueMask : Nat
  entries : List Nat
  deriving DecidableEq, Repr

/-- A sampler of a port and tenancy (key tenancy·128 + port): its record and the cycle it started. -/
structure Sampler where
  data : SamplerRec
  since : Nat
  deriving DecidableEq, Repr

/-- A tenancy's sample ring: its size, its records oldest first, and the records lost since the last
overflow marker. -/
structure SampleRing where
  kib : Nat
  records : List Sample
  lost : Nat
  deriving DecidableEq, Repr

/-- A sample ring after reset. -/
def SampleRing.reset : SampleRing := { kib := 0, records := [], lost := 0 }

/-- A selection that stands, or the frame on the line: its queue, start cycle, transmission cycles and frame
(R277), and whether its gate has closed on it (R284). -/
structure Selection where
  queue : Nat
  start : Nat
  tx : Nat
  entry : QEntry
  overran : Bool
  deriving DecidableEq, Repr

/-- The schedulers. `selected` are each port's selections in order, `sending` the frames on the line, `guardAt` the last cycle that counted in
guard_idle_cycles. -/
structure QueueState where
  ports : Tab SchedPort
  queues : Tab SchedQueue
  gates : Tab GatePort
  selected : Tab (List Selection)
  sending : Tab Selection
  guardAt : Tab Nat
  samplers : Tab Sampler
  rings : Tab SampleRing
  quotas : Tab Nat
  maxSojourn : Tab Nat
  deriving DecidableEq, Repr

/-- The schedulers after a fundamental reset (R293). -/
def QueueState.reset : QueueState :=
  { ports := .none, queues := .none, gates := .none, selected := .none, sending := .none, guardAt := .none,
    samplers := .none, rings := .none, quotas := .none, maxSojourn := .none }

/-! ### Symbol-timed release (12) -/

/-- A release profile in use (Table 12-2). -/
structure RelProfile where
  data : RelProfileRec
  live : Nat
  deriving DecidableEq, Repr

/-- Release: profiles by absolute index, the tenancies with binding enabled, the ports' limits. -/
structure RelState where
  profiles : Tab RelProfile
  enabled : List Nat
  limits : Tab Nat
  deriving DecidableEq, Repr

/-- Release after a fundamental reset (R310). -/
def RelState.reset : RelState := { profiles := .none, enabled := [], limits := .none }

/-! ### MACsec and the bulk cipher (13) -/

/-- A port's MACsec settings after reset (R333). -/
def macsecPortReset (p : Nat) : MacsecPortRec :=
  { port := p, flags := 0, validate := 0, txSc := 0xFFFF, defaultRxSc := 0xFFFF }

/-- A secure channel: its record with absolute index, its tenancy, the key slot of each AN, and the
encoding AN with the one that waits for a frame boundary. -/
structure Sc where
  data : MacsecScRec
  tenancy : Nat
  ans : Tab Nat
  txAn : Nat
  nextAn : Option Nat
  deriving DecidableEq, Repr

/-- A KEY_LOAD that waits for its frame boundary or for the jobs of its slot (R321, R329); `load` is
none for a KEY_ERASE. Slots are absolute. -/
structure KeyOp where
  bulk : Bool
  slot : Nat
  sc : Nat
  load : Option KeyLoadRec
  token : Token
  deriving DecidableEq, Repr

/-- A bulk key slot: whether it is loaded, its key and suite, its key generation and the sequence of
its nonces (R326). -/
structure BulkKey where
  loaded : Bool
  key : Nat
  suite : Nat
  gen : Nat
  seq : Nat
  deriving DecidableEq, Repr

/-- A bulk key slot after reset. -/
def BulkKey.reset : BulkKey := { loaded := false, key := 0, suite := 0, gen := 0, seq := 0 }

/-- An open message (Table 13-5). Its block counter follows from its mode and data length. -/
structure BulkMsg where
  tenancy : Nat
  slot : Nat
  mode : Nat
  wrapped : Bool
  keyGen : Nat
  nonce : Nat
  dataBegun : Bool
  ghash : Nat
  aadLen : Nat
  dataLen : Nat
  segment : Nat
  deriving DecidableEq, Repr

/-- What a job does: a segment of a message (R325), or the next records of an export (R372): the records left,
the GHASH accumulator, and the nonce under a bulk key slot. -/
inductive BulkWork where
  | segment (r : BulkSegmentRec)
  | exports (slot nonce left ghash : Nat)
  deriving DecidableEq, Repr

/-- A job that is queued or runs. The users are the tenancies 0 to 15, the Lining 16, staging 17. -/
structure BulkJob where
  user : Nat
  token : Token
  work : BulkWork
  deriving DecidableEq, Repr

/-- A frame as the egress Cuff sent it: its bytes on the line without frame check sequence, the key slot and packet
number that protect it, its egress timestamp, and whether it ended with an error character. -/
structure Sent where
  bytes : List Nat
  protect : Option (Nat × Nat)
  stamp : Stamp
  aborted : Bool
  deriving DecidableEq, Repr

/-- MACsec and the bulk cipher. `ports` are the accepted settings, `rxPorts` and `txPorts` those in
force; `checks` the last 16 key check values loaded for transmit on an SC. -/
structure CipherState where
  ports : Tab MacsecPortRec
  rxPorts : Tab MacsecPortRec
  txPorts : Tab MacsecPortRec
  scs : Tab Sc
  keys : Tab SaKey
  keyOps : List KeyOp
  checks : Tab (List Nat)
  lastSent : Tab Sent
  bulkKeys : Tab BulkKey
  msgs : Tab BulkMsg
  jobs : List BulkJob
  engines : Tab BulkJob
  turn : Nat
  quotas : Tab Nat
  started : Bool
  exhausted : Bool
  bootEpoch : Nat
  flashEpoch : Nat
  retryAt : Option Nat
  deriving DecidableEq, Repr

/-- MACsec and the bulk cipher after a fundamental reset (R333). -/
def CipherState.reset : CipherState :=
  { ports := .none, rxPorts := .none, txPorts := .none, scs := .none, keys := .none, keyOps := [],
    checks := .none, lastSent := .none, bulkKeys := .none, msgs := .none, jobs := [],
    engines := .none, turn := 0, quotas := .none, started := false, exhausted := false,
    bootEpoch := 0, flashEpoch := 0, retryAt := none }

/-! ### DRAM (14) -/

/-- The channel states of Table 14-6. -/
inductive ChState where
  | untrained
  | spare
  | active
  | selfRefresh
  | migrating
  | outOfService
  | fenced
  deriving DecidableEq, Repr

/-- What a DRAM request is for; the classes of R37 in their order, with migration below spill writes. -/
inductive DramUse where
  | journal
  | returnRead (fid : Nat)
  | lining (tenancy index : Nat)
  | spillWrite (fid : Nat)
  | migrate
  deriving DecidableEq, Repr

/-- A place of a channel (R338): bank group, bank, row and column. -/
structure DramPlace where
  bg : Nat
  bank : Nat
  row : Nat
  col : Nat
  deriving DecidableEq, Repr

/-- A request of one burst (R339): its use, direction, place, the cycle of its arrival, and whether it had
to open its row. -/
structure DramReq where
  use : DramUse
  write : Bool
  place : DramPlace
  since : Nat
  miss : Bool
  deriving DecidableEq, Repr

/-- A bank: its open row, the cycles of its last ACT, precharge, read and write, until when a DRFM holds
it, and whether its open row is marked (R345). -/
structure DramBank where
  row : Option Nat
  actAt : Option Nat
  preAt : Option Nat
  rdAt : Option Nat
  wrAt : Option Nat
  busy : Nat
  marked : Bool
  deriving DecidableEq, Repr

/-- A bank with no row open. -/
def DramBank.reset : DramBank :=
  { row := none, actAt := none, preAt := none, rdAt := none, wrAt := none, busy := 0, marked := false }

/-- A register set of a channel: timing word (Table 14-3), the delay words of lanes 0 to 8 (Table 14-4),
and the command-and-address word. -/
structure DramSet where
  timing : Nat
  lanes : Tab Nat
  ca : Nat
  deriving DecidableEq, Repr

/-- A register set after reset. -/
def DramSet.reset : DramSet := { timing := 0, lanes := .none, ca := 0 }

/-- A physical channel. `queue` holds its request entries and `waiting` the requests that wait in their
requesters (R340); `reads` the issued reads with the cycle their data is in the core; `acts` the latest
activations (cycle, bank group), `lastCol` the latest column command (cycle, bank group, write); `srAt`
the cycle its self-refresh entry began; `window` and `migrated` count bursts for R341; `ueTimes` the
uncorrectable bursts of the last second; `monitors` the sampler offsets of R348. -/
structure DramChannel where
  state : ChState
  logical : Option Nat
  rate : Nat
  temp : Nat
  windows : List Nat
  set0 : DramSet
  set1 : DramSet
  sel : Nat
  banks : Tab DramBank
  queue : List DramReq
  waiting : List DramReq
  reads : List (DramReq × Nat)
  acts : List (Nat × Nat)
  lastCol : Option (Nat × Nat × Bool)
  refreshEnd : Nat
  refreshed : Nat
  srAt : Option Nat
  lastReq : Nat
  window : Nat
  migrated : Nat
  seed : Nat
  ueTimes : List Nat
  scrubAt : Nat
  monitors : Tab Nat
  deriving DecidableEq, Repr

/-- A channel after a fundamental reset (R359). -/
def DramChannel.reset : DramChannel :=
  { state := .untrained, logical := none, rate := 2, temp := 0, windows := [], set0 := .reset,
    set1 := .reset, sel := 0, banks := .none, queue := [], waiting := [], reads := [], acts := [],
    lastCol := none, refreshEnd := 0, refreshed := 0, srAt := none, lastReq := 0, window := 0,
    migrated := 0, seed := 0, ueTimes := [], scrubAt := 0, monitors := .none }

/-- Table 14-7's defaults. -/
def dramConfigReset : DramConfigRec :=
  { rate := 2, drfmK := 8, ueFence := 16, ageLimitNs := 2000, idleSrUs := 0, srMinNs := 1000 }

/-- A migration (R351): source, target, its deadline, its message (none for a re-centring of the Gusset),
and whether it is a re-centring. -/
structure Migration where
  src : Nat
  dst : Nat
  deadline : Nat
  token : Option Token
  recentre : Bool
  deriving DecidableEq, Repr

/-- A sweep in progress: its channel, its message, and whether it re-centres (R347). -/
structure Sweep where
  channel : Nat
  token : Option Token
  recentre : Bool
  deriving DecidableEq, Repr

/-- The DRAM controller. `interval` is *I*, `boundaryAt` the latest interval boundary and `boundaries`
their count, `hot` that the next boundary halves *I*; `rateLeft` the channels whose rate change is still
to come; `journals` the logical channels that hold the journal's copies and `recopy` the one being
copied; `absent` the absent logical channels; `takeover` the fenced channel's logical number that the
spare is to take, with the cycle of the fence. -/
structure DramState where
  channels : Tab DramChannel
  config : DramConfigRec
  next : Option DramConfigRec
  enabled : Bool
  interval : Nat
  boundaryAt : Nat
  boundaries : Nat
  hot : Bool
  pollAt : Nat
  migration : Option Migration
  sweep : Option Sweep
  rateLeft : List Nat
  journals : List Nat
  recopy : Option Nat
  absent : List Nat
  takeover : Option (Nat × Nat)
  deriving DecidableEq, Repr

/-- The controller after a fundamental reset (R359). -/
def DramState.reset : DramState :=
  { channels := .none, config := dramConfigReset, next := none, enabled := false,
    interval := 11700, boundaryAt := 0, boundaries := 0, hot := false, pollAt := 0, migration := none,
    sweep := none, rateLeft := [], journals := [], recopy := none, absent := [], takeover := none }

/-! ### Record and replay (15) -/

/-- What a Lining record carries beside its position and time (Tables 15-2 and 15-3). -/
inductive LinBody where
  | frame (fid port tenancy : Nat) (deep injected truncated noReplay seam : Bool) (decision : Nat)
      (version epoch seedEpoch frameLen capUnits outcome slice : Nat) (bytes : List Nat)
  | step (old new : Stamp)
  | reseed (epoch seed : Nat)
  | table (table op index : Nat) (entry : Option LearnEntry)
  | trigger (source event seq : Nat)
  | loss (count cause : Nat)
  | mirror (bytes : List Nat)
  | hook (digest : Nat)
  deriving DecidableEq, Repr

/-- A Lining record: the Sleeve, the time (a frame's ingress timestamp), the position or issue sequence,
whether it was read back uncorrectable, and its body. -/
structure LinRec where
  sleeve : Nat
  stamp : Stamp
  seq : Nat
  poisoned : Bool
  body : LinBody
  deriving DecidableEq, Repr

/-- A record that a capture has been offered and the Lining has not written: a frame record waits for
the Yoke's outcome (R362). -/
structure LinOffer where
  data : LinRec
  fid : Option Nat
  known : Bool
  deriving DecidableEq, Repr

/-- A capture's states (REC_STATUS_GET). -/
inductive CapState where
  | idle
  | armed
  | running
  | triggered
  | stopped
  deriving DecidableEq, Repr

/-- A snapshot area (R365, R367): the learning table, the learn salt, the seed and customer memory of a
Sleeve at the cycle of REC_ARM. -/
structure Snapshot where
  learn : Tab LearnEntry
  salt : Nat
  seed : Nat
  seedEpoch : Nat
  custMem : Mem
  deriving DecidableEq, Repr

/-- An empty snapshot. -/
def Snapshot.empty : Snapshot :=
  { learn := .none, salt := 0, seed := 0, seedEpoch := 0, custMem := [] }

/-- A capture that is not IDLE. `records` are those the store and the ring hold, oldest first, with
their indexes; `ready` counts those of them that have left the ring; `lost` and `lostCause` wait for a
LOSS record of `lostSleeve`; `left` counts the records to write after the trigger; `level` is in 1/3,000,000,000 of a
record. -/
structure Capture where
  state : CapState
  data : RecArmRec
  key : Nat
  level : Tokens
  offers : List LinOffer
  records : List (Nat × LinRec)
  nextIndex : Nat
  ready : Nat
  lost : Nat
  lostCause : Nat
  lostSleeve : Nat
  overwritten : Nat
  left : Option Nat
  snapshots : Tab Snapshot
  deriving DecidableEq, Repr

/-- The versioned objects of a tenancy at an epoch, as a replay Sleeve holds them. -/
structure World where
  flow : Tab FlowEntry
  flowProfiles : Tab ProfileRec
  tcam : Tab TcamEntry
  tcamProfiles : Tab ProfileRec
  patterns : Tab Pattern
  actions : Tab Action
  bindings : Tab MeterBinding
  rels : Tab RelProfile
  salt : Nat
  deriving DecidableEq, Repr

/-- A replay report entry (Table 15-6). -/
structure Report where
  index : Nat
  recorded : Nat
  replayed : Nat
  cls : Nat
  deriving DecidableEq, Repr

/-- A replay (R369): `todo` are the records still to issue, `loaded` the epoch of the world, `waiting`
that issue waits for an epoch switch, `restoring` that step 7 has begun, `stepFix` the cycles by which the
recorded steps have moved network time (R112), and `classes` the report entries by class. -/
structure Replay where
  tenancy : Nat
  token : Token
  data : ReplayRunRec
  todo : List (Nat × LinRec)
  world : World
  loaded : Nat
  waiting : Bool
  restoring : Bool
  stopped : Bool
  stepFix : Int
  issued : Nat
  compared : Nat
  classes : List Nat
  deriving DecidableEq, Repr

/-- The Lining. `ring` holds the tenancy and index of each record on chip; quotas, rates, epochs,
captures and reports are keyed by tenancy. -/
structure LiningState where
  storeMib : Nat
  quotas : Tab Nat
  rates : Tab Nat
  epochs : Tab Nat
  captures : Tab Capture
  ring : List (Nat × Nat)
  lastWrite : Option Nat
  replays : List Replay
  reports : Tab (List Report)
  deriving DecidableEq, Repr

/-- The Lining after a fundamental reset (R377). -/
def LiningState.reset : LiningState :=
  { storeMib := 0, quotas := .none, rates := .none, epochs := .none, captures := .none, ring := [],
    lastWrite := none, replays := [], reports := .none }


/-! ### The Gusset (19) -/

/-- The Gusset's ageing history record (Table 19-4). -/
structure HistoryRec where
  bootEpoch : Nat
  kind : Nat
  voltage : Nat
  uptimeUs : Nat
  seconds : Nat
  vminSram : Nat
  ageing : List Nat
  tMax : List Int
  tcamMargin : List Nat
  dram : List Nat
  serdes : Nat
  eom : Nat
  deriving DecidableEq, Repr

/-- A unit that has reached end of margin (Table 19-2): whether it is there now, and the cycle since
which it has been out of that state. -/
structure EomUnit where
  at' : Bool
  outSince : Option Nat
  deriving DecidableEq, Repr

/-- What the post-mortem buffer holds (R468): time, the last events of each role (owner, tenants,
maintenance), the messages in progress, the voltage, the temperatures, the channels' states and the
units. -/
structure PmBuffer where
  time : Stamp
  events : Tab (List EventMsg)
  effects : List Token
  voltage : Nat
  temps : List Int
  channels : List Nat
  units : Tab ResUnit
  shutdown : Bool
  deriving DecidableEq, Repr

/-- An empty buffer. -/
def PmBuffer.empty : PmBuffer :=
  { time := .zero, events := .none, effects := [], voltage := 0, temps := [], channels := [],
    units := .none, shutdown := false }

/-- The Gusset. Voltages are in millivolts, temperatures in quarters of a degree, speed margins in tenths
of a percent; `attempts` counts the failed transactions of the request that stands, `holdUntil` ends the
1 s without requests, `retryAt` is when a re-centring that could not start is tried again, `lowSince` and `cold` hold since when a site is below 2.0 %, `hot` the samples in a
row of 115 °C per sensor. -/
structure GusState where
  mv : Nat
  confirmed : Nat
  requested : Bool
  attempts : Nat
  holdUntil : Option Nat
  evalAt : Nat
  ratios : Tab Nat
  slacks : Tab Int
  lowSince : Tab Nat
  vminSram : Nat
  temps : List Int
  hot : List Nat
  tMax : List Int
  eyes : Tab Nat
  adapt : Tab Nat
  adaptAt : Tab Nat
  windows : Tab (List Nat)
  centres : Tab (List Int)
  recentreAt : Tab Nat
  retryAt : Tab Nat
  margins : Tab Nat
  eom : Tab EomUnit
  events : Tab (List EventMsg)
  historyAt : Nat
  bandAt : Nat
  deriving DecidableEq, Repr

/-- The Gusset after a fundamental reset (R461, R472): 750 mV. -/
def GusState.reset : GusState :=
  { mv := 750, confirmed := 750, requested := false, attempts := 0, holdUntil := none, evalAt := 0,
    ratios := .none, slacks := .none, lowSince := .none, vminSram := 0, temps := [], hot := [],
    tMax := [], eyes := .none, adapt := .none, adaptAt := .none, windows := .none, centres := .none,
    recentreAt := .none, retryAt := .none, margins := .none, eom := .none, events := .none,
    historyAt := 0, bandAt := 0 }

/-! ### The persistent-store island and the flash (19, 13, 16, 20) -/

/-- The operations of Table 19-3. -/
inductive FlashOp where
  | pageProgram
  | sectorErase
  | blockErase
  | statusWrite
  | postmortem
  deriving DecidableEq, Repr

/-- What a flash operation is for; its order of start is R467's. -/
inductive FlashUse where
  | postmortem
  | bootEpoch (value : Nat)
  | ownerKey (key : Nat) (tok : Option Token)
  | tenantKey (r : TenantEnrolRec) (tok : Option Token)
  | history (r : HistoryRec)
  | historySector
  | eraseSlot (slot : Nat)
  | image (tok : Option Token)
  | serviceRecord (marks : List Nat)
  | directory (copy : Nat) (dir : BootDir) (tok : Option Token)
  deriving DecidableEq, Repr

/-- A flash operation that waits: when it began to wait, and when a deferred one is checked again. -/
structure FlashReq where
  op : FlashOp
  use : FlashUse
  since : Nat
  recheckAt : Option Nat
  deriving DecidableEq, Repr

/-- A post-mortem record in flash: the boot epoch, the buffer, whether it marks a dip, and whether
firmware has reported it. -/
structure PmRecord where
  bootEpoch : Nat
  buffer : PmBuffer
  dip : Bool
  reported : Bool
  deriving DecidableEq, Repr

/-- GUS_CONFIG_SET's values at the island's power-on reset (R471). -/
def gusConfigZero : GusConfigRec :=
  { pmbusAddr := 0, flags := 0, capUf := 0, vcutMv := 0, holdDiv := 0, pHoldMw := 0, effPct := 0 }

/-- The island and what flash keeps: the registers of Table 19-5, the operations that wait and the one in
progress, POWER_FAIL_N, the post-mortem buffer and slots (a slot that is not listed is pre-erased), the
ageing history with its baseline, the key records, the boot epoch, the board record, the two copies of the boot
directory, the images (area 0 firmware A, 1 firmware B, 2 vendor patch set, 3 customer microcode) with the content of
the customer image, the tenants' acceptances (tenancy and digest), and the service record's marks. -/
structure IslandState where
  config : GusConfigRec
  waiting : List FlashReq
  busy : Option FlashReq
  powerFail : Bool
  buffer : PmBuffer
  slots : Tab PmRecord
  history : List HistoryRec
  baseline : Option HistoryRec
  baseRatio : Tab Nat
  baseEye : Tab Nat
  baseWindow : Tab (List Nat)
  baseCentre : Tab (List Int)
  baseMargin : Tab Nat
  ownerKey : Option Nat
  tenantKeys : Tab Nat
  epoch : Nat
  board : Option GusConfigRec
  dir0 : BootDir
  dir1 : BootDir
  images : Tab FwImage
  customer : Option UcodeImage
  accepts : List (Nat × Nat)
  service : List Nat
  deriving DecidableEq, Repr

/-- The island after a fundamental reset, with the planning flags on (R472), and a flash that holds nothing. -/
def IslandState.reset : IslandState :=
  { config := { gusConfigZero with flags := 3 }, waiting := [], busy := none, powerFail := false,
    buffer := .empty, slots := .none, history := [], baseline := none, baseRatio := .none, baseEye := .none,
    baseWindow := .none, baseCentre := .none, baseMargin := .none, ownerKey := none,
    tenantKeys := .none, epoch := 0, board := none, dir0 := .erased,
    dir1 := .erased, images := .none, customer := none, accepts := [], service := [] }

/-! ### The board interface (21) -/

/-- The values that the SMBus target samples (Table 21-10). -/
structure SmbSample where
  tj : Int
  stage : Nat
  flags : Nat
  coreMv : Nat
  eom : Nat
  sensors : List Nat
  deriving DecidableEq, Repr

/-- The answer of the SMBus target to the latest transfer. -/
inductive SmbReply where
  | none
  | nack
  | byte (v : Nat)
  | word (v : Nat)
  | block (bytes : List Nat)
  deriving DecidableEq, Repr

/-- The SMBus target and the JTAG port: the latest sample and its cycle, SMB_ALERT_N asserted, the answer to the
latest transfer, the JTAG instruction in force, and the value of its data register where the spec gives it. -/
structure BoardState where
  sample : SmbSample
  sampledAt : Nat
  alert : Bool
  reply : SmbReply
  jtag : Jtag
  jtagData : Option Nat
  deriving DecidableEq, Repr

/-- The board interface after a fundamental reset: nothing sampled yet, SMB_ALERT_N high-impedance; JTAG holds
IDCODE, as IEEE 1149.1 has it (PRESUMED). -/
def BoardState.reset : BoardState :=
  { sample := { tj := 0, stage := 0, flags := 0, coreMv := 0, eom := 0, sensors := [] }, sampledAt := 0,
    alert := false, reply := .none, jtag := .idcode, jtagData := some 0x19600D4B }

/-! ### The whole -/

/-- A counter and the units it counts for. -/
structure CtrKey where
  ctr : Ctr
  a : Nat
  b : Nat
  deriving DecidableEq, Repr

/-- A rate-limited event's condition: its code and units. -/
structure RaiseKey where
  code : Nat
  a : Nat
  b : Nat
  deriving DecidableEq, Repr

/-- Whom an event goes to (R422). -/
inductive Aud where
  | owner
  | maint
  | tenancy (t : Nat)
  | tenants
  | fnSessions (fn : Nat)
  deriving DecidableEq, Repr

/-- The device. `now` counts core cycles; `rnd` is the model's own counter of free values;
`outbox` holds the events of the command in hand and is empty between commands; `lastSeen` the last
cycle of each condition whose event is raised at the first after 1 s without one. -/
structure Dev where
  power : Power
  now : Nat
  rnd : Nat
  outbox : List (List Aud × EventMsg)
  lastSeen : List (RaiseKey × Nat)
  counters : List (CtrKey × Nat)
  arch : ArchState
  hem : HemState
  ports : PortState
  parse : ParseState
  tables : TableState
  tcam : TcamState
  vers : VersState
  micro : MicroState
  yoke : YokeState
  meter : MeterState
  queues : QueueState
  rel : RelState
  cipher : CipherState
  dram : DramState
  lining : LiningState
  ten : TenState
  mbx : MbxState
  host : HostState
  gus : GusState
  island : IslandState
  boot : BootState
  board : BoardState
  deriving DecidableEq, Repr

/-- The device after a fundamental reset: every chapter's reset state, no counter counted. -/
def Dev.reset : Dev :=
  { power := .on, now := 0, rnd := 0, outbox := [], lastSeen := [], counters := []
    , arch := .reset
    , hem := .reset
    , ports := .reset
    , parse := .reset
    , tables := .reset
    , tcam := .reset
    , vers := .reset
    , micro := .reset
    , yoke := .reset
    , meter := .reset
    , queues := .reset
    , rel := .reset
    , cipher := .reset
    , dram := .reset
    , lining := .reset
    , ten := .reset
    , mbx := .reset
    , host := .reset
    , gus := .reset
    , island := .reset
    , boot := .reset
    , board := .reset
  }

/-- The state: the device, and the commands that wait, first in first out. -/
structure State where
  dev : Dev
  pending : List Instr
  deriving DecidableEq, Repr

/-- The state right after reset: PERST# just released, ROM about to start (Table 20-2). -/
def State.reset : State := { dev := .reset, pending := [] }

end Sys2Proof.Machine
end

