-- ==== Sys2Proof/Machine/Ops.lean ====
section
/-! DEFINITION. The shared operations of the block: the power gate that every command passes, free
values, counters, events, the response rings and their interrupts, and completing a message. -/

namespace Sys2Proof.Machine

/-! ### Free values -/

/-- The next value nothing determines: a counter that the opaque functions of Config are applied to. -/
def Dev.draw (d : Dev) : Nat × Dev := (d.rnd, { d with rnd := d.rnd + 1 })

/-! ### Counters (R10) -/

/-- Counter `c` for the units `a` and `b`. -/
def Dev.ctr (d : Dev) (c : Ctr) (a b : Nat) : Nat :=
  match d.counters.lookup ⟨c, a, b⟩ with
  | some n => n
  | none => 0

/-- A counter set to a value. -/
def Dev.setCtr (d : Dev) (c : Ctr) (a b n : Nat) : Dev :=
  let k : CtrKey := ⟨c, a, b⟩
  { d with counters := (k, n) :: d.counters.filter fun e => e.1 != k }

/-- What counter `c` holds after `n` more: 64-bit counters wrap to zero (R10), 32-bit ones too unless
their table says that they saturate. -/
def Ctr.plus (c : Ctr) (old n : Nat) : Nat :=
  if c.saturates then min (old + n) (2 ^ c.width - 1) else (old + n) % 2 ^ c.width

/-- A counter counts `n`. -/
def Dev.bump (d : Dev) (c : Ctr) (a b n : Nat) : Dev := d.setCtr c a b (c.plus (d.ctr c a b) n)

/-- A counter counts one. -/
def Dev.inc (d : Dev) (c : Ctr) (a b : Nat) : Dev := d.bump c a b 1

/-- Every counter that `p` names returned to zero. -/
def Dev.zeroCtrs (d : Dev) (p : CtrKey → Bool) : Dev :=
  { d with counters := d.counters.filter fun e => !p e.1 }

/-- The sum of counter `c` over the units `as`, for the second unit `b`. -/
def Dev.sumCtr (d : Dev) (c : Ctr) (as : List Nat) (b : Nat) : Nat :=
  (as.map fun a => d.ctr c a b).sum

/-! ### Network time as seen by every consumer (R40, R44) -/

/-- Units of 2^-48 ns in a nanosecond and in a second, and the modulus of network time (R47). -/
def unitNs : Nat := 2 ^ 48
def unitS : Nat := 1000000000 * 2 ^ 48
def unitWrap : Nat := 2 ^ 48 * unitS

/-- The network-time bus (Table 2-1) for an accumulator value. -/
def stampOf (acc gen : Nat) : Stamp :=
  { sec := acc / unitS % 2 ^ 48, ns := acc / unitNs % 1000000000, frac := acc / 2 ^ 32 % 2 ^ 16,
    gen := gen }

/-- The bus now. -/
def Dev.stamp (d : Dev) : Stamp := stampOf d.hem.acc d.hem.stepGen

/-- A network time in nanoseconds as an accumulator value. -/
def nsToAcc (sec ns : Nat) : Nat := (sec * 1000000000 + ns) * unitNs % unitWrap

/-- The signed difference `a − b` of two network times modulo 2^48 s (R47). -/
def timeDiff (a b : Nat) : Int :=
  let m := (a + unitWrap - b % unitWrap) % unitWrap
  if m < unitWrap / 2 then (m : Int) else (m : Int) - (unitWrap : Int)

/-! ### Roles and functions -/

/-- The mailbox of function `f`. -/
def Dev.mbox (d : Dev) (f : Nat) : Mailbox := d.mbx.fns.get .reset f

/-- Function `f`'s mailbox replaced. -/
def Dev.setMbox (d : Dev) (f : Nat) (m : Mailbox) : Dev :=
  { d with mbx := { d.mbx with fns := d.mbx.fns.set f m } }

/-- The endpoint's side of function `f`. -/
def Dev.fend (d : Dev) (f : Nat) : EndFn := d.host.fns.get .reset f

/-- Function `f`'s endpoint side replaced. -/
def Dev.setFend (d : Dev) (f : Nat) (e : EndFn) : Dev :=
  { d with host := { d.host with fns := d.host.fns.set f e } }

/-- The functions 0 to 31 (R406). -/
def allFns : List Nat := List.range 32

/-- A unit of Table 16-2: kind `k`, unit `u`. -/
def unitKey (k u : Nat) : Nat := k * 2048 + u

/-- The assignable unit `u` of kind `k`. -/
def Dev.unit (d : Dev) (k u : Nat) : ResUnit := d.ten.units.get .reset (unitKey k u)

/-- The units of each kind (Table 16-2). -/
def unitCount : Nat → Nat
  | 1 => 1536
  | 2 => 128
  | 3 => 16
  | 4 => 16
  | 5 => 16
  | 6 => 16
  | 7 => 16
  | 8 => 16
  | 9 => 16
  | 10 => 16
  | 11 => 32
  | 12 => 32
  | 13 => 16
  | 14 => 30
  | _ => 0

/-- Whether tenancy `t` holds unit `u` of kind `k`. -/
def Dev.holds (d : Dev) (t k u : Nat) : Bool := (d.unit k u).tenancy == some t

/-- The units of kind `k` that tenancy `t` holds, in ascending order. -/
def Dev.held (d : Dev) (t k : Nat) : List Nat :=
  (List.range (unitCount k)).filter fun u => d.holds t k u

/-- The `i`-th block of kind `k` of tenancy `t`, counted from 0 in ascending order. -/
def Dev.block (d : Dev) (t k i : Nat) : Option Nat := (d.held t k)[i]?

/-- The absolute index of a tenancy-relative index, blocks of `size` objects. -/
def Dev.absIndex (d : Dev) (t k size i : Nat) : Option Nat :=
  (d.block t k (i / size)).map fun b => b * size + i % size

/-- The tenancy that holds function `f`: the owner's for PF0 and PF1, the unit's for a virtual
function (kind 14). -/
def Dev.fnTenancy (d : Dev) (f : Nat) : Option Nat :=
  if f < 2 then some 0 else (d.unit 14 (f - 2)).tenancy

/-- The port tenancy map of port `p`. -/
def Dev.portMap (d : Dev) (p : Nat) : PortMap := d.ten.ports.get .reset p

/-- R379: the tenancy that holds port `p` wholly, if one does. -/
def Dev.wholly (d : Dev) (p : Nat) : Option Nat :=
  let m := d.portMap p
  if m.mode = 0 && m.tenancy < 16 then some m.tenancy else none

/-! ### Events (R422, R423) -/

/-- The roles of an audience as the post-mortem buffer keeps them: owner 0, tenants 1, maintenance 2. -/
def Aud.slot : Aud → Nat
  | .owner => 0
  | .maint => 2
  | .tenancy t => if t = 0 then 0 else 1
  | .tenants => 1
  | .fnSessions _ => 1

/-- R468: an event among the last 64 of its role; tenants' with its arguments zeroed (R471). -/
def Dev.remember (d : Dev) (aud : List Aud) (e : EventMsg) : Dev :=
  let g := aud.foldl (fun (g : GusState) a =>
    let body := if a.slot = 1 then e.body.take 5 ++ [0, 0, 0, 0] else e.body
    let l := { e with body := body } :: g.events.get [] a.slot
    { g with events := g.events.set a.slot (l.take 64) }) d.gus
  { d with gus := g }

/-- An event with its body. Its occurrence count is a value the spec does not state. -/
def Dev.newEvent (d : Dev) (code : Nat) (args : List Nat) : EventMsg × Dev :=
  let s := d.stamp
  let n := Config.freeOccurrence d.rnd
  ({ code := code, body := [s.sec, s.ns, s.frac, s.gen, n] ++ args ++ List.replicate (4 - args.length) 0 },
   { d with rnd := d.rnd + 1 })

/-- An event raised for the sessions that `aud` names; it is written once the command that raises it
has written its completion (R421). -/
def Dev.raise (d : Dev) (code : Nat) (aud : List Aud) (args : List Nat) : Dev :=
  let x := d.newEvent code args
  { x.2 with outbox := x.2.outbox ++ [(aud, x.1)] }.remember aud x.1

/-- The condition of an event met for units `a`, `b`: whether 1 s has passed without one, and the
device with this one recorded. -/
def Dev.occurs (d : Dev) (code a b : Nat) : Bool × Dev :=
  let k : RaiseKey := ⟨code, a, b⟩
  let fresh := match d.lastSeen.lookup k with
    | some t => decide (t + cyclesPerS ≤ d.now)
    | none => true
  (fresh, { d with lastSeen := (k, d.now) :: d.lastSeen.filter fun e => e.1 != k })

/-- An event raised at a first occurrence after 1 s without one. -/
def Dev.raiseFirst (d : Dev) (code a b : Nat) (aud : List Aud) (args : List Nat) : Dev :=
  let (fresh, d) := d.occurs code a b
  if fresh then d.raise code aud args else d

/-- Owner and maintenance. -/
def ownerMaint : List Aud := [.owner, .maint]

/-- The owner's and tenancy `t`'s sessions. -/
def ownerAnd (t : Nat) : List Aud := if t = 0 then [.owner] else [.owner, .tenancy t]

/-! ### Interrupts (R424, R444) -/

/-- The MSI-X vectors of a function (R424). -/
def vectorsOf (f : Nat) : Nat := if f < 2 then 64 else 8

/-- An MSI-X write for vector `v` of function `f`: recorded pending while the vector is masked, and
not sent while the function may issue no request (R449). -/
def Dev.msix (d : Dev) (f v : Nat) : Dev :=
  let e := d.fend f
  if e.msixMasked.contains v then
    if e.msixPending.contains v then d else d.setFend f { e with msixPending := v :: e.msixPending }
  else if e.busMaster && !e.d3hot && !e.teardown && !(d.mbox f).hostLost then
    { d with host := { d.host with msiSent := (f, v) :: d.host.msiSent } }
  else d

/-- Bit `i` of HST_IRQ_STATUS of function `f` set; it signals vector `v` when it changes from 0 to 1
while unmasked and `on` (Table 18-5). -/
def Dev.irqBit (d : Dev) (f i v : Nat) (on : Bool) : Dev :=
  let e := d.fend f
  let rose := !e.irqStatus.testBit i
  let d := d.setFend f { e with irqStatus := setBit e.irqStatus i }
  if rose && !e.irqMask.testBit i && on then d.msix f v else d

/-- A cause of the misc vector: bits 2 to 5 of HST_IRQ_STATUS. -/
def Dev.irqMisc (d : Dev) (f i : Nat) : Dev :=
  let e := d.fend f
  d.irqBit f i e.miscVector e.miscEnable

/-- Entries written to a ring so far: whether the ring raises its interrupt now (R424), and the
interrupt's state after. -/
def RingIrq.wrote (q : RingIrq) (now : Nat) : Bool × RingIrq :=
  let n := q.waiting + 1
  let old := if q.waiting = 0 then now else q.oldest
  if q.timeUs = 0 || q.countM1 + 1 ≤ n then (true, { q with waiting := 0, oldest := now })
  else (false, { q with waiting := n, oldest := old })

/-! ### Response rings (R409, R410, R420) -/

/-- The phase bit of index `i` in a ring of 2^`lg` slots (R410). -/
def phaseBit (lg i : Nat) : Bool := (i >>> lg) % 2 = 0

/-- Slots of an entry of `body` bytes, sealed or not (Message framing). -/
def slotsOf (body : Nat) (isSealed : Bool) : Nat :=
  ceilDiv (32 + body + (if isSealed then 16 else 0)) 64

/-- Slots of an event: two, and three on a sealed session, and more for the keys of a FLOW_IDLE beyond
the four arguments, 16 bytes each. -/
def eventSlots (session : Nat) (e : EventMsg) : Nat :=
  (if session = 0 then 2 else 3) + ceilDiv (16 * (e.body.length - 9)) 64

/-- Free slots of a ring. -/
def Ring.room (r : Ring) : Nat :=
  2 ^ r.size - (r.tail + 2 ^ 32 - r.head) % 2 ^ 32

/-- Whether entries can be written for function `f`: the ring is on, the function is not lost and may
issue requests (R449). -/
def Dev.canWrite (d : Dev) (f : Nat) : Bool :=
  let m := d.mbox f
  m.rsp.enabled && !m.hostLost && (d.fend f).busMaster && !(d.fend f).d3hot && !(d.fend f).teardown

/-- Session `k` of function `f`, if it is open: session 0 since the request ring was enabled. -/
def Dev.session (d : Dev) (f k : Nat) : Option Session :=
  let m := d.mbox f
  if k = 0 then (if m.zeroOpen then some m.zero else none) else m.sealed.get? k

/-- Session `k` of function `f` replaced. -/
def Dev.setSession (d : Dev) (f k : Nat) (s : Session) : Dev :=
  let m := d.mbox f
  if k = 0 then d.setMbox f { m with zero := s }
  else d.setMbox f { m with sealed := m.sealed.set k s }

/-- One entry written into the response ring of function `f`, in `slots` slots, with the interrupt of
R424. -/
def Dev.writeEntry (d : Dev) (f slots : Nat) (e : Entry) : Dev :=
  let m := d.mbox f
  let e := { e with index := m.rsp.tail, slots := slots, phase := phaseBit m.rsp.size m.rsp.tail }
  let (sig, q) := m.irqRsp.wrote d.now
  let d := d.setMbox f { m with
    rsp := { m.rsp with tail := (m.rsp.tail + slots) % 2 ^ 32 }, irqRsp := q,
    entries := m.entries ++ [e] }
  let d := d.bump .dmaWrites f 0 (ceilDiv slots 8)
  if sig then d.irqBit f 0 q.vector true else d

/-- The next response sequence of session `k` of function `f` taken (R416). -/
def Dev.nextSeq (d : Dev) (f k : Nat) : Nat × Dev :=
  match d.session f k with
  | some s => (s.rspSeq + 1, d.setSession f k { s with rspSeq := s.rspSeq + 1 })
  | none => (0, d)

/-- The value of a status code (Table 17-6). -/
def Status.code : Status → Nat
  | .ok => 0
  | .accepted => 1
  | .notPermitted => 2
  | .staleEpoch => 3
  | .badField => 4
  | .badState => 5
  | .noSpace => 6
  | .slotBusy => 7
  | .versionBusy => 8
  | .timeout => 9
  | .badSeal => 10
  | .retired => 11
  | .keyChanged => 12
  | .poolEmpty => 13
  | .busMasterOff => 14
  | .badOpcode => 15
  | .badSequence => 16

/-- A response written for the message of `tok`: into the boot mailbox over the request, setting
boot_done, for a message that came through it (R426); otherwise into the response ring, sealed when
`isSealed`. On a function that is lost the completion is discarded and counted (R430). -/
def Dev.respond (d : Dev) (tok : Token) (st : Status) (isSealed : Bool) (size : Nat)
    (body : List Nat) : Dev :=
  let f := tok.fn
  if tok.boot then
    let (n, d) := if d.mbx.fwReady then d.nextSeq f 0 else (0, d)
    let m := d.mbox f
    let head := [tok.code + 2 ^ 16 * tok.tenancy + 2 ^ 24 * 4, n, size + 2 ^ 32 * st.code, tok.seq]
    let d := d.setMbox f { m with boot := Mem.writeList m.boot 0 (head ++ body), bootDone := true }
    d.irqMisc f 2
  else if !d.canWrite f then d.inc .completionsDiscarded f 0
  else
    let (n, d) := d.nextSeq f tok.session
    let flags := 4 + (if isSealed then 2 else 0)
    let d := d.writeEntry f (slotsOf size isSealed)
      { index := 0, slots := 0, phase := false, code := tok.code, tenancy := tok.tenancy,
        flags := flags, session := tok.session, seq := n, status := st, requestSeq := tok.seq,
        body := body }
    d.inc .responses f 0

/-- One event written for session `k` of function `f`. -/
def Dev.writeEvent (d : Dev) (f k : Nat) (s : Session) (e : EventMsg) : Dev :=
  let (n, d) := d.nextSeq f k
  let d := d.writeEntry f (eventSlots k e)
    { index := 0, slots := 0, phase := false, code := e.code, tenancy := s.tenancy,
      flags := 12 + (if k = 0 then 0 else 2), session := k, seq := n, status := .ok,
      requestSeq := 0, body := e.body }
  d.inc .events f 0

/-- Whether logical core `k` runs: it is not absent (R427), and no FW_SWITCH has stopped the cores (R494). -/
def Dev.coreUp (d : Dev) (k : Nat) : Bool := !d.mbx.absent.contains k && !d.boot.switching.any (·.stopped)

/-- Unreserved room for an event of session `k` of function `f`, whose core runs. -/
def Dev.eventRoom (d : Dev) (f k : Nat) (e : EventMsg) : Bool :=
  let m := d.mbox f
  d.canWrite f && d.coreUp (f % 4) && decide (m.reserved + eventSlots k e ≤ m.rsp.room)

/-- R422: whether session `s` takes event code `c`; bit 17 of the mask counts as set. -/
def Session.takes (s : Session) (c : Nat) : Bool := c >>> 8 = 17 || s.mask.testBit (c >>> 8)

/-- R423: an event delivered to session `k` of function `f`: written, or held, or counted lost. -/
def Dev.deliver (d : Dev) (f k : Nat) (e : EventMsg) : Dev :=
  match d.session f k with
  | none => d
  | some s =>
    if !s.takes e.code then d
    else if s.held.isEmpty && s.lost = 0 && d.eventRoom f k e then d.writeEvent f k s e
    else if s.held.length < 256 then d.setSession f k { s with held := s.held ++ [e] }
    else (d.setSession f k { s with lost := s.lost + 1 }).inc .eventsLost f 0

/-- Whether session `k` of function `f` is of the audience. Session 0 acts for the owner on PF0 and
for nobody elsewhere (R396, R407). -/
def Aud.includes (a : Aud) (f k : Nat) (s : Session) : Bool :=
  let known := k != 0 || f = 0
  match a with
  | .owner => known && s.role == .owner
  | .maint => known && s.role == .maint
  | .tenancy t => known && (if t = 0 then s.role == .owner else s.role == .tenant && s.tenancy = t)
  | .tenants => known && s.role == .tenant
  | .fnSessions g => f = g && k != 0

/-- The open sessions, in the order of their functions and numbers. -/
def Dev.openSessions (d : Dev) : List (Nat × Nat × Session) :=
  allFns.flatMap fun f => (List.range 5).filterMap fun k =>
    (d.session f k).map fun s => (f, k, s)

/-- The function whose events_lost counts an event for a tenancy with no open session: PF0 for the
owner, else the lowest virtual function held, else PF0. -/
def Dev.lostFn (d : Dev) (t : Nat) : Nat :=
  match (if t = 0 then [] else d.held t 14) with
  | v :: _ => v + 2
  | [] => 0

/-- R422: an event for a tenancy that has no open session is counted. -/
def Dev.countLost (d : Dev) (aud : List Aud) (open' : List (Nat × Nat × Session)) : Dev :=
  aud.foldl (fun d a =>
    let t? : Option Nat := match a with
      | .owner => some 0
      | .tenancy t => some t
      | _ => none
    match t? with
    | some t => if open'.any fun o => a.includes o.1 o.2.1 o.2.2 then d
      else d.inc .eventsLost (d.lostFn t) 0
    | none => d) d

/-- A trigger of tenancy `t`'s capture (R365): the first writes a TRIGGER record at the position `seq`,
and in mode 1 starts the count of `post_depth`. Source 0 is REC_TRIGGER, then as REC_ARM numbers them. -/
def Dev.linTrigger (d : Dev) (t source code seq : Nat) : Dev :=
  match d.lining.captures.get? t with
  | none => d
  | some c =>
    if c.left.isSome || !(c.state == .armed || c.state == .running) then d
    else
      let r : LinRec := { sleeve := 0, stamp := d.stamp, seq := seq, poisoned := false,
                          body := .trigger source code seq }
      let c := { c with offers := c.offers ++ [{ data := r, fid := none, known := true }],
                        left := some c.data.postDepth,
                        state := if c.data.mode = 1 then .triggered else c.state }
      { d with lining := { d.lining with captures := d.lining.captures.set t c } }.raise 0x0F01
        [.tenancy t] []

/-- The captures that wait for an event of code `c` delivered to their tenancy are triggered by it. -/
def Dev.eventTrigger (d : Dev) (c : Nat) (dest : List (Nat × Nat × Session)) : Dev :=
  (List.range 16).foldl (fun d t =>
    match d.lining.captures.get? t with
    | some x =>
      if x.data.trigger = 3 && x.data.eventCode = c &&
          dest.any (fun o => o.2.2.tenancy = t && o.2.2.role != .maint && o.2.2.takes c) then
        d.linTrigger t 3 c 0
      else d
    | none => d) d

/-- One raised event delivered to every open session of its audience. -/
def Dev.deliverAll (d : Dev) (aud : List Aud) (e : EventMsg) : Dev :=
  let ss := d.openSessions
  let d := d.countLost aud ss
  let dest := ss.filter fun o => aud.any fun a => a.includes o.1 o.2.1 o.2.2
  (dest.foldl (fun d o => d.deliver o.1 o.2.1 e) d).eventTrigger e.code dest

/-- The events that stand in the outbox, delivered in the order raised. -/
def Dev.flushOnce (d : Dev) : Dev :=
  d.outbox.foldl (fun d o => d.deliverAll o.1 o.2) { d with outbox := [] }

/-- The events that a command raised, delivered, and then those that a delivery raises: at most one for
each capture that it triggers. -/
def Dev.flush (d : Dev) : Dev := (List.range 17).foldl (fun d _ => d.flushOnce) d

/-! ### The gate of every command -/

/-- What a command does to a running device, through `f`; a device held in reset or shut down does
nothing, and one in an undefined state stops the model (R475, R513). -/
def running (f : Dev → Dev) (s : State) : Host.Outcome State Fault Refusal :=
  match s.dev.power with
  | .on => .next { s with dev := (f s.dev).flush }
  | .reset => .next s
  | .shutdown => .next s
  | .undefined => .fault .undefinedUntilReset

/-- What a command does to any device that is not in an undefined state: the persistent-store island,
pins and the SMBus, which work without the core. -/
def powered (f : Dev → Dev) (s : State) : Host.Outcome State Fault Refusal :=
  match s.dev.power with
  | .undefined => .fault .undefinedUntilReset
  | _ => .next { s with dev := (f s.dev).flush }

/-- What a command does to every device: the PERST# and island power-on rows. -/
def always (f : Dev → Dev) (s : State) : Host.Outcome State Fault Refusal :=
  .next { s with dev := (f s.dev).flush }

/-! ### Messages (R407 to R421) -/

/-- What an opcode fixes for the checks of R417: its code, its record length, its largest response
body, whether it honours flags bit 0 (R419), whether session 0 of PF1 and the virtual functions takes
it (R407), whether it needs a sealed session (R417 step 6), whether it changes state (R393), and
whether R481 refuses it before SYS_READY. -/
structure OpSpec where
  code : Nat
  lenOk : Nat → Bool
  maxBody : Nat
  canAsync : Bool := false
  open0 : Bool := false
  sealedOnly : Bool := false
  changes : Bool := true
  early : Bool := true

/-- The sender of a message, as its session fixes it. -/
structure Sender where
  role : Role
  tenancy : Nat
  epoch : Nat
  fn : Nat
  session : Nat
  tok : Token

/-- How an opcode's own work ends: with a response, waiting for a later command, with OK under the keys of a
session that it has opened (R411), or with its response written already. -/
inductive Reply where
  | done (st : Status) (size : Nat) (body : List Nat)
  | wait
  | opened (session size : Nat) (body : List Nat)
  | answered

/-- A response without a body. -/
def Reply.say (st : Status) : Reply := .done st 0 []

/-- OK with a body of 8-byte values. -/
def Reply.values (vs : List Nat) : Reply := .done .ok (8 * vs.length) vs

/-- OK with a list whose encoding the spec does not give: 8 bytes a value, at most 2,048 bytes of ring. -/
def Reply.list (vs : List Nat) : Reply := .done .ok (min (8 * vs.length) 2048) vs

/-- The first status whose condition holds. -/
def firstFail : List (Bool × Status) → Option Status
  | [] => none
  | (true, st) :: _ => some st
  | (false, _) :: cs => firstFail cs

/-- A message's work under its ordered checks: the first failure leaves the device as it was. -/
def checked (cs : List (Bool × Status)) (d : Dev) (f : Dev → Reply × Dev) : Reply × Dev :=
  match firstFail cs with
  | some st => (.say st, d)
  | none => f d

/-- A message whose checks lead to a change and a plain OK. -/
def setting (cs : List (Bool × Status)) (d : Dev) (f : Dev → Dev) : Reply × Dev :=
  checked cs d fun d => (.say .ok, f d)

/-- Whether the logical core of function `f` runs (R38, R427) and its rings are served (R494). -/
def Dev.served (d : Dev) (f : Nat) : Bool :=
  d.mbx.fwReady && d.coreUp (f % 4)

/-- The slots of a request. -/
def reqSlots (h : Hdr) : Nat := slotsOf h.length (h.flags.testBit 1)

/-- Requests of function `f` that the Collar has read and not started (R409). -/
def Mailbox.available (m : Mailbox) : Nat := (m.fetched + 2 ^ 32 - m.req.head) % 2 ^ 32

/-- R417 step 1: a length or a slot count that no ring of this size carries. -/
def misframed (h : Hdr) (m : Mailbox) : Bool :=
  decide (16320 < h.length) || decide (2 ^ m.req.size < (reqSlots h))

/-- R418, R420: whether the Collar may start request `h` now. A request of the boot mailbox waits for
nothing but the firmware's core L0 (R426). -/
def Dev.canStart (o : OpSpec) (h : Hdr) (d : Dev) : Bool :=
  let m := d.mbox h.fn
  let resp := slotsOf o.maxBody true + (if o.canAsync then slotsOf 0 true else 0)
  if h.boot then d.served 0 && m.bootWaiting && decide (h.fn < 2) && decide (h.length ≤ 224)
  else d.served h.fn && !m.hostLost && !m.halted && m.req.enabled && m.busy.isNone &&
    (misframed h m || decide ((reqSlots h) ≤ m.available)) &&
    m.rsp.enabled && decide (m.reserved + resp ≤ m.rsp.room)

/-- The request taken from its ring, or from the boot mailbox. -/
def Dev.take (h : Hdr) (d : Dev) : Dev :=
  let m := d.mbox h.fn
  let d := if h.boot then d.setMbox h.fn { m with bootWaiting := false }
    else d.setMbox h.fn { m with req := { m.req with head := (m.req.head + (reqSlots h)) % 2 ^ 32 } }
  d.inc .requests h.fn 0

/-- R417 step 1: a framing error stops the request ring. -/
def Dev.ringError (d : Dev) (f : Nat) : Dev :=
  let m := d.mbox f
  let d := (d.setMbox f { m with reqError := true, halted := true }).inc .ringErrors f 0
  (d.irqMisc f 3).raise 0x1101 [.owner, .fnSessions f] [f]

/-- R415: whether session `s` accepts request sequence `n`. -/
def Session.accepts (s : Session) (n : Nat) : Bool :=
  n != 0 && (decide (s.highest < n) || (decide (s.highest < n + 64) && !s.seen.contains n))

/-- The session's window with sequence `n` accepted. -/
def Session.accept (s : Session) (n : Nat) : Session :=
  let hi := max s.highest n
  { s with highest := hi, seen := (n :: s.seen).filter fun x => decide (hi < x + 64) }

/-- R417 steps 2 to 4 and 6 to 8 for an opcode: the status of the first failure, and whether the
session is accepted (so that its response may be sealed). -/
def envelope (o : OpSpec) (h : Hdr) (d : Dev) : Option (Status × Bool) :=
  match d.session h.fn h.session with
  | none => some (.badSeal, false)
  | some s =>
    if h.flags.testBit 1 != (h.session != 0) then some (.badSeal, false)
    else if h.session != 0 && !h.sealOk then some (.badSeal, false)
    else if !s.accepts h.seq then some (.badSequence, true)
    else if h.session = 0 && h.fn != 0 && !o.open0 then some (.badSeal, true)
    else if h.session = 0 && o.sealedOnly then some (.badSeal, true)
    else if h.tenancy != s.tenancy then some (.notPermitted, true)
    else if !o.lenOk h.length then some (.badField, true)
    else none

/-- The token of a request: where its responses go. -/
def tokenOf (d : Dev) (h : Hdr) (o : OpSpec) (isAsync : Bool) : Token :=
  { serial := ((d.session h.fn h.session).map (·.serial)).getD 0, fn := h.fn, session := h.session, tenancy := h.tenancy, seq := h.seq, code := o.code,
    isAsync := isAsync, reserve := slotsOf o.maxBody (h.session != 0), boot := h.boot }

/-- Tenancy rejections are counted per tenancy (Table 16-10). -/
def Dev.countReject (d : Dev) (t : Nat) (st : Status) : Dev :=
  if st = .staleEpoch then d.inc .staleEpochRejects t 0
  else if st = .notPermitted then d.inc .notPermittedRejects t 0
  else d

/-- The final status of a message written as its response, and its place among the messages in progress given
up. A session that has closed meanwhile takes no completion. -/
def Dev.finishNow (d : Dev) (tok : Token) (st : Status) (size : Nat) (body : List Nat) : Dev :=
  let m := d.mbox tok.fn
  let busy := if m.busy == some tok then none else m.busy
  let had := m.busy == some tok || m.asyncs.contains tok
  let d := d.setMbox tok.fn { m with busy := busy, asyncs := m.asyncs.erase tok,
                                     reserved := m.reserved - (if had then tok.reserve else 0) }
  let d := d.countReject tok.tenancy st
  if tok.boot || (d.session tok.fn tok.session).any (fun s => s.serial = tok.serial) then
    d.respond tok st (tok.session != 0) size body
  else d.inc .completionsDiscarded tok.fn 0

/-- The logical core that serves a message: that of its function (R38), L0 for the boot mailbox (R426). -/
def Token.core (tok : Token) : Nat := if tok.boot then 0 else tok.fn % 4

/-- The completion of a message. While its logical core does not run its final status waits in the effect
record (R428, R494). -/
def Dev.finish (d : Dev) (tok : Token) (st : Status) (size : Nat) (body : List Nat) : Dev :=
  if !d.coreUp tok.core then
    { d with mbx := { d.mbx with effects := d.mbx.effects ++ [(tok, st, size, body)] } }
  else d.finishNow tok st size body

/-- A message that stays in progress: its response slots stay reserved (R420). -/
def Dev.keep (d : Dev) (tok : Token) : Dev :=
  let m := d.mbox tok.fn
  if tok.isAsync then
    d.setMbox tok.fn { m with asyncs := m.asyncs ++ [tok], reserved := m.reserved + tok.reserve }
  else d.setMbox tok.fn { m with busy := some tok, reserved := m.reserved + tok.reserve }

/-- The end of a message's own work. -/
def Dev.conclude (tok : Token) (r : Reply × Dev) : Dev :=
  match r.1 with
  | .done st size body => r.2.finish tok st size body
  | .wait => r.2.keep tok
  | .opened k size body =>
    let y := (r.2.session tok.fn k).getD .zero
    r.2.finish { tok with session := k, tenancy := y.tenancy, serial := y.serial } .ok size body
  | .answered => r.2

/-- R417: a request that fails before its opcode's own rules: its window, its counters and its response, which is
sealed from step 4 on when its session is. -/
def Dev.reject (d : Dev) (tok : Token) (h : Hdr) (st : Status) (known : Bool) : Dev :=
  let d := if st = .badSeal && !known then d.inc .badSeal h.fn 0
    else if st = .badSequence then d.inc .badSequence h.fn 0 else d
  let d := if known && st != .badSequence then
      match d.session h.fn h.session with
      | some s => d.setSession h.fn h.session (s.accept h.seq)
      | none => d
    else d
  (d.countReject h.tenancy st).respond tok st (known && h.session != 0) 0 []

/-- An opcode of no row: steps 2 to 4 of R417 hold for it, and step 5 refuses it. -/
def unknownOp (code : Nat) : OpSpec := { code := code, lenOk := fun _ => true, maxBody := 0, open0 := true }

/-- A request with an opcode of no row, started and refused; none where it cannot start yet. -/
def Dev.refuseUnknown (d : Dev) (code : Nat) (h : Hdr) : Option Dev :=
  let o := unknownOp code
  if !d.canStart o h then none
  else if misframed h (d.mbox h.fn) then some (d.ringError h.fn)
  else
    let d := d.take h
    let tok := tokenOf d h o false
    some (match envelope o h d with
      | some (.badSeal, known) => d.reject tok h .badSeal known
      | some (.badSequence, known) => d.reject tok h .badSequence known
      | _ => d.reject tok h .badOpcode true)

/-- The requests of no row's opcode that stand first in the ring of function `f`, as far as they can start. -/
def Dev.serveUnknown (d : Dev) (f : Nat) : Dev :=
  (d.mbox f).unknown.foldl (fun d u =>
    if (d.mbox f).unknown.head? == some u then
      let d' := d.setMbox f { d.mbox f with unknown := (d.mbox f).unknown.tail }
      match d'.refuseUnknown u.1 u.2 with
      | some d => d
      | none => d
    else d) d

/-- The token of a message of the boot mailbox that ROM answers (R479). -/
def romToken (code : Nat) (h : Hdr) : Token :=
  { fn := h.fn, session := 0, tenancy := h.tenancy, seq := h.seq, code := code, isAsync := false, reserve := 0,
    boot := true, serial := 0 }

/-- Whether ROM in recovery has request `h` in the boot mailbox of PF0 or PF1 (R479). -/
def Dev.romHolds (d : Dev) (h : Hdr) : Bool :=
  h.boot && d.boot.stage = 0x0E && decide (h.fn < 2) && (d.mbox h.fn).bootWaiting

/-- The request of the boot mailbox taken by ROM. -/
def Dev.romTake (d : Dev) (f : Nat) : Dev := d.setMbox f { d.mbox f with bootWaiting := false }

/-- One request, from the ring to its response: framing, the checks of R417, the rule of R393 for
maintenance sessions and that of R481 before SYS_READY, then the opcode's own work `act`. ROM in recovery refuses it
(R479). -/
def message (o : OpSpec) (h : Hdr) (act : Sender → Dev → Reply × Dev) (d : Dev) : Dev :=
  let d := if h.boot then d else d.serveUnknown h.fn
  if d.romHolds h then (d.romTake h.fn).respond (romToken o.code h) .badOpcode false 0 []
  else if !d.canStart o h || (!h.boot && !(d.mbox h.fn).unknown.isEmpty) then d
  else if !h.boot && misframed h (d.mbox h.fn) then d.ringError h.fn
  else
    let d := d.take h
    let tok := tokenOf d h o (o.canAsync && h.flags.testBit 0 && !h.boot)
    match envelope o h d with
    | some (st, known) => d.reject tok h st known
    | none =>
      match d.session h.fn h.session with
      | none => d
      | some s =>
        let d := d.setSession h.fn h.session (s.accept h.seq)
        let who : Sender := { role := s.role, tenancy := s.tenancy, epoch := h.epoch, fn := h.fn,
                              session := h.session, tok := tok }
        let body (d : Dev) : Reply × Dev :=
          if s.role == .maint && o.changes then (.say .notPermitted, d)
          else if !o.early && !d.boot.ready then (.say .badState, d)
          else act who d
        if tok.isAsync then
          if 32 ≤ (d.mbox h.fn).asyncs.length then d.respond tok .slotBusy (h.session != 0) 0 []
          else Dev.conclude tok (body (d.respond tok .accepted (h.session != 0) 0 []))
        else Dev.conclude tok (body d)

/-- A message of a running device. -/
def runMessage (o : OpSpec) (h : Hdr) (act : Sender → Dev → Reply × Dev) (s : State) :
    Host.Outcome State Fault Refusal :=
  running (message o h act) s

/-- Whether the sender is the owner: tenancy 0, not maintenance. -/
def Sender.isOwner (w : Sender) : Bool := w.role == .owner

/-- Whether the sender is maintenance. -/
def Sender.isMaint (w : Sender) : Bool := w.role == .maint

/-- R386: whether a named resource has another assignment epoch than the sender expects; epoch 0, unassigned
or being scrubbed, matches nothing. -/
def Sender.stale (w : Sender) (e : Nat) : Bool := e = 0 || e != w.epoch

/-- A body length that must equal `n`. -/
def exactly (n : Nat) : Nat → Bool := fun l => l == n

/-- R395: work that needs a random draw of the Clasp. While draws are stopped the message waits. -/
def drawing (who : Sender) (d : Dev) (act : Dev → Reply × Dev) : Reply × Dev :=
  if d.ten.rngOk then act d
  else (.wait, { d with ten := { d.ten with draws := d.ten.draws ++ [(who.tok, d.now)] } })

/-- Whether a serviced unit is out of service, under test or failed (Table 20-7): Sleeve `s` is unit `s`, physical
core `p` unit 16 + `p`, bank `b` of Sleeve `s` unit 32 + 16`s` + `b`. -/
def Dev.outOfService (d : Dev) (u : Nat) : Bool :=
  match d.boot.units.get? u with
  | some x => x.state != .inService
  | none => false

/-- Whether step 1 of an ejection has been taken (R496). -/
def Dev.ejecting (d : Dev) : Bool := d.boot.eject == .proceeding || d.boot.eject == .ready

/-- A flash operation that waits for its start (R466). -/
def Dev.flashWait (d : Dev) (op : FlashOp) (u : FlashUse) : Dev :=
  { d with island := { d.island with waiting := d.island.waiting ++
      [{ op := op, use := u, since := d.now, recheckAt := none }] } }

/-- Whether a flash operation writes the service record. -/
def FlashUse.isService : FlashUse → Bool
  | .serviceRecord _ => true
  | _ => false

/-- The units that are FAILED (Table 20-7): those of `boot.units`, and the fenced DRAM channels as units 144 + `p`. -/
def Dev.failedUnits (d : Dev) : List Nat :=
  ascending (((d.boot.units.cells.filter fun c => c.2.state == .failed).map (·.1)) ++
    ((d.dram.channels.cells.filter fun c => c.2.state == .fenced).map fun c => 144 + c.1))

/-- R491: a unit has entered or left FAILED: the service record is to be written. -/
def Dev.writeService (d : Dev) : Dev :=
  let d := { d with island := { d.island with waiting := d.island.waiting.filter fun r => !r.use.isService } }
  if d.island.service = d.failedUnits then d else d.flashWait .pageProgram (.serviceRecord d.failedUnits)

end Sys2Proof.Machine
end

