-- ==== Sys2Proof/Machine/MbxOps.lean ====
section
/-! DEFINITION. Sessions that close, functions that are lost, and the events that wait for room (17, 18). -/

namespace Sys2Proof.Machine

/-- Whether a session of tenancy `t` is open; for the owner session 0 of PF0 counts (R413). -/
def Dev.tenancyOpen (d : Dev) (t : Nat) : Bool :=
  d.openSessions.any fun o => o.2.2.role != .maint && o.2.2.tenancy = t && (o.2.1 != 0 || o.1 = 0)

/-- R413: the staged set of a tenancy without an open session is discarded. -/
def Dev.dropStagedOf (d : Dev) (t : Nat) : Dev :=
  if d.tenancyOpen t then d
  else { d with vers := { d.vers with staged := d.vers.staged.filter fun s => s.tenancy != t } }

/-- R413: sealed session `k` of function `f` closes: SESSION_CLOSED with its cause is its last entry where the ring
has room, and its keys are gone. The causes are numbered in the order of R413; their codes are not stated. -/
def Dev.closeSession (d : Dev) (f k cause : Nat) : Dev :=
  match (d.mbox f).sealed.get? k with
  | none => d
  | some s =>
    let x := d.newEvent 0x1104 [Config.closeCause cause]
    let d := x.2
    let d := if d.eventRoom f k x.1 then d.writeEvent f k s x.1 else d
    let m := d.mbox f
    (d.setMbox f { m with sealed := m.sealed.del k }).dropStagedOf s.tenancy

/-- Every sealed session of function `f` closes. -/
def Dev.closeAll (d : Dev) (f cause : Nat) : Dev :=
  (List.range 5).foldl (fun d k => d.closeSession f k cause) d

/-- Every session that `p` picks closes. -/
def Dev.closeWhere (d : Dev) (p : Session → Bool) (cause : Nat) : Dev :=
  d.openSessions.foldl (fun d o => if o.2.1 != 0 && p o.2.2 then d.closeSession o.1 o.2.1 cause else d) d

/-- A DMA read that fails or no longer serves anything: its message completes with BUS_MASTER_OFF. -/
def Dev.failRead (d : Dev) (r : DmaRead) : Dev :=
  match r.use with
  | .message tok (.ucodeLoad _ _) =>
    { d with micro := { d.micro with loading := false } }.finish tok .busMasterOff 0 []
  | .message tok _ => d.finish tok .busMasterOff 0 []
  | .ringFetch _ => d

/-- R430, R449: the reads of function `f`: those on the bus are discarded when they arrive, early completions and
reads without a tag are dropped, and every operation that waits on one fails. -/
def Dev.stopReads (d : Dev) (f : Nat) : Dev :=
  let mine (r : DmaRead) : Bool := r.fn = f && !r.discard
  let live := (d.host.reads.filter mine) ++ (d.host.waitingReads.filter mine)
  let reads := (d.host.reads.filter fun r => !(mine r && r.arrived.isSome)).map fun r =>
    if mine r then { r with discard := true } else r
  let d := { d with host := { d.host with reads := reads,
                                          waitingReads := d.host.waitingReads.filter fun r => !mine r } }
  live.foldl (fun d r => d.failRead r) d

/-- R430: function `f` is lost with a cause of SYS_FN_STATUS, and its teardown starts (R449). A function that is lost
already only takes the new cause. -/
def Dev.loseFunction (d : Dev) (f cause : Nat) : Dev :=
  let m := d.mbox f
  let first := !m.hostLost
  let lost : Mailbox := { m with hostLost := true, halted := true, zeroOpen := false, fetched := m.req.head, unknown := [] }
  let d := d.setMbox f lost
  let d := d.setFend f { d.fend f with teardown := true, lostCause := cause, refetchAt := none }
  let d := (d.stopReads f).closeAll f (if cause = 3 || cause = 5 then 5 else 4)
  let d := if f = 0 then d.dropStagedOf 0 else d
  let copies := (d.mbx.rxQueue.filter fun x => x.1 = f).length
  let d := { d with mbx := { d.mbx with rxQueue := d.mbx.rxQueue.filter fun x => x.1 != f } }.bump .rxRingDrop f 0 copies
  if first then
    d.raise 0x1105 (ownerMaint ++ (match d.fnTenancy f with
      | some t => if t = 0 then [] else [.tenancy t]
      | none => [])) [f]
  else d

/-- R423: the events held for session `k` of function `f`, as far as the ring has room: EVENTS_LOST with the count
first. -/
def Dev.drainSession (d : Dev) (f k : Nat) : Dev :=
  match d.session f k with
  | none => d
  | some s =>
    let d := if s.lost = 0 then d
      else
        let x := d.newEvent 0x1102 [s.lost]
        if x.2.eventRoom f k x.1 then (x.2.setSession f k { s with lost := 0 }).writeEvent f k s x.1 else d
    s.held.foldl (fun d e =>
      match d.session f k with
      | none => d
      | some s =>
        if s.lost = 0 && s.held.head? == some e && d.eventRoom f k e then
          (d.setSession f k { s with held := s.held.tail }).writeEvent f k s e
        else d) d

/-- The held events of every session of function `f`. -/
def Dev.drainEvents (d : Dev) (f : Nat) : Dev := (List.range 5).foldl (fun d k => d.drainSession f k) d

end Sys2Proof.Machine
end

