-- ==== Sys2Proof/Machine/Operands.lean ====
section
/-! DEFINITION. What commands read and write: the fields of the packet context, the sidecar and the
action descriptor, the bytes of a frame, the two hashes, token levels, and the line rates of ports. -/

namespace Sys2Proof.Machine

/-! ### Fields of the context, sidecar and descriptor -/

/-- A field: its least significant bit and its width. -/
structure Fld where
  lo : Nat
  w : Nat

/-- The value of bits `[lo + w - 1 : lo]` of a word. -/
def getBits {n : Nat} (x : BitVec n) (lo w : Nat) : Nat := (x.toNat >>> lo) % 2 ^ w

/-- A word with bits `[lo + w - 1 : lo]` replaced by the low bits of `v`. -/
def putBits {n : Nat} (x : BitVec n) (lo w v : Nat) : BitVec n :=
  BitVec.ofNat n (x.toNat - getBits x lo w * 2 ^ lo + (v % 2 ^ w) * 2 ^ lo)

/-- Several fields written, first to last. -/
def putAll {n : Nat} (x : BitVec n) (fs : List (Fld × Nat)) : BitVec n :=
  fs.foldl (fun x f => putBits x f.1.lo f.1.w f.2) x

/-- A field of a word. -/
def fld {n : Nat} (x : BitVec n) (f : Fld) : Nat := getBits x f.lo f.w

/-- A one-bit field of a word. -/
def flag {n : Nat} (x : BitVec n) (f : Fld) : Bool := x.getLsbD f.lo

/-- A Bool as a bit. -/
def b2n (b : Bool) : Nat := if b then 1 else 0

/-! Table 4-4. -/
def fIngressTs : Fld := ⟨448, 64⟩
def fVersion : Fld := ⟨446, 2⟩
def fEpoch : Fld := ⟨432, 14⟩
def fTenancy : Fld := ⟨428, 4⟩
def fPort : Fld := ⟨421, 7⟩
def fDeep : Fld := ⟨420, 1⟩
def fUrgent : Fld := ⟨419, 1⟩
def fPass : Fld := ⟨417, 2⟩
def fInjected : Fld := ⟨416, 1⟩
def fFrameLen : Fld := ⟨402, 14⟩
def fSliceLen : Fld := ⟨392, 10⟩
def fIncomplete : Fld := ⟨391, 1⟩
def fL3Off : Fld := ⟨382, 9⟩
def fL4Off : Fld := ⟨373, 9⟩
def fTunOff : Fld := ⟨364, 9⟩
def fInL3Off : Fld := ⟨355, 9⟩
def fInL4Off : Fld := ⟨346, 9⟩
def fPayOff : Fld := ⟨337, 9⟩
def fL3Type : Fld := ⟨334, 3⟩
def fL4Type : Fld := ⟨331, 3⟩
def fTunType : Fld := ⟨327, 4⟩
def fInL3Type : Fld := ⟨324, 3⟩
def fInL4Type : Fld := ⟨321, 3⟩
def fVlans : Fld := ⟨318, 3⟩
def fMpls : Fld := ⟨314, 4⟩
def fLayers : Fld := ⟨309, 5⟩
def fVid : Fld := ⟨297, 12⟩
def fPcp : Fld := ⟨294, 3⟩
def fDei : Fld := ⟨293, 1⟩
def fFlags : Fld := ⟨277, 16⟩
def fCause : Fld := ⟨273, 4⟩
def fVector : Fld := ⟨257, 16⟩
def fPatIndex : Fld := ⟨248, 9⟩
def fPatValid : Fld := ⟨247, 1⟩
def fEcpriMsg : Fld := ⟨239, 8⟩
def fEaxc : Fld := ⟨223, 16⟩
def fDirection : Fld := ⟨222, 1⟩
def fPayVersion : Fld := ⟨219, 3⟩
def fFilter : Fld := ⟨215, 4⟩
def fFrameId : Fld := ⟨207, 8⟩
def fSubframe : Fld := ⟨203, 4⟩
def fSlotId : Fld := ⟨197, 6⟩
def fSymbol : Fld := ⟨191, 6⟩
def fFragState : Fld := ⟨188, 3⟩
def fFragIndex : Fld := ⟨176, 12⟩

/-! Table 5-1. -/
def fFlowHit : Fld := ⟨175, 1⟩
def fFlowRef : Fld := ⟨151, 24⟩
def fFlowCtx : Fld := ⟨135, 16⟩
def fFlowMeta : Fld := ⟨119, 16⟩
def fDstHit : Fld := ⟨118, 1⟩
def fDstPort : Fld := ⟨111, 7⟩
def fBd : Fld := ⟨99, 12⟩
def fSrcHit : Fld := ⟨98, 1⟩
def fSrcMoved : Fld := ⟨97, 1⟩
def fLearnReq : Fld := ⟨96, 1⟩

/-! Table 10-1. -/
def fInColour : Fld := ⟨35, 2⟩
def fColour : Fld := ⟨33, 2⟩
def fMetered : Fld := ⟨32, 1⟩
def fRedDrop : Fld := ⟨31, 1⟩
def fDscpRemark : Fld := ⟨30, 1⟩
def fDscp : Fld := ⟨24, 6⟩
def fPcpRemark : Fld := ⟨23, 1⟩
def fPcpVal : Fld := ⟨20, 3⟩
def fColourQueue : Fld := ⟨19, 1⟩
def fQueueVal : Fld := ⟨15, 4⟩

/-! Table 12-1. -/
def fRelState : Fld := ⟨13, 2⟩
def fRelError : Fld := ⟨12, 1⟩
def fRelProfile : Fld := ⟨0, 12⟩

/-! The sidecar (Table 8-2). -/
def sScratch : Fld := ⟨64, 128⟩
def sHookGen : Fld := ⟨63, 1⟩
def sContStage : Fld := ⟨58, 5⟩
def sContWord : Fld := ⟨46, 12⟩
def sFaultCause : Fld := ⟨42, 4⟩
def sFaultStage : Fld := ⟨37, 5⟩
def sClaimed : Fld := ⟨23, 14⟩

/-! The action descriptor: the decision vector (Table 7-6) above the rewrite program. -/
def dDisp : Fld := ⟨192 + 61, 3⟩
def dTarget : Fld := ⟨192 + 49, 12⟩
def dQueue : Fld := ⟨192 + 45, 4⟩
def dColour : Fld := ⟨192 + 43, 2⟩
def dCopy : Fld := ⟨192 + 42, 1⟩
def dMirror : Fld := ⟨192 + 41, 1⟩
def dMirrorSession : Fld := ⟨192 + 37, 4⟩
def dLate : Fld := ⟨192 + 36, 1⟩
def dReason : Fld := ⟨192 + 30, 6⟩
def dActionRef : Fld := ⟨192, 24⟩
def dDecision : Fld := ⟨192, 64⟩
def dProgram : Fld := ⟨0, 192⟩

/-- Bit `i` of parse_flags (Table 4-5). -/
def pflag (c : BitVec 512) (i : Nat) : Bool := c.getLsbD (277 + i)

/-! ### Dispositions and drop reasons (Tables 7-5, 7-7) -/

def dispDrop : Nat := 0
def dispForward : Nat := 1
def dispFlood : Nat := 2
def dispCopyOnly : Nat := 3
def dispRecirc : Nat := 4
def dispBridge : Nat := 5

/-! ### Bytes of a frame -/

/-- Byte `i` of a frame, 0 past its end. -/
def byteAt (bs : List Nat) (i : Nat) : Nat := bs.getD i 0

/-- `n` bytes from offset `o`, zero past the end. -/
def bytesAt (bs : List Nat) (o n : Nat) : List Nat := (List.range n).map fun i => byteAt bs (o + i)

/-- The big-endian value of `n` bytes from offset `o`. -/
def beAt (bs : List Nat) (o n : Nat) : Nat := beNat (bytesAt bs o n)

/-- The bytes `vs` written over a list from offset `o`. -/
def patch (bs : List Nat) (o : Nat) (vs : List Nat) : List Nat :=
  bs.take o ++ vs ++ bs.drop (o + vs.length)

/-- `vs` inserted at offset `o`. -/
def insertAt (bs : List Nat) (o : Nat) (vs : List Nat) : List Nat := bs.take o ++ vs ++ bs.drop o

/-- `n` bytes removed at offset `o`. -/
def removeAt (bs : List Nat) (o n : Nat) : List Nat := bs.take o ++ bs.drop (o + n)

/-! ### Hashes (R105, 05 Hashing and bucket choice) -/

/-- One bit of a reflected 32-bit CRC. -/
def crcBit (poly c : Nat) : Nat := if c.testBit 0 then Nat.xor (c >>> 1) poly else c >>> 1

/-- One byte of a reflected 32-bit CRC. -/
def crcByte (poly c b : Nat) : Nat :=
  let c := Nat.xor c b
  crcBit poly (crcBit poly (crcBit poly (crcBit poly
    (crcBit poly (crcBit poly (crcBit poly (crcBit poly c)))))))

/-- A reflected CRC with initial value and final XOR of all ones. -/
def crc32 (poly : Nat) (bs : List Nat) : Nat :=
  Nat.xor (bs.foldl (crcByte poly) 0xFFFFFFFF) 0xFFFFFFFF

/-- H0: CRC-32C, polynomial 0x1EDC6F41 reflected. -/
def hash0 (bs : List Nat) : Nat := crc32 0x82F63B78 bs

/-- H1: the IEEE 802.3 CRC-32, polynomial 0x04C11DB7 reflected. -/
def hash1 (bs : List Nat) : Nat := crc32 0xEDB88320 bs

/-! ### Ports and rates -/

/-- The port state of port `p`. -/
def Dev.port (d : Dev) (p : Nat) : Port := d.ports.ports.get (.reset p) p

/-- Port `p`'s state replaced. -/
def Dev.setPort (d : Dev) (p : Nat) (x : Port) : Dev :=
  { d with ports := { d.ports with ports := d.ports.ports.set p x } }

/-- Cuff `c`. -/
def Dev.cuff (d : Dev) (c : Nat) : Cuff := d.ports.cuffs.get (.reset c) c

/-- Cuff `c` replaced. -/
def Dev.setCuff (d : Dev) (c : Nat) (x : Cuff) : Dev :=
  { d with ports := { d.ports with cuffs := d.ports.cuffs.set c x } }

/-- Sleeve `s`'s arbiter. -/
def Dev.sleeve (d : Dev) (s : Nat) : SleeveState := d.arch.sleeves.get .reset s

/-- Sleeve `s`'s arbiter replaced. -/
def Dev.setSleeve (d : Dev) (s : Nat) (x : SleeveState) : Dev :=
  { d with arch := { sleeves := d.arch.sleeves.set s x } }

/-- Frame `fid`, if there is one. -/
def Dev.frame (d : Dev) (fid : Nat) : Option Frame := d.ports.frames.get? fid

/-- Frame `fid` stored. -/
def Dev.setFrame (d : Dev) (fid : Nat) (f : Frame) : Dev :=
  { d with ports := { d.ports with frames := d.ports.frames.set fid f } }

/-- Frame `fid` forgotten. -/
def Dev.dropFrame (d : Dev) (fid : Nat) : Dev :=
  { d with ports := { d.ports with frames := d.ports.frames.del fid } }

/-- Work on a frame that exists; none otherwise. -/
def Dev.withFrame (d : Dev) (fid : Nat) (act : Frame → Dev) : Dev :=
  match d.frame fid with
  | some f => act f
  | none => d

/-- Work on a frame that stands at a stage. -/
def Dev.atPhase (d : Dev) (fid : Nat) (ph : Phase) (act : Frame → Dev) : Dev :=
  d.withFrame fid fun f => if f.phase = ph then act f else d

/-- The line rate of a port mode in Gb/s (Table 3-1). -/
def modeGbps : Nat → Nat
  | 1 => 10
  | 2 => 25
  | 3 => 50
  | 4 => 100
  | 5 => 200
  | 6 => 400
  | _ => 0

/-- Lanes that a mode uses (Table 3-1). -/
def modeLanes : Nat → Nat
  | 0 => 0
  | 5 => 2
  | 6 => 4
  | _ => 1

/-- The lanes of port `p`. -/
def Dev.lanesOf (d : Dev) (p : Nat) : List Nat :=
  (List.range (modeLanes (d.port p).cfg.mode)).map (p + ·)

/-- R73: whether port `p` is a companion of another port of its Cuff. -/
def Dev.companion (d : Dev) (p : Nat) : Bool :=
  let base := p / 4 * 4
  (List.range 4).any fun l => base + l < p && p < base + l + modeLanes (d.port (base + l)).cfg.mode

/-- The port that uses a lane, if one does. -/
def Dev.portOfLane (d : Dev) (l : Nat) : Option Nat :=
  let base := l / 4 * 4
  ((List.range 4).map (base + ·)).find? fun p => decide (p ≤ l ∧ l < p + modeLanes (d.port p).cfg.mode)

/-- A lane's locks. -/
def Dev.lane (d : Dev) (l : Nat) : Lane := d.ports.lanes.get .reset l

/-- Whether port `p` is UP. -/
def Dev.isUp (d : Dev) (p : Nat) : Bool := (d.port p).link == .up

/-- The Sleeve that serves port `p`. -/
def Dev.sleeveOf (d : Dev) (p : Nat) : Nat := (d.cuff (p / 4)).sleeve

/-- Whether port `p` is in the deep profile by its accepted configuration. -/
def cfgDeep (r : PortConfigRec) : Bool := r.flags.testBit 2

/-- The slice length of a port configuration (R17, Table 3-8). -/
def cfgSlice (r : PortConfigRec) : Nat := if r.flags.testBit 2 then 512 else r.sliceLen

/-- A port whose urgency map marks any frame urgent. -/
def cfgUrgent (r : PortConfigRec) : Bool :=
  r.urgentPcp % 256 != 0 || r.urgentUntagged.testBit 0

/-- Arrival of a slice in cycles after the start of frame (03). -/
def arrivalCycles (slice len rate : Nat) : Nat := ceilDiv (min slice len * 24) rate

/-- The fixed receive and transmit delays of Table 2-1a in units of 125 ps. -/
def fixedDelays : Nat → Nat → Nat × Nat
  | 1, 0 => (138, 115)
  | 1, _ => (1841, 145)
  | 2, 0 => (112, 92)
  | 2, 1 => (817, 116)
  | 2, _ => (1828, 134)
  | 3, _ => (1093, 154)
  | 4, _ => (683, 154)
  | 5, _ => (710, 167)
  | 6, _ => (504, 167)
  | _, _ => (0, 0)

/-- Cycles that the Sleeve has counted: it counts from the last fundamental reset on. -/
def Dev.sleeveCycles (d : Dev) (_ : Nat) : Nat := d.now

/-! ### Buckets that count whole cycles -/

/-- The level of a bucket that rises by `inc` a cycle up to `cap`. -/
def Tokens.now (t : Tokens) (inc cap now : Nat) : Nat := min (t.level + inc * (now - t.at')) cap

/-- R259: a rate's increment per cycle, in 2^-32 byte. -/
def rateInc (bps : Nat) : Nat := bps * 2 ^ 29 / 3000000000

/-! ### The budget of a Sleeve (R31) -/

/-- Frames of 64 bytes per second of a rate, scaled by `672 × 1,024 × gap` with everything else, so
that the comparison of R31 is exact: the demand of ports, shares and bubbles, times that scale. -/
def demandScaled (ports : List PortConfigRec) (h : Shares) : Nat :=
  let perPort := (ports.map fun r =>
    modeGbps r.mode * 1000000000 * (if cfgDeep r then 2 else 1)).sum
  perPort * 1024 * h.updateGap
    + 3000000000 * (h.recirc + h.inject + h.housekeeping) * 672 * h.updateGap
    + 3000000000 * 672 * 1024

/-- Whether demand stays within the budget of 3.0e9 slots per second. -/
def withinBudget (ports : List PortConfigRec) (h : Shares) : Bool :=
  decide (demandScaled ports h ≤ 3000000000 * 672 * 1024 * h.updateGap)

/-- The configurations of the ports whose Cuffs a Sleeve serves. -/
def Dev.portsOf (d : Dev) (s : Nat) : List PortConfigRec :=
  ((List.range 96).filter fun p => d.sleeveOf p = s && !d.companion p).map fun p => (d.port p).cfg

end Sys2Proof.Machine
end

