-- ==== Sys2Proof/Machine/DramOps.lean ====
section
/-! DEFINITION. The DRAM controller's address map, request entries and command scheduling (14, R335 to
R349): what the chapters that read and write DRAM ask of it. -/

namespace Sys2Proof.Machine

/-! ### The address map (R337, R338) -/

/-- Banks per bank group and the first row of the system area, by component density (Table 14-1). -/
def banksPerGroup (dense : Bool) : Nat := if dense then 4 else 2
def systemRow (dense : Bool) : Nat := if dense then 63488 else 61440

/-- The striped space in MiB (R337). -/
def stripedMib (dense : Bool) : Nat := if dense then 39680 else 19200

/-- The place of byte `off` of granule `n` of a channel (R338). -/
def granulePlace (dense : Bool) (n off : Nat) : DramPlace :=
  let b := banksPerGroup dense
  let row := n / (16 * b)
  { bg := n % 4, bank := Nat.xor (n / 16 % b) (row % b), row := row,
    col := n / 4 % 4 * 256 + off / 128 * 16 }

/-- The logical channel and the place of a striped byte address (R338). -/
def stripePlace (dense : Bool) (s : Nat) : Nat × DramPlace :=
  let g := s / 2048
  (g % 5, granulePlace dense (g / 5) (s % 2048))

/-- The place of byte `a` of a channel's system area. -/
def systemPlace (dense : Bool) (a : Nat) : DramPlace :=
  granulePlace dense (systemRow dense * 16 * banksPerGroup dense + a / 2048) (a % 2048)

/-- The logical channel of a 256-byte unit of the striped space. -/
def unitChannel (u : Nat) : Nat := u * 256 / 2048 % 5

/-! ### Channels -/

/-- Physical channel `p`. -/
def Dev.chan (d : Dev) (p : Nat) : DramChannel := d.dram.channels.get .reset p

/-- Physical channel `p` replaced. -/
def Dev.setChan (d : Dev) (p : Nat) (c : DramChannel) : Dev :=
  { d with dram := { d.dram with channels := d.dram.channels.set p c } }

/-- The physical channel that serves logical channel `l`. -/
def Dev.physical (d : Dev) (l : Nat) : Option Nat :=
  (List.range 6).find? fun p => (d.chan p).logical = some l

/-- Whether a unit of the striped space lies on a channel that serves: the deep-buffer engine and the
Lining skip the others (R354). -/
def Dev.unitServed (d : Dev) (u : Nat) : Bool := (d.physical (unitChannel u)).isSome

/-- The spare channel (R336). -/
def Dev.spareChan (d : Dev) : Option Nat := (List.range 6).find? fun p => (d.chan p).state = .spare

/-- Whether a channel is in none of the states in which firmware may touch it (R346, R347). -/
def DramChannel.inService (c : DramChannel) : Bool :=
  !(c.state == .untrained || c.state == .outOfService || c.state == .fenced)

/-- The active register set (R346). -/
def DramChannel.activeSet (c : DramChannel) : DramSet := if c.sel % 2 = 0 then c.set0 else c.set1

/-- `n` nCK at data-rate code `rate` in core cycles, rounded up. -/
def nckCycles (rate n : Nat) : Nat := ceilDiv (n * 6000) (4800 + 800 * rate)

/-- A field of the active timing word (Table 14-3) in cycles. -/
def DramChannel.time (c : DramChannel) (lo w : Nat) : Nat :=
  let t := c.activeSet.timing
  nckCycles (bits t 126 2) (bits t lo w)

/-- The timing parameters that the scheduler uses. -/
def DramChannel.trcd (c : DramChannel) : Nat := c.time 105 7
def DramChannel.trp (c : DramChannel) : Nat := c.time 98 7
def DramChannel.tras (c : DramChannel) : Nat := c.time 90 8
def DramChannel.trfc (c : DramChannel) : Nat := c.time 79 11
def DramChannel.txs (c : DramChannel) : Nat := c.time 68 11
def DramChannel.trtp (c : DramChannel) : Nat := c.time 54 6
def DramChannel.tfaw (c : DramChannel) : Nat := c.time 35 8
def DramChannel.tdrfm (c : DramChannel) : Nat := c.time 7 10
def DramChannel.nck (c : DramChannel) (n : Nat) : Nat := nckCycles (bits c.activeSet.timing 126 2) n
def DramChannel.cl (c : DramChannel) : Nat := bits c.activeSet.timing 119 7
def DramChannel.cwl (c : DramChannel) : Nat := bits c.activeSet.timing 112 7

/-! ### Request entries (R340) -/

/-- The rank of a request's class (R37, R341). -/
def DramUse.rank : DramUse → Nat
  | .journal => 0
  | .returnRead _ => 1
  | .lining _ _ => 2
  | .spillWrite _ => 3
  | .migrate => 4

/-- The requests of a class in a list. -/
def ofClass (k : Nat) (q : List DramReq) : Nat := (q.filter fun r => r.use.rank = k).length

/-- Whether a request finds an entry: 64 in all, four kept for the journal and eight for return reads, at
most 40 spill writes and 24 Lining requests. -/
def entryFree (q : List DramReq) (u : DramUse) : Bool :=
  match u with
  | .journal => decide (q.length < 64)
  | .returnRead _ => decide (q.length < 60)
  | .lining _ _ => decide (q.length < 52 ∧ ofClass 2 q < 24)
  | .spillWrite _ => decide (q.length < 52 ∧ ofClass 3 q < 40)
  | .migrate => decide (q.length < 52)

/-- Requests that wait take the free entries in their order; those that find none keep waiting. -/
def admitted : List DramReq → List DramReq → List DramReq × List DramReq
  | q, [] => (q, [])
  | q, r :: rs =>
    if entryFree q r.use then admitted (q ++ [r]) rs
    else
      let x := admitted q rs
      (x.1, r :: x.2)

/-- A channel whose waiting requests have taken what entries they can. -/
def DramChannel.letIn (c : DramChannel) : DramChannel :=
  let x := admitted c.queue c.waiting
  { c with queue := x.1, waiting := x.2 }

/-- Requests put to physical channel `p`. -/
def Dev.putReqs (d : Dev) (p : Nat) (rs : List DramReq) : Dev :=
  let c := d.chan p
  d.setChan p { c with waiting := c.waiting ++ rs, lastReq := d.now }.letIn

/-- Requests to logical channel `l`; writes go to both channels of a migration (R351). A channel that
nothing serves takes none. -/
def Dev.request (d : Dev) (l : Nat) (rs : List DramReq) : Dev :=
  match d.physical l with
  | none => d
  | some p =>
    let d := d.putReqs p rs
    match d.dram.migration with
    | some m => if m.src = p then d.putReqs m.dst (rs.filter fun r => r.write) else d
    | none => d

/-- The two requests of a 256-byte unit of the striped space (R339). -/
def unitReqs (use : DramUse) (write : Bool) (now u : Nat) : List DramReq :=
  [0, 128].map fun o =>
    { use := use, write := write, place := (stripePlace Config.dramDense (u * 256 + o)).2, since := now,
      miss := false }

/-- The requests of the units of a frame or record. -/
def Dev.requestUnits (d : Dev) (use : DramUse) (write : Bool) (us : List Nat) : Dev :=
  us.foldl (fun d u => d.request (unitChannel u) (unitReqs use write d.now u)) d

/-- The requests that `p` picks, taken out of every channel: what they asked for is done or given up. -/
def Dev.dropReqs (d : Dev) (p : DramUse → Bool) : Dev :=
  { d with dram := { d.dram with channels := d.dram.channels.map fun _ c =>
      { c with queue := c.queue.filter fun r => !p r.use,
               waiting := c.waiting.filter fun r => !p r.use }.letIn } }

/-- The write of journal record `epoch` with `n` change entries into both copies (R181): the header and
each entry of 256 bytes, in the 4 MiB of the record's place among 64. -/
def Dev.requestJournal (d : Dev) (epoch n : Nat) : Dev :=
  let rs (now : Nat) : List DramReq := (List.range (2 * (n + 1))).map fun i =>
    { use := .journal, write := true, since := now, miss := false,
      place := systemPlace Config.dramDense (epoch % 64 * 2 ^ 22 + i * 128) }
  d.dram.journals.foldl (fun d l => d.request l (rs d.now)) d

/-! ### Commands (R341 to R345) -/

/-- A bank of a channel. -/
def DramChannel.bank (c : DramChannel) (x : DramPlace) : DramBank := c.banks.get .reset (x.bg * 4 + x.bank)

/-- A bank replaced. -/
def DramChannel.setBank (c : DramChannel) (x : DramPlace) (b : DramBank) : DramChannel :=
  { c with banks := c.banks.set (x.bg * 4 + x.bank) b }

/-- Whether `n` cycles have passed since a command, if there was one. -/
def since (t : Option Nat) (n now : Nat) : Bool :=
  match t with
  | some t => decide (t + n ≤ now)
  | none => true

/-- The commands of a request. -/
inductive DramCmd where
  | act
  | pre
  | col
  deriving DecidableEq, Repr

/-- The next command of a request: its row stands open, another does, or none. -/
def nextCmd (c : DramChannel) (r : DramReq) : DramCmd :=
  match (c.bank r.place).row with
  | none => .act
  | some row => if row = r.place.row then .col else .pre

/-- The cycle of physical channel `p`'s refresh slot in the present interval (R344). -/
def Dev.refreshSlot (d : Dev) (p : Nat) : Nat := d.dram.boundaryAt + p * d.dram.interval / 6

/-- Whether a column command keeps its distance from the last one. -/
def colSpaced (c : DramChannel) (r : DramReq) (now : Nat) : Bool :=
  match c.lastCol with
  | none => true
  | some (t, bg, w) =>
    let same := bg = r.place.bg
    let ccd := if same then max (c.nck 8) (c.time 29 6) else c.nck 8
    let wtr := if w && !r.write then
        c.nck (c.cwl + 8) + (if same then c.time 17 7 else c.time 24 5) else 0
    decide (t + max ccd wtr ≤ now)

/-- Whether an activation keeps its distance from the last ones. -/
def actSpaced (c : DramChannel) (r : DramReq) (now : Nat) : Bool :=
  (match c.acts with
   | (t, bg) :: _ => decide (t + (if bg = r.place.bg then c.time 43 6 else c.time 49 5) ≤ now)
   | [] => true) &&
  (match c.acts[3]? with
   | some (t, _) => decide (t + c.tfaw ≤ now)
   | none => true)

/-- Whether timing permits the next command of a request on channel `p`; no column command issues in the
45 cycles before the channel's refresh slot. -/
def Dev.permits (d : Dev) (p : Nat) (r : DramReq) : Bool :=
  let c := d.chan p
  let b := c.bank r.place
  let slot := d.refreshSlot p
  decide (c.refreshEnd ≤ d.now ∧ b.busy ≤ d.now) &&
  (match nextCmd c r with
   | .act => since b.preAt c.trp d.now && actSpaced c r d.now
   | .pre => since b.actAt c.tras d.now && since b.rdAt c.trtp d.now &&
       since b.wrAt (c.nck (c.cwl + 8) + c.time 60 8) d.now
   | .col => since b.actAt c.trcd d.now && colSpaced c r d.now &&
       !(decide (c.refreshed < d.dram.boundaries + 1 ∧ slot ≤ d.now + 45)))

/-- A request that no older one of the same burst precedes (R339). -/
def firstOfBurst (q : List DramReq) (r : DramReq) : Bool :=
  match q.find? fun x => x.place = r.place with
  | some x => x == r
  | none => true

/-- Whether a request's row stands open. -/
def rowHit (c : DramChannel) (r : DramReq) : Bool := nextCmd c r == .col

/-- R341: the order in which requests are chosen: those that the migration's 8 of 64 bursts call for, those
over the age limit, then class by class, the hits of open rows first; each in the order of arrival. -/
def Dev.dramOrder (d : Dev) (c : DramChannel) : List DramReq :=
  let limit := d.dram.config.ageLimitNs * 3
  let q := c.queue.filter (firstOfBurst c.queue)
  let owed := if 64 ≤ c.window + (8 - c.migrated) then q.filter fun r => r.use.rank = 4 else []
  let old := q.filter fun r => decide (r.since + limit < d.now)
  let byClass := (List.range 5).flatMap fun k =>
    let m := q.filter fun r => r.use.rank = k
    m.filter (rowHit c) ++ m.filter fun r => !rowHit c r
  owed ++ old ++ byClass

/-- Removes the first occurrence of a request. -/
def dropReq (q : List DramReq) (r : DramReq) : List DramReq := q.erase r

/-- R345: whether an ACT marks its row, with probability 2^-k. -/
def Dev.drawMark (d : Dev) : Bool × Dev :=
  let x := d.draw
  (Config.freeDraw x.1 % 2 ^ d.dram.config.drfmK == 0, x.2)

/-- A row that closes; a marked one has its DRFM, which holds the bank. -/
def DramBank.close (b : DramBank) (now hold : Nat) : DramBank :=
  { b with row := none, preAt := some now, marked := false,
           busy := if b.marked then now + hold else b.busy }

/-- A request noted as one that did not find its row open. -/
def missed (q : List DramReq) (r : DramReq) : List DramReq :=
  q.map fun x => if x == r then { x with miss := true } else x

/-- The channel after the column command of a request. -/
def afterColumn (c : DramChannel) (r : DramReq) (now : Nat) : DramChannel :=
  let b := c.bank r.place
  let b := if r.write then { b with wrAt := some now } else { b with rdAt := some now }
  let n := if c.window = 63 then 0 else c.window + 1
  let g := if n = 0 then 0 else if r.use.rank = 4 then c.migrated + 1 else c.migrated
  let reads := if r.write then c.reads else c.reads ++ [(r, now + c.nck (c.cl + 8) + 12)]
  let c := c.setBank r.place b
  { c with queue := dropReq c.queue r, window := n, migrated := g,
           lastCol := some (now, r.place.bg, r.write), reads := reads }.letIn

/-- The channel after an activation, whose row is marked or not. -/
def afterAct (c : DramChannel) (r : DramReq) (now : Nat) (mark : Bool) : DramChannel :=
  let b : DramBank := { c.bank r.place with row := some r.place.row, actAt := some now, rdAt := none,
                                            wrAt := none, marked := mark }
  let c := c.setBank r.place b
  { c with acts := ((now, r.place.bg) :: c.acts).take 4, queue := missed c.queue r }

/-- The command that a chosen request issues. -/
def Dev.issueCmd (d : Dev) (p : Nat) (r : DramReq) : Dev :=
  let c := d.chan p
  let b := c.bank r.place
  match nextCmd c r with
  | .act =>
    let m := d.drawMark
    m.2.setChan p (afterAct c r d.now m.1)
  | .pre =>
    let d := if b.marked then d.inc .drfm p 0 else d
    let c := c.setBank r.place (b.close d.now (c.trp + c.tdrfm))
    d.setChan p { c with queue := missed c.queue r }
  | .col =>
    let d := d.setChan p (afterColumn c r d.now)
    let d := d.inc (if r.write then Ctr.dramWrites else Ctr.dramReads) p 0
    let d := if r.miss then d else d.inc .rowHits p 0
    if decide (r.since + d.dram.config.ageLimitNs * 3 < d.now) then d.inc .agePromotions p 0 else d

/-- Every row of a channel closed, with the DRFM of each marked one counted. -/
def Dev.closeRows (d : Dev) (p : Nat) : Dev :=
  let c := d.chan p
  let n := (c.banks.cells.filter fun b => b.2.marked).length
  let shut (_ : Nat) (b : DramBank) : DramBank :=
    if b.row.isSome then b.close d.now (c.trp + c.tdrfm) else b
  (d.bump .drfm p 0 n).setChan p { c with banks := c.banks.map shut }

end Sys2Proof.Machine
end

