-- ==== Sys2Proof/Machine/YokeOps.lean ====
section
/-! DEFINITION. The Yoke's shared operations: Pockets, pools and caches, queues and descriptors, the
references of a frame, discards and drops, and the operations that several chapters' commands use on
queues and calendars. -/

namespace Sys2Proof.Machine

/-! ### Pools and Pockets (R226 to R236) -/

/-- Pool `k`. -/
def Dev.pool (d : Dev) (k : Nat) : Pool := d.yoke.pools.get .reset k

/-- Pool `k` replaced. -/
def Dev.setPool (d : Dev) (k : Nat) (p : Pool) : Dev :=
  { d with yoke := { d.yoke with pools := d.yoke.pools.set k p } }

/-- Pocket `n`'s metadata. -/
def Dev.pocket (d : Dev) (n : Nat) : Pocket := d.yoke.pockets.get .reset n

/-- Pocket `n`'s metadata replaced. -/
def Dev.setPocket (d : Dev) (n : Nat) (p : Pocket) : Dev :=
  { d with yoke := { d.yoke with pockets := d.yoke.pockets.set n p } }

/-- Pockets of a list of ranges. -/
def rangeCount (rs : List (Nat × Nat)) : Nat := (rs.map (·.2)).sum

/-- The first Pocket of a list of ranges, and the rest. -/
def popRange : List (Nat × Nat) → Option (Nat × List (Nat × Nat))
  | [] => none
  | (_, 0) :: rs => popRange rs
  | (s, n + 1) :: rs => some (s, if n = 0 then rs else (s + 1, n) :: rs)

/-- The first `n` Pockets of a list of ranges, as ranges, and the rest. -/
def takeRanges : List (Nat × Nat) → Nat → List (Nat × Nat) × List (Nat × Nat)
  | [], _ => ([], [])
  | (s, k) :: rs, n =>
    if n = 0 then ([], (s, k) :: rs)
    else if k ≤ n then
      let r := takeRanges rs (n - k)
      ((s, k) :: r.1, r.2)
    else ([(s, n)], (s + n, k - n) :: rs)

/-- The free count of a pool (R229). -/
def Pool.freeCount (p : Pool) : Nat := rangeCount p.free

/-- The audience of a pool's events. -/
def poolAud (p : Pool) : List Aud := ownerAnd p.tenancy

/-- R236: the low-water mark. A free count that falls below 896 raises POOL_LOW_WATER, and again only
after it has reached 1,024. -/
def Dev.markLow (d : Dev) (k before : Nat) : Dev :=
  let p := d.pool k
  let n := p.freeCount
  if 1024 ≤ n then d.setPool k { p with low := false }
  else if n < 896 && 896 ≤ before && !p.low then
    (d.setPool k { p with low := true }).raise 0x0904 (poolAud p) [k, n]
  else d

/-- R230, R231: one Pocket granted to a unit from the head of a pool, or none when the pool is empty.
The owner tag takes the unit (R227). -/
def Dev.grant (d : Dev) (unit k : Nat) : Option Nat × Dev :=
  let p := d.pool k
  match popRange p.free with
  | none =>
    let d := (d.inc .poolAllocFail k 0)
    if p.failed then (none, d)
    else (none, (d.setPool k { p with failed := true }).raise 0x0905 (poolAud p) [k])
  | some (n, rest) =>
    let ptr := if rest.isEmpty then (unit + 1) % 128 else p.pointer
    let d := d.setPool k { p with free := rest, failed := false, pointer := ptr }
    let m : Pocket := { allocated := true, pool := k, unit := unit, refs := 0, next := 0,
                        last := false, fill := 0, served := some p.tenancy }
    let d := (d.setPocket n m).inc .poolAlloc k 0
    (some n, d.markLow k p.freeCount)

/-- The pools that the cache of unit `u` serves. -/
def Dev.cache (d : Dev) (u : Nat) : List Served := d.yoke.caches.get [] u

/-- The cache of unit `u` replaced. -/
def Dev.setCache (d : Dev) (u : Nat) (c : List Served) : Dev :=
  { d with yoke := { d.yoke with caches := d.yoke.caches.set u c } }

/-- R235: one Pocket of a pool for a cache's unit: from the cache, or through it from the pool head. -/
def Dev.allocate (d : Dev) (u k : Nat) : Option Nat × Dev :=
  match (d.cache u).find? fun s => s.pool = k with
  | some s =>
    let used (held : List Nat) : List Served :=
      (d.cache u).map fun x => if x.pool = k then { x with held := held, used := d.now } else x
    match s.held with
    | n :: held => (some n, d.setCache u (used held))
    | [] => (d.setCache u (used [])).grant u k
  | none => d.grant u k

/-- R234: Pockets enter pool `k` from the reserve until it has its size. -/
def Dev.fillPool (d : Dev) (k : Nat) : Dev :=
  let p := d.pool k
  let (rs, rest) := takeRanges d.yoke.reserve (p.size - p.total)
  if rs.isEmpty then d
  else
    let d := { d with yoke := { d.yoke with reserve := rest } }
    let d := d.setPool k { p with total := p.total + rangeCount rs, free := p.free ++ rs }
    d.markLow k p.freeCount

/-- The pools that have grown take what the reserve holds, lowest first. -/
def Dev.fillPools (d : Dev) : Dev := (List.range 32).foldl (fun d k => d.fillPool k) d

/-- A Pocket that is back in its pool: its list's head, or the reserve while the pool shrinks (R234). -/
def Dev.rejoin (d : Dev) (n k : Nat) : Dev :=
  let p := d.pool k
  if p.size < p.total then
    let d := d.setPool k { p with total := p.total - 1 }
    { d with yoke := { d.yoke with reserve := d.yoke.reserve ++ [(n, 1)] } }.fillPools
  else
    let d := d.setPool k { p with free := (n, 1) :: p.free }
    d.markLow k p.freeCount

/-- R232: a free of Pocket `n` by a unit, refused when it is double or foreign. -/
def Dev.freePocket (d : Dev) (u n : Nat) : Dev :=
  let m := d.pocket n
  if !m.allocated then
    (d.inc .doubleFree 0 0).raise 0x0901 ownerMaint [n, u, m.unit]
  else if m.unit != u then
    (d.inc .foreignFree 0 0).raise 0x0902 ownerMaint [n, u, m.unit]
  else
    let d := d.setPocket n { m with allocated := false, unit := 0, refs := 0, next := 0,
                                    last := false, fill := 0 }
    d.rejoin n m.pool

/-- Frees in chain order (R233). -/
def Dev.freeAll (d : Dev) (u : Nat) (ns : List Nat) : Dev := ns.foldl (fun d n => d.freePocket u n) d

/-- R227: a hand-over of Pockets from one unit to another, refused for a Pocket that the first does
not own. -/
def Dev.handOver (d : Dev) (u v : Nat) (ns : List Nat) : Dev :=
  ns.foldl (fun d n =>
    let m := d.pocket n
    if m.unit = u then d.setPocket n { m with unit := v }
    else (d.inc .foreignFree 0 0).raise 0x0902 ownerMaint [n, u, m.unit]) d

/-- The fields of a chain's metadata written: next, last and fill of each Pocket of a frame of `len`
bytes. -/
def Dev.chain (d : Dev) (len : Nat) : List Nat → Dev
  | [] => d
  | [n] => d.setPocket n { d.pocket n with next := 0, last := true, fill := (len - 1) % 256 }
  | n :: m :: ns =>
    (d.setPocket n { d.pocket n with next := m, last := false, fill := 255 }).chain (len - 256) (m :: ns)

/-- Pockets of a frame of `len` bytes (R226). -/
def pocketsOf (len : Nat) : Nat := ceilDiv len 256

/-- The unit that owns a frame's Pockets before the queue manager does: the receive cache of its
Sleeve, or the internal cache for a frame of the Collar or of a replay. -/
def Frame.ownUnit (f : Frame) : Nat :=
  match f.origin with
  | .cuff => f.sleeve
  | _ => 8 + f.sleeve

/-! ### Counting a packet out of its version slot (R175) -/

/-- The in-flight count of slot `v` in Sleeve `s`. -/
def Dev.inflight (d : Dev) (v s : Nat) : Nat := d.vers.inflight.get 0 (v * 8 + s)

/-- The in-flight count changed. -/
def Dev.setInflight (d : Dev) (v s n : Nat) : Dev :=
  { d with vers := { d.vers with inflight := d.vers.inflight.set (v * 8 + s) n } }

/-- A frame that is in flight in its version slot. -/
def Frame.flying (f : Frame) : Bool :=
  match f.phase with
  | .slot => decide (0 < f.pass)
  | .yoke => false
  | .done => false
  | _ => true

/-- The packet leaves its slot: the count of its stamp in its Sleeve falls. -/
def Dev.land (d : Dev) (f : Frame) : Dev :=
  let v := fld f.ctx fVersion
  d.setInflight v f.sleeve (d.inflight v f.sleeve - 1)

/-- R522: the packet's place in the recirculation queue given up. -/
def Dev.leavePlace (d : Dev) (fid : Nat) (f : Frame) : Dev :=
  let s := d.sleeve f.sleeve
  d.setSleeve f.sleeve { s with recirc := s.recirc.filter fun r => r.fid != fid }

/-- R522: a place taken, if the packet holds one already or one of the 64 is free. -/
def Dev.takePlace (d : Dev) (fid : Nat) (f : Frame) : Option Dev :=
  if f.place then some d
  else
    let s := d.sleeve f.sleeve
    if s.recirc.length < 64 then
      some (d.setSleeve f.sleeve { s with recirc := s.recirc ++ [{ fid := fid, readyAt := none }] })
    else none

/-! ### References and the end of a frame (R233) -/

/-- A frame without descriptors, copies or bytes still to come has its Pockets freed and is gone. -/
def Dev.settle (d : Dev) (fid : Nat) : Dev :=
  d.withFrame fid fun f =>
    if f.phase = .done && f.refs = 0 && f.copies.isEmpty && f.ended then
      (d.freeAll 16 f.pockets).dropFrame fid
    else d

/-- The references of a frame in its first Pocket. -/
def Dev.setRefs (d : Dev) (fid : Nat) (f : Frame) (n : Nat) : Dev :=
  let d := match f.pockets with
    | p :: _ => d.setPocket p { d.pocket p with refs := n % 256 }
    | [] => d
  d.setFrame fid { f with refs := n }

/-- One reference given up by a transmission, delivery or discard. -/
def Dev.unref (d : Dev) (fid : Nat) : Dev :=
  (d.withFrame fid fun f => d.setRefs fid f (f.refs - 1)).settle fid

/-! ### Queues -/

/-- The key of queue `q` of port `p`. -/
def qKey (p q : Nat) : Nat := p * 16 + q

/-- What queue `q` of port `p` holds, head first. -/
def Dev.queue (d : Dev) (p q : Nat) : List QEntry := d.yoke.queues.get [] (qKey p q)

/-- Pockets that a queue holds now: those of its entries that are not in DRAM. -/
def queuePockets (es : List QEntry) : Nat := (es.map fun e => if e.spill < 2 then e.pockets else 0).sum

/-- A queue's contents replaced; the most Pockets held since the last read is kept, and a queue that
becomes empty loses its deficit (R279). -/
def Dev.setQueue (d : Dev) (p q : Nat) (es : List QEntry) : Dev :=
  let k := qKey p q
  let y := { d.yoke with queues := d.yoke.queues.set k es,
                         queueMax := d.yoke.queueMax.set k
                           (max (d.yoke.queueMax.get 0 k) (queuePockets es)) }
  let d := { d with yoke := y }
  if es.isEmpty then
    let s := d.queues.queues.get .reset k
    { d with queues := { d.queues with queues := d.queues.queues.set k { s with deficit := 0 } } }
  else d

/-- The buffering of a queue (Table 9-8). -/
def Dev.buf (d : Dev) (p q : Nat) : QueueBufRec := d.yoke.bufs.get (queueBufReset p q) (qKey p q)

/-- The tenancy that holds queue `q` of port `p` (kind 1). -/
def Dev.queueTenancy (d : Dev) (p q : Nat) : Option Nat := (d.unit 1 (qKey p q)).tenancy

/-- Whether a tenancy holds a queue of a port: the queue ownership map. -/
def Dev.holdsQueue (d : Dev) (t p q : Nat) : Bool := decide (p < 96 ∧ q < 16) && d.holds t 1 (qKey p q)

/-- Descriptors in the store (R239). -/
def descTotal : Nat := 1048576

/-- One descriptor taken or returned. -/
def Dev.addDesc (d : Dev) (n : Nat) : Dev := { d with yoke := { d.yoke with descUsed := d.yoke.descUsed + n } }
def Dev.subDesc (d : Dev) (n : Nat) : Dev := { d with yoke := { d.yoke with descUsed := d.yoke.descUsed - n } }

/-- A drop of the Yoke on a queue, with a reason 24 to 26 (Table 9-9). -/
def Dev.queueDrop (d : Dev) (p q reason : Nat) : Dev := d.inc .queueDrops (qKey p q) reason

/-- A packet dropped after stage 18, counted with its reason (Table 7-10). -/
def Dev.fateDrop (d : Dev) (fid reason : Nat) : Dev :=
  d.withFrame fid fun f => d.inc .drops (f.sleeve * 16 + fld f.ctx fTenancy) reason

/-- The length on the wire of a frame of `len` bytes at port `p` (R240): preamble, gap, and MACsec
expansion where egress MACsec transmit is enabled. -/
def Dev.lenTx (d : Dev) (p len : Nat) : Nat :=
  len + 20 + (if (d.cipher.txPorts.get (macsecPortReset p) p).flags.testBit 0 then 32 else 0)

/-- Transmission cycles at port `p` (R240). -/
def Dev.txCycles (d : Dev) (p lenTx : Nat) : Nat := ceilDiv (lenTx * 24) (modeGbps (d.port p).cfg.mode)

/-- The units of a spilled frame returned to the region. -/
def Dev.freeUnits (d : Dev) (us : List Nat) : Dev :=
  { d with yoke := { d.yoke with spillUnits := d.yoke.spillUnits.filter fun u => !us.contains u } }

/-- A queue entry that leaves its queue without transmission: its descriptor, units and reference are
given up. -/
def Dev.discardEntry (d : Dev) (e : QEntry) : Dev :=
  (((d.subDesc 1).freeUnits e.units).unref e.fid)

/-- R249: lost frames that have reached the head of a queue are removed and counted. -/
def Dev.trimQueue (d : Dev) (p q : Nat) : Dev :=
  let es := d.queue p q
  let lost := es.takeWhile fun e => e.spill = 3
  if lost.isEmpty then d
  else lost.foldl (fun d e => (d.discardEntry e).inc .spillLost (qKey p q) 0)
    (d.setQueue p q (es.dropWhile fun e => e.spill = 3))

/-- A queue after an entry has left it. -/
def Dev.leaveQueue (d : Dev) (p q : Nat) (es : List QEntry) : Dev := (d.setQueue p q es).trimQueue p q

/-- R82: whether port `p` flushes: not UP, and its action is flush or its hold has expired. -/
def Dev.flushes (d : Dev) (p : Nat) : Bool :=
  let x := d.port p
  !d.isUp p && (!x.txCfg.flags.testBit 3 || x.flushing)

/-- Network time in units of 2^-16 ns. -/
def Dev.time16 (d : Dev) : Int := (d.hem.acc / 2 ^ 32 : Nat)

/-- A stamp in units of 2^-16 ns. -/
def Stamp.time16 (s : Stamp) : Int := (s.sec * 1000000000 + s.ns : Nat) * 65536 + (s.frac : Int)

/-- The modulus of network time in units of 2^-16 ns, and the signed difference `a − b` (R47). -/
def wrap16 : Int := 2 ^ 48 * 1000000000 * 65536
def diff16 (a b : Int) : Int :=
  let m := (a - b) % wrap16
  if m < wrap16 / 2 then m else m - wrap16

end Sys2Proof.Machine
end

