-- ==== Sys2Proof/Machine/Flags.lean ====
section
/-! DEFINITION. The parser's flags and length checks, layer by layer (04), and the flags of the stage
engines' ALU slots (08). -/

namespace Sys2Proof.Machine

/-! ### The parser (R91 to R104) -/

/-- What the parser reads under: the bytes of the slice, the length its length fields are checked
against (R95, R97), whether the frame is longer than the slice, the limits of the profile (Table 4-1),
the port's record and PTP settings, and whether extraction is possible. -/
structure ParseEnv where
  bytes : List Nat
  limitLen : Nat
  incomplete : Bool
  byteLimit : Nat
  layerLimit : Nat
  vlanMax : Nat
  mplsMax : Nat
  deep : Bool
  rec' : ParsePortRec
  ptp : PtpPort

/-- The parser between two headers: the context so far, where the next header starts, the layers,
whether a tunnel's inner header has been reached, the end of the innermost IP payload and of the UDP
payload, the fragmented layer's first fragment, and the claimed end (R97). -/
structure ParseAt where
  c : BitVec 512
  off : Nat
  layers : Nat
  vlans : Nat
  mpls : Nat
  inner : Bool
  ipSeen : Bool
  ipVersion : Nat
  ipEnd : Nat
  udpEnd : Nat
  firstFrag : Bool
  fragSeen : Bool
  src : List Nat
  dst : List Nat
  claimed : Nat
  note : ParseNote

/-- What the next header is expected to be (Table 4-2). -/
inductive Next where
  | ethernet
  | ethertype (t : Nat)
  | mpls
  | nibble (gtp : Bool)
  | ipv4
  | ipv6
  | proto (p : Nat)
  | udpPort (p : Nat)
  | gtpExt (t msg gtpEnd : Nat)

/-- Set bit `i` of parse_flags. -/
def setFlag (c : BitVec 512) (i : Nat) : BitVec 512 := putBits c (277 + i) 1 1

/-- Parsing ends at an unrecognised next protocol. -/
def unknownNext (a : ParseAt) : Option Next × ParseAt := (none, { a with c := setFlag a.c 15 })

/-- Parsing ends normally. -/
def parseEnd (a : ParseAt) : Option Next × ParseAt := (none, a)

/-- R93: parsing stops before a header beyond a limit. -/
def truncated (a : ParseAt) : Option Next × ParseAt := (none, { a with c := setFlag a.c 0 })

/-- R95: parsing stops at a malformed layer with a cause of Table 4-3. -/
def malformed (a : ParseAt) (cause : Nat) : Option Next × ParseAt :=
  (none, { a with c := putBits (setFlag a.c 1) fCause.lo fCause.w cause,
                  note := { a.note with fragBad := a.note.fragBad || cause = 10 } })

/-- A header of `n` bytes at the present offset: FRAME_SHORT where it passes the received bytes, a
truncation where it passes the byte limit, otherwise `k`. -/
def fits (e : ParseEnv) (a : ParseAt) (n : Nat) (k : Unit → Option Next × ParseAt) :
    Option Next × ParseAt :=
  if !e.incomplete && decide (e.limitLen < a.off + n) then malformed a 1
  else if decide (e.byteLimit < a.off + n) then truncated a
  else k ()

/-- One more layer, if the layer limit leaves room. -/
def layer (e : ParseEnv) (a : ParseAt) (k : Unit → Option Next × ParseAt) : Option Next × ParseAt :=
  if decide (e.layerLimit ≤ a.layers) then truncated a else k ()

/-- Byte `i` of the next header. -/
def hdrByte (e : ParseEnv) (a : ParseAt) (i : Nat) : Nat := byteAt e.bytes (a.off + i)

/-- A length claim that ends at `z`, checked against the received bytes or max_frame. -/
def claims (e : ParseEnv) (a : ParseAt) (z cause : Nat) (k : ParseAt → Option Next × ParseAt) :
    Option Next × ParseAt :=
  if e.limitLen < z then malformed a cause else k { a with claimed := max a.claimed z }

/-- The present header counted and passed. -/
def pass (a : ParseAt) (n : Nat) : ParseAt := { a with off := a.off + n, layers := a.layers + 1 }

/-- The outermost network layer recorded, or the innermost one inside a tunnel. -/
def markL3 (a : ParseAt) (t : Nat) : ParseAt :=
  if fld a.c fL3Type = 0 && !a.inner then
    { a with c := putAll a.c [(fL3Off, a.off), (fL3Type, t)] }
  else if (a.inner || fld a.c fTunType != 0) && (t = 1 || t = 2) then
    { a with inner := true, c := putAll a.c [(fInL3Off, a.off), (fInL3Type, t)] }
  else a

/-- An L4 header recorded, outside or inside a tunnel. -/
def markL4 (a : ParseAt) (t : Nat) : ParseAt :=
  if a.inner then { a with c := putAll a.c [(fInL4Off, a.off), (fInL4Type, t)] }
  else if fld a.c fL4Type = 0 then { a with c := putAll a.c [(fL4Off, a.off), (fL4Type, t)] }
  else a

/-- The first tunnel header recorded. -/
def markTun (a : ParseAt) (t : Nat) : ParseAt :=
  if fld a.c fTunType = 0 then { a with c := putAll a.c [(fTunOff, a.off), (fTunType, t)] } else a

/-- The Ethertypes of Table 4-2. -/
def afterType (t : Nat) : Option Next :=
  if t = 0x8100 || t = 0x88A8 || t = 0x9100 then some (.ethertype t)
  else if t = 0x8847 || t = 0x8848 then some .mpls
  else if t = 0x0800 then some .ipv4
  else if t = 0x86DD then some .ipv6
  else if t = 0xAEFE || t = 0x88F7 || t = 0x0806 then some (.ethertype t)
  else none

/-- Go on after an Ethertype. -/
def goType (a : ParseAt) (t : Nat) : Option Next × ParseAt :=
  match afterType t with
  | some n => (some n, a)
  | none => unknownNext a

/-- Ethernet II. -/
def parseEthernet (e : ParseEnv) (a : ParseAt) : Option Next × ParseAt :=
  layer e a fun _ => fits e a 14 fun _ =>
    let dst := bytesAt e.bytes a.off 6
    let c := if a.off = 0 then
        if dst.all (· == 255) then setFlag a.c 14
        else if (byteAt e.bytes 0).testBit 0 then setFlag a.c 13 else a.c
      else setFlag a.c 11
    let eth := if a.note.innerEth = 0 then a.off else a.note.innerEth
    let a' := pass { a with c := c, inner := a.inner || a.off != 0,
                            note := { a.note with innerEth := eth } } 14
    goType a' (beAt e.bytes (a.off + 12) 2)

/-- A VLAN tag. -/
def parseVlan (e : ParseEnv) (a : ParseAt) : Option Next × ParseAt :=
  if e.vlanMax ≤ a.vlans then truncated a else
  layer e a fun _ => fits e a 4 fun _ =>
    let tci := beAt e.bytes a.off 2
    let c := if a.vlans = 0 && !a.inner then
        putAll a.c [(fVid, tci % 4096), (fDei, tci / 4096 % 2), (fPcp, tci / 8192)]
      else a.c
    let c := putBits c fVlans.lo fVlans.w (min (a.vlans + 1) 7)
    let a' := pass { a with c := c, vlans := a.vlans + 1 } 4
    goType a' (beAt e.bytes (a.off + 2) 2)

/-- An MPLS label. -/
def parseMpls (e : ParseEnv) (a : ParseAt) : Option Next × ParseAt :=
  if e.mplsMax ≤ a.mpls then truncated a else
  layer e a fun _ => fits e a 4 fun _ =>
    let a' := markL3 a 3
    let c := putBits a'.c fMpls.lo fMpls.w (min (a.mpls + 1) 15)
    let bottom := (hdrByte e a 2).testBit 0
    let a' := pass { a' with c := c, mpls := a.mpls + 1 } 4
    (some (if bottom then .nibble false else .mpls), a')

/-- The first nibble after an MPLS stack or a GTP-U header. -/
def parseNibble (e : ParseEnv) (a : ParseAt) : Option Next × ParseAt :=
  if e.bytes.length ≤ a.off then (if e.incomplete then truncated a else unknownNext a)
  else
    let n := hdrByte e a 0 / 16
    if n = 4 then (some .ipv4, a) else if n = 6 then (some .ipv6, a) else unknownNext a

/-- The protocols and next headers of Table 4-2. -/
def knownProto (v p : Nat) : Bool :=
  p = 17 || p = 6 || p = 132 || p = 1 || p = 58 || p = 47 || p = 4 || p = 41 ||
    (v = 6 && (p = 0 || p = 43 || p = 44 || p = 60))

/-- Go on after a protocol field. -/
def goProto (a : ParseAt) (p : Nat) : Option Next × ParseAt :=
  if !knownProto a.ipVersion p then unknownNext a
  else if p = 4 then (some .ipv4, a) else if p = 41 then (some .ipv6, a) else (some (.proto p), a)

/-- R103, R104: the fragmented layer noted, from the layer's identification, protocol, offset,
more-fragments bit and data length; `k` parses on into a first fragment. -/
def fragment (a : ParseAt) (tenancy v ident p offset dataLen : Nat) (more : Bool) (after : ParseAt)
    (k : ParseAt → Option Next × ParseAt) : Option Next × ParseAt :=
  if offset = 0 && !more then k after
  else if a.fragSeen then k after
  else if (more && dataLen % 8 != 0) || 65535 < offset * 8 + dataLen then
    malformed { a with note := { a.note with fragBad := true } } 10
  else
    let key : FragKey := [v, tenancy, p, 0] ++ beBytes 4 ident
      ++ (List.replicate (16 - a.src.length) 0 ++ a.src)
      ++ (List.replicate (16 - a.dst.length) 0 ++ a.dst)
    let c := setFlag after.c 2
    let first := offset = 0
    let after := { after with
      c := if first then setFlag c 3 else c, fragSeen := true, firstFrag := first
      note := { after.note with fragKey := some key, later := !first } }
    if first then k after else parseEnd after

/-- The tenancy in the context. -/
def ctxTenancy (c : BitVec 512) : Nat := fld c fTenancy

/-- IPv4. -/
def parseIpv4 (e : ParseEnv) (a : ParseAt) : Option Next × ParseAt :=
  layer e a fun _ => fits e a 20 fun _ =>
    let ihl := hdrByte e a 0 % 16
    let total := beAt e.bytes (a.off + 2) 2
    fits e a (ihl * 4) fun _ =>
      if ihl < 5 || total < ihl * 4 then malformed a 2
      else claims e a (a.off + total) 3 fun a =>
        let p := hdrByte e a 9
        let fo := beAt e.bytes (a.off + 6) 2
        let c := if 5 < ihl then setFlag a.c 4 else a.c
        let c := if !a.ipSeen && hdrByte e a 8 ≤ 1 then setFlag c 12 else c
        let a0 := { a with src := bytesAt e.bytes (a.off + 12) 4, dst := bytesAt e.bytes (a.off + 16) 4 }
        let a' := pass (markL3 { a0 with c := c } 1) (ihl * 4)
        let a' := { a' with ipSeen := true, ipVersion := 4, ipEnd := a.off + total }
        fragment a0 (ctxTenancy a.c) 4 (beAt e.bytes (a.off + 4) 2) p (fo % 8192) (total - ihl * 4)
          (fo.testBit 13) a' fun a' => goProto a' p

/-- IPv6. -/
def parseIpv6 (e : ParseEnv) (a : ParseAt) : Option Next × ParseAt :=
  layer e a fun _ => fits e a 40 fun _ =>
    let z := a.off + 40 + beAt e.bytes (a.off + 4) 2
    claims e a z 4 fun a =>
      let c := if !a.ipSeen && hdrByte e a 7 ≤ 1 then setFlag a.c 12 else a.c
      let nh := hdrByte e a 6
      let src := bytesAt e.bytes (a.off + 8) 16
      let dst := bytesAt e.bytes (a.off + 24) 16
      let a' := pass (markL3 { a with c := c } 2) 40
      goProto { a' with ipSeen := true, ipVersion := 6, ipEnd := z, src := src, dst := dst } nh

/-- An IPv6 extension header: hop-by-hop, routing, fragment or destination options. -/
def parseExt (e : ParseEnv) (a : ParseAt) (p : Nat) : Option Next × ParseAt :=
  layer e a fun _ => fits e a 8 fun _ =>
    let n := if p = 44 then 8 else (hdrByte e a 1 + 1) * 8
    let nh := hdrByte e a 0
    let srh := p = 43 && hdrByte e a 2 = 4
    if srh && 16 < hdrByte e a 4 + 1 then truncated a else
    fits e a n fun _ =>
      if a.ipEnd < a.off + n then malformed a 5
      else if srh && (hdrByte e a 1 != 2 * (hdrByte e a 4 + 1) || hdrByte e a 4 < hdrByte e a 3) then
        malformed a 8
      else
        let a1 := if srh then { markTun a 4 with c := setFlag (markTun a 4).c 6 } else a
        let a' := pass { a1 with c := setFlag a1.c 5 } n
        if p = 44 then
          let fo := beAt e.bytes (a.off + 2) 2
          fragment a (ctxTenancy a.c) 6 (beAt e.bytes (a.off + 4) 4) nh (fo / 8)
            (a.ipEnd - (a.off + 8)) (fo.testBit 0) a' fun a' => goProto a' nh
        else goProto a' nh

/-- L4: a header of `n` bytes that the IP payload must hold. -/
def l4Room (e : ParseEnv) (a : ParseAt) (n : Nat) (k : Unit → Option Next × ParseAt) :
    Option Next × ParseAt :=
  layer e a fun _ =>
    if a.firstFrag && a.ipEnd < a.off + n then malformed a 10 else fits e a n k

/-- UDP. -/
def parseUdp (e : ParseEnv) (a : ParseAt) : Option Next × ParseAt :=
  l4Room e a 8 fun _ =>
    let n := beAt e.bytes (a.off + 4) 2
    if n < 8 || (!a.firstFrag && a.ipEnd < a.off + n) then malformed a 6
    else
      let port := beAt e.bytes (a.off + 2) 2
      let a' := pass (markL4 a 1) 8
      let a' := { a' with udpEnd := a.off + n }
      if port = 2152 || port = 4789 || port = 319 || port = 320 ||
          (e.rec'.flags.testBit 2 && port = e.rec'.ecpriUdpPort) then (some (.udpPort port), a')
      else parseEnd a'

/-- TCP. -/
def parseTcp (e : ParseEnv) (a : ParseAt) : Option Next × ParseAt :=
  l4Room e a 20 fun _ =>
    let n := hdrByte e a 12 / 16
    if n < 5 then malformed a 6
    else if a.firstFrag && a.ipEnd < a.off + n * 4 then malformed a 10
    else if a.ipEnd < a.off + n * 4 then malformed a 6
    else fits e a (n * 4) fun _ => parseEnd (pass (markL4 a 2) (n * 4))

/-- SCTP, ICMP and ICMPv6. -/
def parsePlainL4 (e : ParseEnv) (a : ParseAt) (t n : Nat) : Option Next × ParseAt :=
  l4Room e a n fun _ => parseEnd (pass (markL4 a t) n)

/-- GRE. -/
def parseGre (e : ParseEnv) (a : ParseAt) : Option Next × ParseAt :=
  layer e a fun _ => fits e a 4 fun _ =>
    let w := beAt e.bytes a.off 2
    let n := 4 + 4 * (b2n (w.testBit 15) + b2n (w.testBit 13) + b2n (w.testBit 12))
    if w % 8 != 0 || w % 4096 / 8 != 0 || w.testBit 14 then malformed a 7
    else fits e a n fun _ =>
      let t := beAt e.bytes (a.off + 2) 2
      let a' := pass (markTun a 2) n
      if t = 0x6558 then (some .ethernet, a')
      else if t = 0x8847 then (some .mpls, a')
      else if t = 0x0800 then (some .ipv4, a')
      else if t = 0x86DD then (some .ipv6, a')
      else unknownNext a'

/-- GTP-U, without its extension headers. -/
def parseGtp (e : ParseEnv) (a : ParseAt) : Option Next × ParseAt :=
  layer e a fun _ => fits e a 8 fun _ =>
    let fl := hdrByte e a 0
    let n := if fl % 8 = 0 then 8 else 12
    let z := a.off + 8 + beAt e.bytes (a.off + 2) 2
    fits e a n fun _ =>
      if a.udpEnd < z then malformed a 7
      else
        let msg := hdrByte e a 1
        let a' := pass (markTun a 3) n
        if fl.testBit 2 && hdrByte e a 11 != 0 then (some (.gtpExt (hdrByte e a 11) msg z), a')
        else if msg = 255 then (some (.nibble true), a') else parseEnd a'

/-- A GTP-U extension header. -/
def parseGtpExt (e : ParseEnv) (a : ParseAt) (msg z : Nat) : Option Next × ParseAt :=
  layer e a fun _ => fits e a 1 fun _ =>
    let n := hdrByte e a 0 * 4
    if n = 0 || z < a.off + n then malformed a 7
    else fits e a n fun _ =>
      let next := hdrByte e a (n - 1)
      let a' := pass a n
      if next != 0 then (some (.gtpExt next msg z), a')
      else if msg = 255 then (some (.nibble true), a') else parseEnd a'

/-- VXLAN. -/
def parseVxlan (e : ParseEnv) (a : ParseAt) : Option Next × ParseAt :=
  layer e a fun _ => fits e a 8 fun _ => (some .ethernet, pass (markTun a 1) 8)

/-- PTP: PTP_EVENT for the four event messages, and the trap of R51 under the port's transport
(`bit'` of its flags) and domain. -/
def parsePtp (e : ParseEnv) (a : ParseAt) (bit' : Nat) : Option Next × ParseAt :=
  layer e a fun _ => fits e a 34 fun _ =>
    let event := hdrByte e a 0 % 16 < 4
    let a1 := if bit' = 1 then markL3 a 5 else a
    let a' := pass { a1 with c := if event then setFlag a1.c 10 else a1.c } 34
    let trap := event && e.ptp.flags.testBit 0 && e.ptp.flags.testBit bit' &&
      (e.ptp.flags.testBit 4 || hdrByte e a 4 = e.ptp.domain)
    parseEnd { a' with note := { a'.note with ptpTrap := a'.note.ptpTrap || trap } }

/-- R101: eCPRI; flag 7 ECPRI, flag 9 ECPRI_CONCAT on an extracting layer of revision 1. -/
def parseEcpri (e : ParseEnv) (a : ParseAt) (bit' : Nat) : Option Next × ParseAt :=
  layer e a fun _ => fits e a 4 fun _ =>
    let a1 := if bit' = 1 then markL3 a 6 else a
    let a' := pass a1 4
    let extracting := !e.deep && e.rec'.flags.testBit 0 && e.rec'.flags.testBit bit'
    if !extracting || hdrByte e a 0 / 16 != 1 then parseEnd a'
    else claims e a (a.off + 4 + beAt e.bytes (a.off + 2) 2) 9 fun b =>
      let c := setFlag a'.c 7
      parseEnd { a' with c := if (hdrByte e a 0).testBit 0 then setFlag c 9 else c,
                         claimed := b.claimed }

/-- ARP. -/
def parseArp (e : ParseEnv) (a : ParseAt) : Option Next × ParseAt :=
  layer e a fun _ => fits e a 28 fun _ => parseEnd (pass (markL3 a 4) 28)

/-- One header. -/
def parseOne (e : ParseEnv) (n : Next) (a : ParseAt) : Option Next × ParseAt :=
  match n with
  | .ethernet => parseEthernet e a
  | .ethertype t =>
    if t = 0xAEFE then parseEcpri e a 1
    else if t = 0x88F7 then parsePtp e a 1
    else if t = 0x0806 then parseArp e a
    else parseVlan e a
  | .mpls => parseMpls e a
  | .nibble _ => parseNibble e a
  | .ipv4 => parseIpv4 e a
  | .ipv6 => parseIpv6 e a
  | .proto p =>
    if p = 17 then parseUdp e a
    else if p = 6 then parseTcp e a
    else if p = 132 then parsePlainL4 e a 3 12
    else if p = 1 then parsePlainL4 e a 4 8
    else if p = 58 then parsePlainL4 e a 5 8
    else if p = 47 then parseGre e a
    else parseExt e a p
  | .udpPort p =>
    if p = 2152 then parseGtp e a
    else if p = 4789 then parseVxlan e a
    else if p = 319 || p = 320 then parsePtp e a (if a.ipVersion = 4 then 2 else 3)
    else parseEcpri e a 2
  | .gtpExt _ msg z => parseGtpExt e a msg z

/-- The headers of a packet, at most `fuel` of them: every one but a nibble counts a layer, so the
layer limit of 16 ends the walk. -/
def parseAll (e : ParseEnv) : Nat → Next → ParseAt → ParseAt
  | 0, _, a => a
  | fuel + 1, n, a =>
    match parseOne e n a with
    | (some n', a') => parseAll e fuel n' a'
    | (none, a') => a'

/-- The parse of a slice that starts with Ethernet (R92). The claimed end is recorded while the frame
is longer than its slice. -/
def parsePacket (e : ParseEnv) (c : BitVec 512) : ParseAt :=
  let a := parseAll e 40 .ethernet
    { c := c, off := 0, layers := 0, vlans := 0, mpls := 0, inner := false, ipSeen := false,
      ipVersion := 0, ipEnd := 0, udpEnd := 0, firstFrag := false, fragSeen := false, src := [],
      dst := [], claimed := 0, note := .none }
  { a with c := putAll a.c [(fPayOff, a.off), (fLayers, a.layers)],
           claimed := if e.incomplete then a.claimed else 0 }

/-! ### ALU flags (Table 8-4) -/

/-- The flags Z, N, C, V. -/
structure Alu where
  z : Bool
  n : Bool
  c : Bool
  v : Bool
  deriving DecidableEq, Repr

/-- Z and N of a result, C and V cleared. -/
def plainFlags (r : BitVec 64) : Alu := { z := r == 0, n := r.msb, c := false, v := false }

/-- The flags of an addition: unsigned carry and signed overflow. -/
def addFlags (a b : BitVec 64) : Alu :=
  let r := a + b
  { z := r == 0, n := r.msb, c := decide (2 ^ 64 ≤ a.toNat + b.toNat),
    v := a.msb == b.msb && r.msb != a.msb }

/-- The flags of a subtraction: unsigned borrow and signed overflow. -/
def subFlags (a b : BitVec 64) : Alu :=
  let r := a - b
  { z := r == 0, n := r.msb, c := decide (a.toNat < b.toNat),
    v := a.msb != b.msb && r.msb != a.msb }

end Sys2Proof.Machine
end

