-- ==== Sys2Proof/Machine/TableOps.lean ====
section
/-! DEFINITION. Lookups in the flow, learning, action and fragment tables, key extraction, and how a
message stages a change for its tenancy's next commit (05, 07). -/

namespace Sys2Proof.Machine

/-! ### Key extraction (Table 5-3, R123, R154) -/

/-- The bytes a packet's parser may read: the slice, and the received bytes when the frame is whole in
it. -/
def readable (f : Frame) : Nat := min f.slice (f.len - 4)

/-- The offset of an extraction base, if it is present (Table 5-3, codes 0 to 6). -/
def baseOff (c : BitVec 512) (b : Nat) : Option Nat :=
  match b with
  | 0 => some 0
  | 1 => if fld c fL3Type = 0 then none else some (fld c fL3Off)
  | 2 => if fld c fL4Type = 0 then none else some (fld c fL4Off)
  | 3 => if fld c fTunType = 0 then none else some (fld c fTunOff)
  | 4 => if fld c fInL3Type = 0 then none else some (fld c fInL3Off)
  | 5 => if fld c fInL4Type = 0 then none else some (fld c fInL4Off)
  | 6 => if pflag c 1 then none else some (fld c fPayOff)
  | _ => none

/-- The bytes of one extraction, none where R123 skips the key. -/
def extractBytes (f : Frame) (x : Extract) : Option (List Nat) :=
  if x.base = 7 then
    if x.offset + x.len ≤ 64 then
      some ((List.range x.len).map fun j => getBits f.ctx (504 - 8 * (x.offset + j)) 8)
    else none
  else
    match baseOff f.ctx x.base with
    | none => none
    | some o =>
      if o + x.offset + x.len ≤ readable f then some (bytesAt f.bytes (o + x.offset) x.len) else none

/-- The extractions of a profile in order; none where any is skipped. -/
def extractAll (f : Frame) : List Extract → Option (List Nat)
  | [] => some []
  | x :: xs =>
    match extractBytes f x, extractAll f xs with
    | some a, some b => some (a ++ b)
    | _, _ => none

/-- A key of `n` bytes: zero beyond its extractions, under the profile's mask. -/
def maskedKey (n : Nat) (mask bs : List Nat) : List Nat :=
  (List.range n).map fun i => Nat.land (byteAt bs i) (byteAt mask i)

/-- The tenancy's profile whose select mask has bit l3_type set, among `profiles`. -/
def selectProfile (profiles : Tab ProfileRec) (t l3 : Nat) : Option (Nat × ProfileRec) :=
  ((List.range 4).filterMap fun p => (profiles.get? (t * 4 + p)).map fun r => (p, r)).find?
    fun x => x.2.selectMask.testBit l3

/-! ### The flow table (R122 to R125) -/

/-- A tenancy's even and odd flow blocks in ascending order (R122). -/
def Dev.evenBlocks (d : Dev) (t : Nat) : List Nat := (d.held t 2).filter fun b => b % 2 = 0
def Dev.oddBlocks (d : Dev) (t : Nat) : List Nat := (d.held t 2).filter fun b => b % 2 = 1

/-- The flow hash input (R124). -/
def flowInput (profile t : Nat) (key : List Nat) : List Nat := [profile, t, 0, 0] ++ key

/-- The candidate buckets of a key (R124); none for a tenancy without a region. -/
def Dev.flowBuckets (d : Dev) (profile t : Nat) (key : List Nat) : Option (Nat × Nat) :=
  let ev := d.evenBlocks t
  let od := d.oddBlocks t
  let m := min ev.length od.length
  if m = 0 then none
  else
    let input := flowInput profile t key
    let i0 := hash0 input * (m * 1024) / 2 ^ 32
    let i1 := hash1 input * (m * 1024) / 2 ^ 32
    some (ev.getD (i0 / 1024) 0 * 1024 + i0 % 1024, od.getD (i1 / 1024) 0 * 1024 + i1 % 1024)

/-- The eight entries of two buckets, in ways 0 to 3 of the first and then of the second. -/
def wayIndexes (b0 b1 : Nat) : List Nat :=
  ((List.range 4).map fun w => b0 * 4 + w) ++ ((List.range 4).map fun w => b1 * 4 + w)

/-- The entry that a flow lookup of Sleeve `s` finds in version slot `v` (R125). -/
def Dev.flowFind (d : Dev) (s profile t v : Nat) (key : List Nat) : Option (Nat × FlowEntry) :=
  match d.flowBuckets profile t key with
  | none => none
  | some (b0, b1) =>
    let k := beNat key
    ((wayIndexes b0 b1).filterMap fun i => (d.tables.flow.get? i).map fun e => (i, e)).find? fun x =>
      x.2.tenancy = t && x.2.profile = profile && x.2.key = k && x.2.live.testBit v &&
        !d.tables.flowBad.contains (s * 2 ^ 19 + x.1)

/-! ### The learning table (R132 to R136) -/

/-- The learning hash input (R132). -/
def Dev.learnInput (d : Dev) (t bd mac : Nat) : List Nat :=
  beBytes 4 d.tables.salt ++ [t] ++ beBytes 2 bd ++ [0] ++ beBytes 6 mac

/-- The two buckets of a learning key (R132). -/
def Dev.learnBuckets (d : Dev) (t bd mac : Nat) : Nat × Nat :=
  let i := d.learnInput t bd mac
  (hash0 i / 2 ^ 17, 32768 + hash1 i / 2 ^ 17)

/-- Where the stash begins among a Sleeve's learning entries, and its 64 entries. -/
def stashBase : Nat := 262144
def stashIndexes : List Nat := (List.range 64).map (stashBase + ·)

/-- A learning entry of Sleeve `s`. -/
def Dev.learnAt (d : Dev) (s i : Nat) : Option LearnEntry := d.tables.learn.get? (s * 2 ^ 19 + i)

/-- A learning entry of Sleeve `s` written, or freed. -/
def Dev.setLearn (d : Dev) (s i : Nat) (e : Option LearnEntry) : Dev :=
  let k := s * 2 ^ 19 + i
  let t := match e with
    | some e => d.tables.learn.set k e
    | none => d.tables.learn.del k
  { d with tables := { d.tables with learn := t } }

/-- The places where a learning key may stand: its buckets and the stash. -/
def Dev.learnPlaces (d : Dev) (t bd mac : Nat) : List Nat :=
  let b := d.learnBuckets t bd mac
  wayIndexes b.1 b.2 ++ stashIndexes

/-- The learning entry of a key in Sleeve `s`. -/
def Dev.learnFind (d : Dev) (s t bd mac : Nat) : Option (Nat × LearnEntry) :=
  ((d.learnPlaces t bd mac).filterMap fun i => (d.learnAt s i).map fun e => (i, e)).find? fun x =>
    x.2.tenancy = t && x.2.bd = bd && x.2.mac = mac

/-- Entries that tenancy `t` holds in Sleeve `s`, stash included. -/
def Dev.learnInUse (d : Dev) (s t : Nat) : Nat :=
  (d.tables.learn.cells.filter fun c => c.1 / 2 ^ 19 = s && c.2.tenancy = t).length

/-! ### Action records (R184) -/

/-- The record of a tenancy-relative action index under version slot `v`; none where it is beyond the
held blocks, not valid or not live. -/
def Dev.actionAt (d : Dev) (t v i : Nat) : Option (Nat × ActionRec) :=
  match d.absIndex t 5 4096 i with
  | none => none
  | some a =>
    match d.vers.actions.get? a with
    | some x => if x.live.testBit v then some (a, x.data) else none
    | none => none

/-! ### Versions and staging (R172, R180) -/

/-- Version slot `v`. -/
def Dev.vslot (d : Dev) (v : Nat) : VersionSlot := d.vers.slots.get .reset v

/-- Version slot `v` replaced. -/
def Dev.setVslot (d : Dev) (v : Nat) (x : VersionSlot) : Dev :=
  { d with vers := { d.vers with slots := d.vers.slots.set v x } }

/-- The CURRENT slot (R172: exactly one). -/
def Dev.current (d : Dev) : Nat :=
  match (List.range 4).find? fun v => (d.vslot v).state = .current with
  | some v => v
  | none => 0

/-- The slot that is PREPARED, if one is. -/
def Dev.preparedSlot (d : Dev) : Option Nat := (List.range 4).find? fun v => (d.vslot v).state = .prepared

/-- Journal entries staged by tenancy `t`, those of its accepted commits apart. -/
def Dev.stagedCount (d : Dev) (t : Nat) : Nat :=
  ((d.vers.staged.filter fun s => s.tenancy = t).map (·.entries)).sum

/-- Every staged change that a commit has not written, of any tenancy: the staged sets and the changes
that accepted commits have taken. -/
def Dev.allStaged (d : Dev) : List Staged :=
  d.vers.staged ++ d.vers.commits.flatMap (·.changes)

/-- The units a change depends on, with their epochs now. -/
def Dev.unitEpochs (d : Dev) (us : List (Nat × Nat)) : List (Nat × Nat × Nat) :=
  us.map fun u => (u.1, u.2, (d.unit u.1 u.2).epoch)

/-- A change staged for the sender's next TBL_COMMIT. -/
def Dev.stage (d : Dev) (t : Nat) (c : Change) (us : List (Nat × Nat)) (n : Nat) : Dev :=
  { d with vers := { d.vers with staged := d.vers.staged ++
      [{ tenancy := t, change := c, units := d.unitEpochs us, entries := n }] } }

/-- R180: whether `n` more entries keep the staged set of tenancy `t` within 16,383. -/
def Dev.canStage (d : Dev) (t n : Nat) : Bool := decide (d.stagedCount t + n ≤ 16383)

/-- Whether an accepted or staged change adds at index `i` of a kind that `p` picks. -/
def Dev.stagedAdd (d : Dev) (p : Change → Bool) : Bool := d.allStaged.any fun s => p s.change

/-! ### Fragment table (R105) -/

/-- The set of a fragment key. -/
def fragSet (k : FragKey) : Nat := hash0 k % 512

/-- Entry `i` of Sleeve `s`'s fragment table. -/
def Dev.fragAt (d : Dev) (s i : Nat) : Option FragEntry := d.parse.frags.get? (s * 4096 + i)

/-- An entry of a fragment table written, or freed. -/
def Dev.setFrag (d : Dev) (s i : Nat) (e : Option FragEntry) : Dev :=
  let k := s * 4096 + i
  { d with parse := { d.parse with frags := match e with
      | some e => d.parse.frags.set k e
      | none => d.parse.frags.del k } }

/-- The tenancy of a fragment key. -/
def fragTenancy (k : FragKey) : Nat := byteAt k 1

/-- Fragment entries that tenancy `t` holds in Sleeve `s`. -/
def Dev.fragInUse (d : Dev) (s t : Nat) : Nat :=
  (d.parse.frags.cells.filter fun c => c.1 / 4096 = s && fragTenancy c.2.key = t).length

/-- The fragment quota of tenancy `t` in Sleeve `s` (Table 4-11). -/
def Dev.fragQuota (d : Dev) (s t : Nat) : Nat := (d.parse.quota.get (List.replicate 16 256) s).getD t 0

end Sys2Proof.Machine
end

