-- ==== Sys2Proof/Machine/LiningOps.lean ====
section
/-! DEFINITION. What the other chapters ask of the Lining (15), positions and records offered to running
captures, the tables of a replay Sleeve, and the turns of the assignment counter (16). -/

namespace Sys2Proof.Machine

/-! ### Frames -/

/-- A frame of `bytes` without frame check sequence and of `len` bytes with it, as it enters the device
on a Sleeve: no Pockets, no decision, waiting for its slot. -/
def Frame.make (o : Origin) (port sleeve : Nat) (bytes : List Nat) (len : Nat) : Frame :=
  { origin := o, port := port, sleeve := sleeve, bytes := bytes, len := len, start := 0, sof := 0,
    stamp := .zero, ptp := .reset, maxFrame := 9216, deep := true, slice := 512, tenancy := none,
    pool := 0, pockets := [], refs := 0, noMore := false, ended := true, bad := false,
    truncated := false, map := .reset, macsecHeld := false, wireEnd := none,
    verified := false, rxMac := macsecPortReset port, rxSc := none, sa := none, macsecSaved := 0, offered := none, rxDrop := 0,
    urgent := false, phase := .slot, pass := 0, ctx := 0, side := 0, desc := 0, note := .none, first := none,
    fragIndex := none, stored := 0, fragWaits := none, members := [], appliedRec := false, rel := none,
    learn := none, cont := false, place := false, seam := .none,
    copies := [], flowKey := none, meterCtx := none, seq := 0 }

/-! ### Positions and offers (R361 to R368) -/

/-- The place of a phase in the pipeline. -/
def phaseRank : Phase → Nat
  | .slot => 0
  | .parse => 1
  | .pattern => 2
  | .fragment => 3
  | .keyBuild => 4
  | .flow => 5
  | .learn => 6
  | .tcam => 7
  | .meter => 8
  | .colour => 9
  | .action => 10
  | .forward => 11
  | .ttl => 12
  | .rewrite => 13
  | .release => 14
  | .enqueue => 15
  | .handoff => 16
  | .recirc => 17
  | .yoke => 18
  | .done => 19

/-- R366: the issue sequence of the last packet of Sleeve `s` that has passed stage phase `ph`: one less
than the first that has yet to pass it, else the count of packets issued. -/
def Dev.position (d : Dev) (s : Nat) (ph : Phase) : Nat :=
  let before := d.ports.frames.cells.filterMap fun c =>
    let f := c.2
    if f.sleeve = s && f.pass = 0 && 0 < phaseRank f.phase && phaseRank f.phase ≤ phaseRank ph then
      some f.seq
    else none
  match before with
  | [] => (d.sleeve s).issued
  | n :: ns => ns.foldl min n - 1

/-- Whether a capture records. -/
def Capture.records' (c : Capture) : Bool :=
  c.state == .armed || c.state == .running || c.state == .triggered

/-- The capture of tenancy `t` replaced. -/
def Dev.setCapture (d : Dev) (t : Nat) (c : Capture) : Dev :=
  { d with lining := { d.lining with captures := d.lining.captures.set t c } }

/-- A change to the capture of tenancy `t`, if it records and has Sleeve `s` in its mask. -/
def Dev.onCapture (d : Dev) (t s : Nat) (act : Capture → Capture) : Dev :=
  match d.lining.captures.get? t with
  | some c =>
    if c.records' && c.data.sleeveMask.testBit s then d.setCapture t (act c) else d
  | none => d

/-- A record offered to a capture. -/
def Capture.offer (c : Capture) (r : LinRec) (fid : Option Nat) (known : Bool) : Capture :=
  { c with offers := c.offers ++ [{ data := r, fid := fid, known := known }] }

/-- A marker of Sleeve `s` for the captures that `p` picks, at the position after phase `ph`. -/
def Dev.mark (d : Dev) (s : Nat) (ph : Phase) (p : Nat → Capture → Bool) (body : LinBody) : Dev :=
  let r : LinRec := { sleeve := s, stamp := d.stamp, seq := d.position s ph, poisoned := false, body := body }
  (List.range 16).foldl (fun d t =>
    d.onCapture t s fun c => if p t c then c.offer r none true else c) d

/-- A learning entry as another tenancy's snapshot or record holds it: an occupied way with no key (R367);
the model gives it the tenancy number 16, which no packet has. -/
def keyless (e : LearnEntry) : LearnEntry := { e with tenancy := 16, mac := 0, bd := 0, port := 0 }

/-- R367, R368: a change of a learning entry of Sleeve `s`, op as Table 15-3 numbers it. While the
snapshot is made every change is recorded, another tenancy's without its key; after that the capturing
tenancy's, ops 1 to 3 only with learn recording. -/
def Dev.markLearn (d : Dev) (s op index t : Nat) (entry : Option LearnEntry) : Dev :=
  let own : Nat → Capture → Bool := fun k c =>
    k = t && (c.state == .armed || 4 ≤ op || c.data.flags.testBit 2)
  let other : Nat → Capture → Bool := fun k c => k != t && c.state == .armed
  (d.mark s .learn own (.table 0 op index entry)).mark s .learn other
    (.table 0 op index (entry.map keyless))

/-- R162, R368: a TCAM row marked suspect (table 1) or repaired (table 2). -/
def Dev.markTcam (d : Dev) (s table index : Nat) : Dev :=
  d.mark s .tcam (fun _ _ => true) (.table table 0 index none)

/-- The markers of a time step (15, Collisions). -/
def Dev.markStep (d : Dev) (old new : Stamp) : Dev :=
  (List.range 7).foldl (fun d s => d.mark s .parse (fun _ _ => true) (.step old new)) d

/-- The digest of the active customer image. -/
def Dev.activeDigest (d : Dev) : Nat := d.micro.genDigest.get 0 d.micro.generation

/-- The learning engine state of Sleeve `s`. -/
def Dev.learner (d : Dev) (s : Nat) : LearnSleeve := d.tables.engines.get .reset s

/-- The learning engine state of Sleeve `s` replaced. -/
def Dev.setLearner (d : Dev) (s : Nat) (x : LearnSleeve) : Dev :=
  { d with tables := { d.tables with engines := d.tables.engines.set s x } }

/-- R138: a new seed for Sleeve `s`'s generator, with its RESEED records. -/
def Dev.reseed (d : Dev) (s : Nat) : Dev :=
  let x := d.draw
  let l := x.2.learner s
  let seed := Config.freeDraw x.1 % 2 ^ 64
  let d := x.2.setLearner s { l with seed := seed, seedEpoch := (l.seedEpoch + 1) % 2 ^ 32, seedAt := d.now }
  d.mark s .learn (fun _ _ => true) (.reseed ((l.seedEpoch + 1) % 2 ^ 32) seed)

/-! ### Frame records -/

/-- R361: whether a capture takes a packet with decision vector `dec`. -/
def Capture.wants (c : Capture) (t : Nat) (f : Frame) (dec : Nat) : Bool :=
  let own := fld f.ctx fTenancy
  c.records' && (t = 0 || own = t) && c.data.sleeveMask.testBit f.sleeve &&
    (c.data.ports = 0 || c.data.ports.testBit f.port) &&
    (match f.origin with
     | .replay _ => false
     | _ => true) &&
    (!c.data.flags.testBit 0 ||
      Nat.land (dec % 2 ^ 24) c.data.refMask = Nat.land c.data.refValue c.data.refMask) &&
    (!c.data.flags.testBit 1 || c.data.dropMask.testBit (dec / 2 ^ 30 % 64))

/-- The frame record of a packet for the capture of tenancy `t` (Table 15-2): its inputs on pass 0, and the
decision of its last pass. A tenant packet in the owner's capture keeps 18 bytes, its decision vector and its
times (R381). -/
def frameRecord (d : Dev) (t fid : Nat) (f : Frame) (c : Capture) (dec : Nat) : LinRec :=
  let own := fld f.ctx fTenancy
  let foreign := t = 0 && own != 0
  let first := f.first.getD (f.bytes, f.len, f.deep, f.slice)
  let cap := if foreign then 18 else min (16 * c.data.capUnits) first.1.length
  let live := min first.2.2.2 first.2.1
  { sleeve := f.sleeve, stamp := f.stamp, seq := f.seq, poisoned := false,
    body :=
      if foreign then
        .frame fid 0 0 false false (decide (cap < live)) true false dec 0 0 (d.learner f.sleeve).seedEpoch
          cap (ceilDiv cap 16) 0 0 (first.1.take cap)
      else
        .frame fid f.port own first.2.2.1 (flag f.ctx fInjected) (decide (cap < live)) false false dec
          (fld f.ctx fVersion) (fld f.ctx fEpoch) (d.learner f.sleeve).seedEpoch first.2.1
          (ceilDiv cap 16) 0 first.2.2.2 (first.1.take cap) }

/-- Stage 18 offers a packet to the captures that take it, each with a reference to its Pockets
(R362). -/
def Dev.offerFrame (d : Dev) (fid : Nat) (dec : Nat) : Dev :=
  (List.range 16).foldl (fun d t =>
    match d.frame fid, d.lining.captures.get? t with
    | some f, some c =>
      if c.wants t f dec then
        (d.setCapture t (c.offer (frameRecord d t fid f c dec) (some fid) false)).setFrame fid
          { f with refs := f.refs + 1 }
      else d
    | _, _ => d) d

/-- A frame record with the Yoke's outcome, and whether the frame took the Seam path; a record that may not
tell (R381) keeps neither. -/
def LinBody.withOutcome (o : Nat) (seam : Bool) : LinBody → LinBody
  | .frame a p t de inj tr nr sm dec v e s l u oc sl bs =>
    if nr then .frame a p t de inj tr nr sm dec v e s l u oc sl bs
    else .frame a p t de inj tr nr seam dec v e s l u o sl bs
  | b => b

/-- The Yoke's outcome written into an offer of frame `fid` that waits for it. -/
def LinOffer.outcome (fid o : Nat) (seam : Bool) (x : LinOffer) : LinOffer :=
  if x.fid = some fid && !x.known then
    { x with known := true, data := { x.data with body := x.data.body.withOutcome o seam } }
  else x

/-- The Yoke's outcome written into the frame records of frame `fid` that wait for it. -/
def Dev.outcome (d : Dev) (fid o : Nat) (seam : Bool) : Dev :=
  let cs := d.lining.captures.map fun _ c => { c with offers := c.offers.map (LinOffer.outcome fid o seam) }
  { d with lining := { d.lining with captures := cs } }

/-! ### The tables of a replay Sleeve (R369) -/

/-- The replay that runs on Sleeve `s`. -/
def Dev.replayOn (d : Dev) (s : Nat) : Option Replay :=
  d.lining.replays.find? fun r => r.data.replaySleeve = s

/-- The replay of Sleeve `s` replaced. -/
def Dev.setReplay (d : Dev) (s : Nat) (r : Replay) : Dev :=
  let rs := d.lining.replays.map fun x => if x.data.replaySleeve = s then r else x
  { d with lining := { d.lining with replays := rs } }

/-- The record that a replayed packet comes from. -/
def Dev.replayRecord (d : Dev) (f : Frame) : Option LinRec :=
  match f.origin, d.replayOn f.sleeve with
  | .replay i, some r =>
    match d.lining.captures.get? r.tenancy with
    | some c => c.records.lookup i
    | none => none
  | _, _ => none

/-- The decision vector of a frame record. -/
def LinRec.decision (r : LinRec) : Nat :=
  match r.body with
  | .frame _ _ _ _ _ _ _ _ dec _ _ _ _ _ _ _ _ => dec
  | _ => 0

/-- The versioned tables of the device, and the device with other ones. -/
def Dev.world (d : Dev) : World :=
  { flow := d.tables.flow, flowProfiles := d.tables.profiles, tcam := d.tcam.entries,
    tcamProfiles := d.tcam.profiles, patterns := d.parse.patterns, actions := d.vers.actions,
    bindings := d.meter.bindings, rels := d.rel.profiles, salt := d.tables.salt }
def Dev.withWorld (d : Dev) (w : World) : Dev :=
  { d with
    tables := { d.tables with flow := w.flow, profiles := w.flowProfiles, salt := w.salt }
    tcam := { d.tcam with entries := w.tcam, profiles := w.tcamProfiles }
    parse := { d.parse with patterns := w.patterns }
    vers := { d.vers with actions := w.actions }
    meter := { d.meter with bindings := w.bindings }
    rel := { d.rel with profiles := w.rels } }

/-- Work on a packet under the tables of its Sleeve: those of its replay for a replayed packet. -/
def Dev.inWorld (d : Dev) (f : Frame) (act : Dev → Dev) : Dev :=
  match f.origin, d.replayOn f.sleeve with
  | .replay _, some r =>
    let w := d.world
    (act (d.withWorld r.world)).withWorld w
  | _, _ => act d

/-! ### Turns of the assignment counter (R384, R385) -/

/-- Whether the counter may hand out a value now: fewer than 16 in the last second. -/
def Dev.turnReady (d : Dev) : Bool :=
  decide ((d.ten.issuedAt.filter fun t => d.now < t + cyclesPerS).length < 16)

/-- The next value of the assignment counter taken. -/
def Dev.issue (d : Dev) : Nat × Dev :=
  let n := d.ten.counter
  (n, { d with ten := { d.ten with
          counter := if n = 65535 then 1 else n + 1,
          issuedAt := d.now :: d.ten.issuedAt.filter fun t => decide (d.now < t + cyclesPerS) } })

/-- An assignment transaction after its acceptance: its change with the next value at once, or a wait for
its turn. -/
def takeTurn (who : Sender) (cmd : Deferred) (apply : Nat → Dev → Dev) (d : Dev) : Reply × Dev :=
  if d.turnReady && d.ten.turns.isEmpty then
    let (e, d) := d.issue
    (.say .ok, apply e d)
  else
    (.wait, { d with ten := { d.ten with turns := d.ten.turns ++ [{ token := who.tok, cmd := cmd }] } })

end Sys2Proof.Machine
end

