-- ==== Sys2Proof/Machine/MicroOps.lean ====
section
/-! DEFINITION. Executing control words (R202 to R214): the lane state, one word, a customer routine at
a stage's hook, and a step of a housekeeping routine. -/

namespace Sys2Proof.Machine

/-- A lane's state while a routine runs (R202), with what travels and the device whose tables it
reaches. `later` and
`laterFlags` are results that land at the end of the following word (R206), `room` is false once
the overlay is full. -/
structure LaneState where
  regs : List (BitVec 64)
  alu : Alu
  hit : Bool
  err : Bool
  multi : Bool
  ctx : BitVec 512
  side : BitVec 192
  desc : BitVec 256
  dev : Dev
  later : List (Nat × BitVec 64)
  laterFlags : Option (Bool × Bool × Bool)
  fault : Option Nat
  room : Bool

/-- Where a routine runs: its Sleeve and stage, the packet's frame, tenancy and profile, and the
context of a housekeeping routine. -/
structure LaneEnv where
  sleeve : Nat
  stage : Nat
  frame : Option Frame
  tenancy : Nat
  deep : Bool
  hk : Option Nat

/-- Registers at zero (R202). -/
def zeroRegs : List (BitVec 64) := List.replicate 16 0

/-- Register `i`; register 0 reads zero. -/
def reg (l : LaneState) (i : Nat) : BitVec 64 := if i = 0 then 0 else l.regs.getD i 0

/-- Register `i` written; writes to register 0 are discarded. -/
def setReg (l : LaneState) (i : Nat) (v : BitVec 64) : LaneState :=
  if i = 0 then l else { l with regs := l.regs.set i v }

/-- A fault, unless one stands. -/
def laneFault (l : LaneState) (cause : Nat) : LaneState :=
  { l with fault := match l.fault with
      | some c => some c
      | none => some cause }

/-- A bit field of a control word. -/
def wordBits (w : BitVec 256) (lo n : Nat) : Nat := getBits w lo n

/-- The result and flags of an ALU slot (Table 8-4). -/
def aluOp (op pos width : Nat) (z : Bool) (a b : BitVec 64) : BitVec 64 × Alu :=
  let n := b.toNat % 64
  let plain (r : BitVec 64) : BitVec 64 × Alu := (r, plainFlags r)
  match op with
  | 1 => plain b
  | 2 => (a + b, addFlags a b)
  | 3 => (a - b, subFlags a b)
  | 4 => plain (a &&& b)
  | 5 => plain (a ||| b)
  | 6 => plain (a ^^^ b)
  | 7 => plain (~~~a)
  | 8 => plain (a <<< n)
  | 9 => plain (a >>> n)
  | 10 => plain (a.sshiftRight n)
  | 11 => plain (BitVec.ofNat 64 (a.toNat / 2 ^ pos % 2 ^ (width + 1)))
  | 12 => plain (BitVec.ofNat 64 (a.toNat - a.toNat / 2 ^ pos % 2 ^ (width + 1) * 2 ^ pos
            + b.toNat % 2 ^ (width + 1) * 2 ^ pos))
  | 13 => (a - b, subFlags a b)
  | 14 => plain (a &&& b)
  | 15 => plain (if a.toNat ≤ b.toNat then a else b)
  | 16 => plain (if a.toNat ≤ b.toNat then b else a)
  | 17 => plain (BitVec.ofNat 64 (popCount 64 a.toNat))
  | 18 => plain (BitVec.ofNat 64 (64 - (onesOf 64 a.toNat).foldl (fun m i => max m (i + 1)) 0))
  | 19 => plain (if z then a else b)
  | 20 => plain (BitVec.ofNat 64 (leNat (beBytes 8 a.toNat)))
  | _ => plain 0

/-- One ALU slot: reads `old`, writes `l`. -/
def aluSlot (slot imm : Nat) (old l : LaneState) : LaneState :=
  let op := bits slot 26 6
  if op = 0 || 20 < op then l
  else
    let a := reg old (bits slot 18 4)
    let b := if bit slot 13 then BitVec.ofNat 64 imm else reg old (bits slot 14 4)
    let r := aluOp op (bits slot 7 6) (bits slot 1 6) old.alu.z a b
    let l := if op = 13 || op = 14 then l else setReg l (bits slot 22 4) r.1
    if bit slot 0 then { l with alu := r.2 } else l

/-- SLICE_RD (R208): `n` bytes at base + pos, the first most significant; a byte beyond the slice or
the received length reads zero and sets ERR, an absent base reads zero and sets ERR. -/
def sliceRead (f : Frame) (c : BitVec 512) (b pos n : Nat) : Nat × Bool :=
  match baseOff c b with
  | none => (0, true)
  | some o =>
    let lim := readable f
    let bs := (List.range n).map fun i =>
      if o + pos + i < lim then byteAt f.bytes (o + pos + i) else 0
    (beNat bs, decide (lim < o + pos + n))

/-- R212: whether a customer word may turn descriptor `a` into `b`: the disposition becomes drop, the
drop reason one of 32 to 63, or the queue one that the tenancy holds on the target port. -/
def descAllowed (d : Dev) (t : Nat) (a b : BitVec 256) : Bool :=
  let same := putAll a [(dDisp, 0), (dReason, 0), (dQueue, 0)] ==
    putAll b [(dDisp, 0), (dReason, 0), (dQueue, 0)]
  same && (fld a dDisp = fld b dDisp || fld b dDisp = 0)
    && (fld a dReason = fld b dReason || 32 ≤ fld b dReason)
    && (fld a dQueue = fld b dQueue || d.holdsQueue t (fld b dTarget % 128) (fld b dQueue))

/-- One context slot (Table 8-7). -/
def ctxSlot (e : LaneEnv) (slot : Nat) (old l : LaneState) : LaneState :=
  let r := bits slot 25 4
  let pos := bits slot 16 9
  let n := bits slot 10 6 + 1
  let b := bits slot 6 4
  let v := (reg old r).toNat
  match bits slot 29 3 with
  | 1 =>
    if b = 15 then
      if e.hk.isSome then setReg l r (BitVec.ofNat 64 (l.dev.sleeveCycles e.sleeve))
      else laneFault l 3
    else setReg l r (BitVec.ofNat 64 (getBits old.ctx pos n))
  | 2 => setReg l r (BitVec.ofNat 64 (getBits old.side pos n))
  | 3 =>
    if 64 ≤ pos && pos + n ≤ 192 then { l with side := putBits l.side pos n v } else laneFault l 3
  | 4 =>
    match e.frame with
    | some f =>
      let x := sliceRead f old.ctx b pos (bits slot 10 3 + 1)
      let l := setReg l r (BitVec.ofNat 64 x.1)
      if x.2 then { l with err := true } else l
    | none => laneFault l 3
  | 5 =>
    if 12 ≤ e.stage then setReg l r (BitVec.ofNat 64 (getBits old.desc pos n)) else laneFault l 3
  | 6 =>
    let new := putBits l.desc pos n v
    if !(14 ≤ e.stage && e.stage ≤ 16) then laneFault l 3
    else if descAllowed l.dev e.tenancy l.desc new then { l with desc := new }
    else laneFault l 7
  | 7 => laneFault l 3
  | _ => l

/-- The key in a customer memory of word `a` of stage `st` of Sleeve `s`. -/
def custKey (s st a : Nat) : Nat := (s * 20 + st) * 4096 + a

/-- A stage engine of a Sleeve. -/
def Dev.engine (d : Dev) (s st : Nat) : StageEngine := d.micro.engines.get .reset (s * 32 + st)

/-- A stage engine of a Sleeve replaced. -/
def Dev.setEngine (d : Dev) (s st : Nat) (x : StageEngine) : Dev :=
  { d with micro := { d.micro with engines := d.micro.engines.set (s * 32 + st) x } }

/-- A customer-memory word, committed overlay entries first (R216). -/
def Dev.custRead (d : Dev) (s st a : Nat) : Nat :=
  match (d.engine s st).overlay.reverse.find? fun o => o.committed && o.addr = a with
  | some o => o.value.toNat
  | none => Mem.read d.micro.custMem (custKey s st a)

/-- A customer-memory word written. -/
def Dev.custWrite (d : Dev) (s st a v : Nat) : Dev :=
  { d with micro := { d.micro with custMem := Mem.write d.micro.custMem (custKey s st a) (v % 2 ^ 64) } }

/-- A customer-memory address: tenancy-relative for a packet (R211), absolute for housekeeping. -/
def custAddr (e : LaneEnv) (d : Dev) (i : Nat) : Option Nat :=
  match e.hk with
  | some _ => if i < 4096 then some i else none
  | none => d.absIndex e.tenancy 10 256 i

/-- One write to customer memory: through the overlay from housekeeping (R216), at once from a
packet. A full overlay leaves no room. -/
def custStore (e : LaneEnv) (l : LaneState) (a v : Nat) : LaneState :=
  match e.hk with
  | none => { l with dev := l.dev.custWrite e.sleeve e.stage a v }
  | some k =>
    let g := l.dev.engine e.sleeve e.stage
    if g.overlay.length < 32 then
      let o : OverlayEntry := { ctx := k, addr := a, value := BitVec.ofNat 64 v, committed := false }
      { l with dev := l.dev.setEngine e.sleeve e.stage { g with overlay := g.overlay ++ [o] } }
    else { l with room := false }

/-- The hit, error and multi flags after a table operation. -/
def tblFlags (l : LaneState) (h e m : Bool) : LaneState := { l with hit := h, err := e, multi := m }

/-- The values of HIT, ERR and MULTI that a table operation sets (R205): no rule states them, so they are free. -/
def freeFlags (l : LaneState) : (Bool × Bool × Bool) × LaneState :=
  let h := l.dev.draw
  let e := h.2.draw
  let m := e.2.draw
  ((Config.freeBit h.1, Config.freeBit e.1, Config.freeBit m.1), { l with dev := m.2 })

/-- HIT, ERR and MULTI set at the end of this word. -/
def flagsNow (l : LaneState) : LaneState :=
  let x := freeFlags l
  tblFlags x.2 x.1.1 x.1.2.1 x.1.2.2

/-- HIT, ERR and MULTI set at the end of the word after this one (R206). -/
def flagsLater (l : LaneState) : LaneState :=
  let x := freeFlags l
  { x.2 with laterFlags := some x.1 }

/-- The words of a customer-memory range, each through `act` with its place. -/
def custEach (e : LaneEnv) (i n : Nat) (act : LaneState → Nat → Nat → LaneState) (l : LaneState) :
    LaneState :=
  (List.range n).foldl (fun l j =>
    match custAddr e l.dev (i + j) with
    | some a => act l j a
    | none => laneFault l 2) l

/-- One table slot (Table 8-8). A lookup of the flow or the learning table and a read of an action record return
their result in a layout that the spec does not give: its registers are free values. -/
def tblSlot (e : LaneEnv) (slot : Nat) (old l : LaneState) : LaneState :=
  let table := bits slot 24 4
  let key := bits slot 20 4
  let keys := (List.range (bits slot 18 2 + 1)).map fun i => reg old ((key + i) % 16)
  let res := bits slot 14 4
  let n := bits slot 12 2 + 1
  let idx := (reg old (bits slot 8 4)).toNat
  let bytes := (keys.flatMap fun k => beBytes 8 k.toNat).take (bits slot 3 5 + 1)
  let free (l : LaneState) : LaneState :=
    (List.range n).foldl (fun l i =>
      let x := l.dev.draw
      { l with dev := x.2, later := l.later ++ [((res + i) % 16, BitVec.ofNat 64 (Config.freeWord x.1))] })
      (flagsLater l)
  match bits slot 28 4 with
  | 0 => l
  | 1 => flagsNow (setReg l res (BitVec.ofNat 64 (hash0 bytes)))
  | 2 => flagsNow (setReg l res (BitVec.ofNat 64 (hash1 bytes)))
  | 3 =>
    if (table = 1 && e.stage = 6) || (table = 2 && e.stage = 7) then free l else laneFault l 3
  | 5 =>
    if table = 0 then
      custEach e idx n (fun l j a =>
        { l with later := l.later ++ [((res + j) % 16, BitVec.ofNat 64 (l.dev.custRead e.sleeve e.stage a))] })
        (flagsLater l)
    else if table = 6 && e.stage = 12 then
      if (l.dev.absIndex e.tenancy 5 4096 idx).isNone then laneFault l 2 else free l
    else laneFault l 3
  | 6 =>
    if table = 0 then
      flagsNow (custEach e idx keys.length (fun l j a => custStore e l a (keys.getD j 0).toNat) l)
    else laneFault l 3
  | 7 =>
    if table = 0 then
      flagsNow (custEach e idx keys.length (fun l j a =>
        custStore e l a (l.dev.custRead e.sleeve e.stage a + (keys.getD j 0).toNat)) l)
    else laneFault l 3
  | 8 =>
    if table = 0 then flagsNow (custEach e idx n (fun l _ a => custStore e l a 0) l)
    else laneFault l 3
  | _ => laneFault l 3

/-- Where a word sends its routine. -/
inductive Flow where
  | next
  | jump (t : Nat)
  | stop
  | cont (t : Nat)
  | hkEnd

/-- Whether a condition holds (Table 8-5). -/
def condHolds (e : LaneEnv) (l : LaneState) : Nat → Bool
  | 0 => true
  | 1 => l.alu.z
  | 2 => !l.alu.z
  | 3 => l.alu.c
  | 4 => !l.alu.c
  | 5 => l.alu.n
  | 6 => !l.alu.n
  | 7 => l.alu.v
  | 8 => l.hit
  | 9 => !l.hit
  | 10 => l.err
  | 11 => l.multi
  | 12 => e.tenancy = 0
  | 13 => e.deep
  | 14 => e.hk.isSome
  | _ => false

/-- The control operation of a word (Table 8-6), as it reads the state before the word. -/
def wordFlow (e : LaneEnv) (w : BitVec 256) (old l : LaneState) : Flow × LaneState :=
  let t := wordBits w 234 12
  if !condHolds e old (wordBits w 246 4) then (.next, l)
  else match wordBits w 250 6 with
    | 0 => (.next, l)
    | 1 => if e.hk.isNone && t < 2560 then (.stop, laneFault l 4) else (.jump t, l)
    | 2 => (.stop, l)
    | 3 => (.next, l)
    | 4 => if e.hk.isSome then (.stop, laneFault l 4) else (.stop, l)
    | 5 => if e.hk.isSome then (.stop, laneFault l 3) else (.cont t, l)
    | 6 => (.stop, laneFault l 5)
    | 7 => (.jump (t + (reg old 15).toNat % 16), l)
    | 8 => (.hkEnd, l)
    | _ => (.stop, laneFault l 3)

/-- The four slots of a word, all reading `old` (R205). -/
def wordSlots (e : LaneEnv) (w : BitVec 256) (old l : LaneState) : LaneState :=
  let l := aluSlot (wordBits w 200 32) (wordBits w 40 64) old l
  let l := aluSlot (wordBits w 168 32) (wordBits w 8 32) old l
  let l := ctxSlot e (wordBits w 136 32) old l
  tblSlot e (wordBits w 104 32) old l

/-- What the word before left to land, landed at the end of this word (R206). -/
def landLater (old l : LaneState) : LaneState :=
  let l := old.later.foldl (fun l r => setReg l r.1 r.2) l
  match old.laterFlags with
  | some (h, x, m) => tblFlags l h x m
  | none => l

/-- The word at an address of a stage's control store. -/
def Dev.storeWord (d : Dev) (st a : Nat) : BitVec 256 := d.micro.stores.get 0 (st * 4096 + a)

/-- One word cycle from address `pc`: one word, or two in pair form (R198). -/
def wordCycle (e : LaneEnv) (pc : Nat) (l : LaneState) : Flow × LaneState :=
  let bad := (l.dev.engine e.sleeve e.stage).bad
  let w := l.dev.storeWord e.stage pc
  let start := { l with later := [], laterFlags := none }
  if bad.contains pc || (e.deep && bad.contains (pc + 1)) then (.stop, laneFault l 1)
  else if e.deep then
    let w2 := l.dev.storeWord e.stage (pc + 1)
    let r := wordSlots e w2 l (wordSlots e w l start)
    let r := landLater l r
    match wordFlow e w l r with
    | (.next, r) => wordFlow e w2 l r
    | x => x
  else wordFlow e w l (landLater l (wordSlots e w l start))

/-- A customer routine from address `pc`, for at most `fuel` word cycles: the lane after it, and the
word at which a continuation resumes. -/
def runCustom (e : LaneEnv) : Nat → Nat → LaneState → LaneState × Option Nat
  | 0, _, l => (l, none)
  | fuel + 1, pc, l =>
    if 4096 ≤ pc || pc < 2560 then (laneFault l 4, none)
    else
      match wordCycle e pc l with
      | (.next, l) => if l.fault.isSome then (l, none) else runCustom e fuel (pc + (if e.deep then 2 else 1)) l
      | (.jump t, l) => if l.fault.isSome then (l, none) else runCustom e fuel (if e.deep then t - t % 2 else t) l
      | (.cont t, l) => (l, some t)
      | (_, l) => (l, none)

/-- Vendor word cycles of each stage (Table 8-1): standard and deep. -/
def vendorCycles : List (Nat × Nat) :=
  [(2, 4), (2, 5), (2, 5), (3, 1), (1, 1), (2, 2), (1, 1), (2, 1), (2, 2), (2, 1),
   (2, 1), (1, 1), (2, 1), (2, 1), (1, 1), (2, 1), (2, 1), (2, 1), (2, 1), (1, 1)]

/-- Customer room of a stage in word cycles. -/
def custRoom (st : Nat) (deep : Bool) : Nat :=
  let v := vendorCycles.getD st (8, 8)
  8 - (if deep then v.2 else v.1)

/-- The key of a hook entry: generation, tenancy, stage and profile (R210). -/
def hookKey (g t st : Nat) (deep : Bool) : Nat := ((g * 16 + t) * 20 + st) * 2 + b2n deep

/-- A lane at the start of a routine of a packet. -/
def laneOf (d : Dev) (f : Frame) : LaneState :=
  { regs := zeroRegs, alu := { z := false, n := false, c := false, v := false }, hit := false,
    err := false, multi := false, ctx := f.ctx, side := f.side, desc := f.desc, dev := d, later := [],
    laterFlags := none, fault := none, room := true }

/-- The hook of stage `st` for frame `fid` (R209 to R214): the bound routine, or the continuation that
waits at this stage. A fault is recorded in the sidecar with its stage and counted. -/
def Dev.hook (d : Dev) (fid st : Nat) : Dev :=
  d.withFrame fid fun f =>
    let t := fld f.ctx fTenancy
    let deep := flag f.ctx fDeep
    let resume := decide (0 < f.pass) && fld f.side sContStage = st
    let entry : Option Nat :=
      if fld f.side sFaultCause != 0 then none
      else if resume then some (fld f.side sContWord)
      else d.micro.hooks.get? (hookKey (fld f.side sHookGen) t st deep)
    match entry with
    | none => d
    | some pc =>
      let f := if resume then { f with side := putBits f.side sContStage.lo sContStage.w 31 } else f
      let e : LaneEnv := { sleeve := f.sleeve, stage := st, frame := some f, tenancy := t, deep := deep,
                           hk := none }
      let (l, c) := runCustom e (custRoom st deep) pc (laneOf d f)
      let l := match c with
        | some _ => if f.pass = 3 then laneFault l 6 else l
        | none => l
      let f := { f with side := l.side, desc := l.desc }
      match l.fault with
      | some cause =>
        let f := { f with side := putAll f.side [(sFaultCause, cause), (sFaultStage, st)] }
        (l.dev.inc .ucodeFaults (f.sleeve * 16 + t) cause).setFrame fid f
      | none =>
        match c with
        | some w =>
          let f := { f with cont := true, side := putAll f.side [(sContStage, st), (sContWord, w)] }
          (l.dev.inc .contPasses (f.sleeve * 16 + t) 0).setFrame fid f
        | none => l.dev.setFrame fid f

/-! ### Housekeeping routines (R215 to R217) -/

/-- A routine context of a stage engine replaced. -/
def StageEngine.setRoutine (g : StageEngine) (k : Nat) (r : Routine) : StageEngine :=
  { g with routines := g.routines.set k r }

/-- R216: the overlay entries of context `k` made visible, and its commit snapshot saved. -/
def commitPoint (g : StageEngine) (k : Nat) (r : Routine) : StageEngine :=
  let o := g.overlay.map fun o => if o.ctx = k then { o with committed := true } else o
  { g with overlay := o }.setRoutine k { r with snapRegs := r.regs, snapPc := r.pc }

/-- R217: the uncommitted work of context `k` discarded and its snapshot restored; hk_rollbacks counts
where there was any. -/
def Dev.rollBack (d : Dev) (s st k : Nat) : Dev :=
  let g := d.engine s st
  let r := g.routines.get .reset k
  let lost := g.overlay.any fun o => o.ctx = k && !o.committed
  let g := { g with overlay := g.overlay.filter fun o => !(o.ctx = k && !o.committed) }
  let d := d.setEngine s st (g.setRoutine k { r with regs := r.snapRegs, pc := r.snapPc })
  if lost then d.inc .hkRollbacks (s * 32 + st) 0 else d

/-- A pending interrupt taken at a yield point of context `k`: the interrupt routine starts, and its
steps come first in the Sleeve's housekeeping work. -/
def Dev.takeInterrupt (d : Dev) (s st k : Nat) : Dev :=
  match (d.engine s st).interrupt with
  | none => d
  | some w =>
    if k = 4 then d
    else
      let d := d.rollBack s st k
      let g := d.engine s st
      let r : Routine := { running := true, regs := zeroRegs, pc := w, snapRegs := zeroRegs, snapPc := w }
      let d := d.setEngine s st { g.setRoutine 4 r with interrupt := none, interrupted := some k }
      let x := d.sleeve s
      d.setSleeve s { x with hk := .routine st 4 :: x.hk }

/-- The words of one step, at most `fuel`: the device, and whether the routine goes on in a later
step. -/
def hkWords (s st k : Nat) : Nat → Dev → Dev × Bool
  | 0, d => (d.takeInterrupt s st k, true)
  | fuel + 1, d =>
    let g := d.engine s st
    let r := g.routines.get .reset k
    let e : LaneEnv := { sleeve := s, stage := st, frame := none, tenancy := 16, deep := false, hk := some k }
    let l : LaneState :=
      { regs := r.regs, alu := { z := false, n := false, c := false, v := false }, hit := false,
        err := false, multi := false, ctx := 0, side := 0, desc := 0, dev := d, later := [],
        laterFlags := none, fault := none, room := true }
    let w := d.storeWord st r.pc
    if g.bad.contains r.pc then (d.rollBack s st k, true)
    else
      let (fl, l') := wordCycle e r.pc l
      if !l'.room then (d.inc .overlayFull (s * 32 + st) 0, true)
      else
        let l' := landLater l' { l' with later := [], laterFlags := none }
        let pc := match fl with
          | .jump t => t % 4096
          | _ => (r.pc + 1) % 4096
        let r := { r with regs := l'.regs, pc := pc }
        let d := l'.dev
        let g := (d.engine s st).setRoutine k r
        let d := d.setEngine s st (if wordBits w 232 1 = 1 then commitPoint g k r else g)
        match fl with
        | .hkEnd => 
          let g := d.engine s st
          let g := g.setRoutine k { r with running := false }
          (d.setEngine s st (if k = 4 then { g with interrupted := none } else g), false)
        | .stop => (d.takeInterrupt s st k, true)
        | _ =>
          if wordBits w 233 1 = 1 && g.interrupt.isSome && k != 4 then (d.takeInterrupt s st k, true)
          else hkWords s st k fuel d

/-- One step of a routine context (R215). -/
def Dev.hkStep (d : Dev) (s st k : Nat) : Dev :=
  let (d, more) := hkWords s st k 8 d
  if more then
    let x := d.sleeve s
    d.setSleeve s { x with hk := x.hk ++ [.routine st k] }
  else d

end Sys2Proof.Machine
end

