-- ==== Sys2Proof/Machine/Parse.lean ====
section
/-! DEFINITION. Parsing, payload patterns and fragments (04): stages 0 to 4 and the parser's
messages. -/

namespace Sys2Proof.Machine

/-! ### Shared by the stage rows -/

/-- The work of a row of the pipeline on a packet that stands at phase `ph`: its own effect, the next
phase, and the hooks of the stages it covers, under the tables of the packet's Sleeve. -/
def Dev.stageRow (d : Dev) (fid : Nat) (ph next : Phase) (stages : List Nat) (act : Frame → Dev → Dev) :
    Dev :=
  d.atPhase fid ph fun f => d.inWorld f fun d =>
    let d := act f d
    let d := d.withFrame fid fun f =>
      d.setFrame fid (if f.phase = ph then { f with phase := next } else f)
    stages.foldl (fun d st => d.hook fid st) d

/-- Whether a frame came from a Cuff, or is replayed as one that did. -/
def Frame.fromCuff (f : Frame) : Bool :=
  match f.origin with
  | .inject _ => false
  | .replay _ => !flag f.ctx fInjected
  | .cuff => true

/-- Whether a frame is replayed. -/
def Frame.isReplay (f : Frame) : Bool :=
  match f.origin with
  | .replay _ => true
  | _ => false

/-- Whether a frame is received by a Cuff. -/
def Frame.isLive (f : Frame) : Bool :=
  match f.origin with
  | .cuff => true
  | _ => false

/-- The parse record of a frame's port. -/
def Dev.parsePort (d : Dev) (p : Nat) : ParsePortRec := d.parse.ports.get (parsePortReset p) p

/-! ### Stages 0 to 2 (R91 to R104) -/

/-- What the parser reads under for a frame. -/
def parseEnvOf (d : Dev) (f : Frame) : ParseEnv :=
  let r := d.parsePort f.port
  let deep := flag f.ctx fDeep
  let incomplete := flag f.ctx fIncomplete
  { bytes := f.bytes, limitLen := if incomplete then f.maxFrame - 4 else f.len - 4,
    incomplete := incomplete,
    byteLimit := min f.slice (if deep then r.deepBytes else 128),
    layerLimit := if deep then r.deepLayers else r.stdLayers,
    vlanMax := if deep then 4 else r.stdLayers, mplsMax := if deep then 12 else r.stdLayers,
    deep := deep, rec' := r, ptp := f.ptp }

/-- PARSE. -/
def execParse (fid : Nat) (s : State) : Host.Outcome State Fault Refusal :=
  running (fun d => d.stageRow fid .parse .pattern [0, 1, 2] fun f d =>
    let a := parsePacket (parseEnvOf d f) f.ctx
    let first := f.isLive && f.pass = 0
    let d := if first && pflag a.c 1 then d.inc .parseMalformed f.port 0 else d
    let d := if first && pflag a.c 0 then d.inc .parseTruncated f.port 0 else d
    let trap := a.note.ptpTrap && f.fromCuff && f.pass = 0
    let d := if trap && f.isLive then d.inc .ptpRxTrapped f.port 0 else d
    d.setFrame fid { f with ctx := a.c, note := { a.note with ptpTrap := trap },
                            side := putBits f.side sClaimed.lo sClaimed.w a.claimed }) s

/-! ### Stage 3 (R99 to R102) -/

/-- The length of the payload window (R99). -/
def windowLen (d : Dev) (f : Frame) : Nat :=
  if flag f.ctx fDeep || pflag f.ctx 1 then 0
  else
    let off := fld f.ctx fPayOff
    let n := min (d.parsePort f.port).windowMax (f.slice - off)
    if flag f.ctx fIncomplete then n else min n (f.len - 4 - off)

/-- Nibble `i` of a list of bytes: the low nibble of a byte first. -/
def nibble (bs : List Nat) (i : Nat) : Nat :=
  if i % 2 = 0 then byteAt bs (i / 2) % 16 else byteAt bs (i / 2) / 16

/-- Whether a pattern matches a window at offset `o` (R100). -/
def patternAt (w : List Nat) (p : PatternRec) (o : Nat) : Bool :=
  decide (o + p.len ≤ w.length) &&
    (List.range (2 * p.len)).all fun i => !p.nibbleMask.testBit i || nibble w (2 * o + i) = nibble p.value i

/-- Whether a pattern matches a window. -/
def patternHits (w : List Nat) (p : PatternRec) : Bool :=
  (List.range (p.offsetMax + 1 - p.offsetMin)).any fun i => patternAt w p (p.offsetMin + i)

/-- The patterns that match a packet, in ascending order: number and vector bit. -/
def matchingPatterns (d : Dev) (f : Frame) (w : List Nat) : List (Nat × Nat) :=
  let t := fld f.ctx fTenancy
  let v := fld f.ctx fVersion
  if w.isEmpty then []
  else
    (List.range 512).filterMap fun i =>
      match d.parse.patterns.get? i with
      | some p =>
        if d.holds t 7 (i / 32) && p.live.testBit v && patternHits w p.data then
          some (i, p.data.vectorBit)
        else none
      | none => none

/-- The eCPRI and O-RAN fields of an extracting layer (R102, Table 4-6). -/
def extractOran (c : BitVec 512) (msg : Nat) (w : List Nat) : BitVec 512 :=
  if msg != 0 && msg != 2 then putBits c fEcpriMsg.lo fEcpriMsg.w msg
  else if w.length < 8 then c
  else
    let b := byteAt w
    let version := b 4 / 16 % 8
    let c := putAll c
      [(fEcpriMsg, msg), (fEaxc, b 0 * 256 + b 1), (fDirection, b 4 / 128), (fPayVersion, version),
       (fFilter, b 4 % 16), (fFrameId, b 5), (fSubframe, b 6 / 16),
       (fSlotId, b 6 % 16 * 4 + b 7 / 64), (fSymbol, b 7 % 64)]
    if version = 1 then setFlag c 8 else c

/-- PAYLOAD_PATTERN_MATCH. -/
def execPayloadPatternMatch (fid : Nat) (s : State) : Host.Outcome State Fault Refusal :=
  running (fun d => d.stageRow fid .pattern .fragment [3] fun f d =>
    let off := fld f.ctx fPayOff
    let w := bytesAt f.bytes off (windowLen d f)
    let hits := matchingPatterns d f w
    let vector := hits.foldl (fun v h => setBit v h.2) 0
    let c := match hits with
      | [] => f.ctx
      | h :: _ => putAll f.ctx [(fVector, vector), (fPatIndex, h.1), (fPatValid, 1)]
    let c := if pflag c 7 && !pflag c 1 then extractOran c (byteAt f.bytes (off - 3)) w else c
    let d := hits.foldl (fun d h => d.inc .patternHits h.1 0) d
    d.setFrame fid { f with ctx := c }) s

/-! ### Stage 4 (R105 to R112) -/

/-- The fragment timeout of a Sleeve in cycles. -/
def Dev.fragTimeout (d : Dev) (s : Nat) : Nat := d.parse.timeoutUs.get 2000 s * cyclesPerUs

/-- The cycle count by which stage 4 measures age: the Sleeve's, and under replay the recorded ingress
timestamp at 3 cycles per nanosecond, less the steps recorded so far (R112). -/
def fragClock (d : Dev) (f : Frame) : Nat :=
  if f.isReplay then
    let fix := match d.replayOn f.sleeve with
      | some r => r.stepFix
      | none => 0
    wrap 32 (((f.stamp.sec * 1000000000 + f.stamp.ns) * 3 : Nat) - fix)
  else d.sleeveCycles f.sleeve % 2 ^ 32

/-- Whether an entry has expired at a cycle count (R111). -/
def fragExpired (d : Dev) (s clock : Nat) (e : FragEntry) : Bool :=
  decide (d.fragTimeout s ≤ (clock + 2 ^ 32 - e.created) % 2 ^ 32)

/-- The expired ways of a set freed and counted. -/
def Dev.expireSet (d : Dev) (s set clock : Nat) : Dev :=
  (List.range 8).foldl (fun d w =>
    let i := set * 8 + w
    match d.fragAt s i with
    | some e =>
      if fragExpired d s clock e then
        (d.setFrag s i none).inc .fragExpired (s * 16 + fragTenancy e.key) 0
      else d
    | none => d) d

/-- The way of a set that holds a key. -/
def Dev.fragFind (d : Dev) (s : Nat) (k : FragKey) : Option (Nat × FragEntry) :=
  ((List.range 8).filterMap fun w =>
    (d.fragAt s (fragSet k * 8 + w)).map fun e => (fragSet k * 8 + w, e)).find? fun x => x.2.key = k

/-- The lowest FREE way of a key's set. -/
def Dev.fragFree (d : Dev) (s : Nat) (k : FragKey) : Option Nat :=
  ((List.range 8).map fun w => fragSet k * 8 + w).find? fun i => (d.fragAt s i).isNone

/-- frag_state written (Table 4-8). -/
def fragState (f : Frame) (n : Nat) : Frame :=
  { f with ctx := putBits f.ctx fFragState.lo fFragState.w n }

/-- An orphan (R110), a pending one when `waited`. -/
def Dev.orphan (d : Dev) (fid : Nat) (f : Frame) (k : Nat) (waited : Bool) : Dev :=
  let d := d.inc .fragOrphan k 0
  let d := if waited then d.inc .fragPendingOrphan k 0 else d
  d.setFrame fid (fragState { f with fragWaits := none } 4)

/-- A first fragment (R106). -/
def Dev.firstFragment (d : Dev) (fid : Nat) (f : Frame) (key : FragKey) : Dev :=
  let s := f.sleeve
  let t := fragTenancy key
  let k := s * 16 + t
  let e : FragEntry :=
    { key := key, created := fragClock d f, decided := none,
      version := fld f.ctx fVersion * 2 ^ 14 + fld f.ctx fEpoch }
  let made (d : Dev) (i : Nat) : Dev :=
    let f := fragState f 1
    (d.setFrag s i (some e)).setFrame fid
      { f with fragIndex := some i, ctx := putBits f.ctx fFragIndex.lo fFragIndex.w i }
  let refused (d : Dev) : Dev := (d.inc .fragRefused k 0).setFrame fid (fragState f 2)
  match d.fragFind s key with
  | some (i, _) => made (d.inc .fragFirstDup k 0) i
  | none =>
    if d.fragQuota s t ≤ d.fragInUse s t then
      if d.parse.full.contains k then refused d
      else
        refused ({ d with parse := { d.parse with full := k :: d.parse.full } }.raise 0x0401
          (ownerAnd t) [s, t])
    else
      let d := { d with parse := { d.parse with full := d.parse.full.erase k } }
      match d.fragFree s key with
      | some i => made (d.inc .fragCreated k 0) i
      | none => refused d

/-- The cycles from a fragment's entry to stage 4 to the earliest entry of its pass: the stay of 2 cycles (Table
8-1), then 144 (R109). -/
def fragReturn : Nat := 2 + 144

/-- A later fragment (R108 to R110). -/
def Dev.laterFragment (d : Dev) (fid : Nat) (f : Frame) (key : FragKey) : Dev :=
  let k := f.sleeve * 16 + fragTenancy key
  let waited := f.fragWaits.isSome
  match d.fragFind f.sleeve key with
  | none => d.orphan fid f k waited
  | some (i, e) =>
    match e.decided with
    | some (dec, ctx) =>
      let f := fragState { f with fragWaits := none } 3
      (d.inc .fragDecidedHits k 0).setFrame fid
        { f with ctx := putAll f.ctx [(fFlowRef, dec % 2 ^ 24), (fFlowCtx, ctx), (fFragIndex, i)],
                 fragIndex := some i, stored := dec }
    | none =>
      if waited then d.orphan fid f k true
      else
        match d.takePlace fid f with
        | some d => d.setFrame fid (fragState { f with fragWaits := some (d.now + fragReturn), place := true } 5)
        | none => d.orphan fid f k true

/-- Stage 4 of a packet. -/
def Dev.fragmentStage (d : Dev) (fid : Nat) : Dev :=
  d.stageRow fid .fragment .keyBuild [4] fun f d =>
    match f.note.fragKey with
    | none => d
    | some key =>
      if !(f.fromCuff && (f.pass = 0 || f.fragWaits.isSome)) || f.note.fragBad then d
      else
        let d := d.expireSet f.sleeve (fragSet key) (fragClock d f)
        if f.note.later then d.laterFragment fid f key else d.firstFragment fid f key

/-- Whether packet `fid` is on the pass of R109 and may not reach stage 4 yet. -/
def Dev.fragEarly (d : Dev) (fid : Nat) : Bool :=
  match d.frame fid with
  | some f => f.pass != 0 && decide (d.now < f.fragWaits.getD 0)
  | none => false

/-- FRAGMENT_LOOKUP. -/
def execFragmentLookup (fid : Nat) (s : State) : Host.Outcome State Fault Refusal :=
  running (fun d => if d.fragEarly fid then d else d.fragmentStage fid) s

/-- FRAGMENT_WRITE_BACK (R107). -/
def execFragmentWriteBack (fid : Nat) (s : State) : Host.Outcome State Fault Refusal :=
  running (fun d =>
    match d.parse.writeBacks.find? fun w => w.1 = fid with
    | none => d
    | some (_, k, dec, ctx) =>
      let d := { d with parse := { d.parse with
                   writeBacks := d.parse.writeBacks.filter fun w => w.1 != fid } }
      match d.parse.frags.get? k with
      | some e => d.setFrag (k / 4096) (k % 4096) (some { e with decided := some (dec, ctx) })
      | none => d) s

/-- FRAG_SWEEP_VISIT (R111): set `k` of a pass is visited ⌊k × timeout / 2,048⌋ cycles after the pass
starts, and a pass takes timeout / 4 cycles. -/
def execFragSweepVisit (sleeve : Nat) (s : State) : Host.Outcome State Fault Refusal :=
  running (fun d =>
    let k := d.parse.sweepSet.get 0 sleeve
    let start := d.parse.sweepFrom.get 0 sleeve
    let now := d.sleeveCycles sleeve
    if 7 ≤ sleeve || now < start + k * d.fragTimeout sleeve / 2048 then d
    else
      let d := d.expireSet sleeve k (now % 2 ^ 32)
      let last := k = 511
      { d with parse := { d.parse with
          sweepSet := d.parse.sweepSet.set sleeve (if last then 0 else k + 1),
          sweepFrom := if last then d.parse.sweepFrom.set sleeve (start + d.fragTimeout sleeve / 4)
            else d.parse.sweepFrom } }) s

/-! ### Messages -/

/-- R113: what PARSE_PORT_SET checks. -/
def parsePortChecks (who : Sender) (r : ParsePortRec) : List (Bool × Status) :=
  let udp := r.flags.testBit 2
  [(!who.isOwner, .notPermitted),
   (95 < r.port || r.stdLayers = 0 || 6 < r.stdLayers || r.deepLayers = 0 || 16 < r.deepLayers ||
      r.deepBytes < 64 || 512 < r.deepBytes || r.deepBytes % 8 != 0 || 256 < r.windowMax ||
      (if udp then r.ecpriUdpPort = 0 || 65535 < r.ecpriUdpPort else r.ecpriUdpPort != 0) ||
      2 < r.malformedAction || 1 < r.orphanAction ||
      ((r.flags.testBit 1 || udp) && !r.flags.testBit 0) ||
      [2152, 4789, 319, 320].contains r.ecpriUdpPort, .badField)]

/-- PARSE_PORT_SET. -/
def execParsePortSet (h : Hdr) (r : ParsePortRec) (s : State) : Host.Outcome State Fault Refusal :=
  runMessage { code := 0x0401, lenOk := exactly 16, maxBody := 0 } h (fun who d =>
    setting (parsePortChecks who r) d fun d =>
      { d with parse := { d.parse with ports := d.parse.ports.set r.port { r with flags := r.flags % 8 } } }) s

/-- Whether a change adds pattern `i`. -/
def addsPattern (i : Nat) : Change → Bool
  | .patternAdd j _ => i = j
  | _ => false

/-- The checks that PATTERN_SET and PATTERN_CLEAR share (R114). -/
def patternUnit (who : Sender) (d : Dev) (i : Nat) : List (Bool × Status) :=
  [(511 < i || !d.holds who.tenancy 7 (i / 32), .notPermitted),
   (who.stale (d.unit 7 (i / 32)).epoch, .staleEpoch)]

/-- R114: what PATTERN_SET checks. -/
def patternSetChecks (who : Sender) (d : Dev) (r : PatternRec) : List (Bool × Status) :=
  patternUnit who d r.index ++
  [(15 < r.vectorBit || r.len = 0 || 32 < r.len || 255 < r.offsetMin || r.offsetMax < r.offsetMin ||
      r.offsetMin + 63 < r.offsetMax || 256 < r.offsetMax + r.len ||
      r.nibbleMask / 2 ^ (2 * r.len) != 0 || (r.value.drop r.len).any (· != 0), .badField),
   ((d.parse.patterns.get? r.index).isSome || d.stagedAdd (addsPattern r.index), .slotBusy),
   (!d.canStage who.tenancy 1, .noSpace)]

/-- PATTERN_SET. -/
def execPatternSet (h : Hdr) (r : PatternRec) (s : State) : Host.Outcome State Fault Refusal :=
  runMessage { code := 0x0402, lenOk := exactly 48, maxBody := 0 } h (fun who d =>
    setting (patternSetChecks who d r) d fun d =>
      d.stage who.tenancy (.patternAdd r.index r) [(7, r.index / 32)] 1) s

/-- R114: what PATTERN_CLEAR checks. -/
def patternClearChecks (who : Sender) (d : Dev) (i : Nat) : List (Bool × Status) :=
  patternUnit who d i ++
  [(match d.parse.patterns.get? i with
    | some p => !p.live.testBit d.current
    | none => true, .badState),
   (!d.canStage who.tenancy 1, .noSpace)]

/-- Pattern `i`, or one of zeros. -/
def Dev.patternRec (d : Dev) (i : Nat) : PatternRec :=
  match d.parse.patterns.get? i with
  | some p => p.data
  | none => { index := i, vectorBit := 0, len := 0, offsetMin := 0, offsetMax := 0, nibbleMask := 0, value := [] }

/-- PATTERN_CLEAR. -/
def execPatternClear (h : Hdr) (index : Nat) (s : State) : Host.Outcome State Fault Refusal :=
  runMessage { code := 0x0403, lenOk := exactly 2, maxBody := 0 } h (fun who d =>
    setting (patternClearChecks who d index) d fun d =>
      d.stage who.tenancy (.patternDel index (d.patternRec index)) [(7, index / 32)] 1) s

/-- R115: what FRAG_CONFIG_SET checks. -/
def fragConfigChecks (who : Sender) (r : FragConfigRec) : List (Bool × Status) :=
  [(!who.isOwner, .notPermitted),
   ((6 < r.sleeve && r.sleeve != 255) || r.timeoutUs < 100 || 100000 < r.timeoutUs ||
      r.quota.length != 16 || r.quota.any (4096 < ·), .badField),
   (4096 < r.quota.sum, .noSpace)]

/-- The Sleeves that a record names: one, or every one for 0xFF. -/
def sleevesNamed (n : Nat) : List Nat := if n = 255 then List.range 7 else [n]

/-- FRAG_CONFIG_SET. -/
def execFragConfigSet (h : Hdr) (r : FragConfigRec) (s : State) : Host.Outcome State Fault Refusal :=
  runMessage { code := 0x0404, lenOk := exactly 40, maxBody := 0 } h (fun who d =>
    setting (fragConfigChecks who r) d fun d =>
      (sleevesNamed r.sleeve).foldl (fun d s =>
        { d with parse := { d.parse with timeoutUs := d.parse.timeoutUs.set s r.timeoutUs,
                                         quota := d.parse.quota.set s r.quota } }) d) s

/-- R89: whether a session reads the Traffic class of a port's counters. -/
def portReadable (who : Sender) (d : Dev) (p : Nat) : Bool :=
  who.isOwner || (who.role == .tenant && d.wholly p == some who.tenancy)

/-- The fragment counters of a Sleeve and tenancy, in the order of Table 4-12. -/
def fragCounters (d : Dev) (s t : Nat) : List Nat :=
  [Ctr.fragCreated, .fragFirstDup, .fragRefused, .fragDecidedHits, .fragOrphan, .fragPendingOrphan,
   .fragExpired].map (fun c => d.ctr c (s * 16 + t) 0) ++ [d.fragInUse s t]

/-- PARSE_STATS_GET (R116): kind 0 a port, 1 a pattern block, 2 a Sleeve and tenancy. -/
def execParseStatsGet (h : Hdr) (kind unit tenancy : Nat) (s : State) :
    Host.Outcome State Fault Refusal :=
  runMessage { code := 0x0405, lenOk := fun _ => true, maxBody := 256, changes := false } h (fun who d =>
    let allowed := match kind with
      | 0 => portReadable who d unit
      | 1 => who.role != .maint && d.holds who.tenancy 7 unit
      | _ => who.role != .tenant || who.tenancy = tenancy
    checked [(2 < kind || (kind = 0 && 95 < unit) || (kind = 1 && 15 < unit) ||
                (kind = 2 && (6 < unit || 15 < tenancy)), .badField), (!allowed, .notPermitted)] d
      fun d => match kind with
        | 0 => (.values [d.ctr .parseMalformed unit 0, d.ctr .parseMalformedLate unit 0,
                         d.ctr .parseTruncated unit 0], d)
        | 1 => (.values ((List.range 32).map fun i => d.ctr .patternHits (unit * 32 + i) 0), d)
        | _ =>
          if who.isMaint then (.values [d.fragInUse unit tenancy], d)
          else (.values (fragCounters d unit tenancy), d)) s

end Sys2Proof.Machine
end

