-- ==== Sys2Proof/Machine/Tables.lean ====
section
/-! DEFINITION. Exact-match and learning tables (05): stages 5 to 7, the learn engine, the scanner and the
tables' messages. -/

namespace Sys2Proof.Machine

/-! ### Stages 5 and 6 (R119 to R125) -/

/-- A port's learning settings. -/
def Dev.learnPort (d : Dev) (p : Nat) : LearnPortRec := d.tables.ports.get (learnPortReset p) p

/-- The bridge domain of a packet (R132). -/
def bridgeDomain (d : Dev) (f : Frame) : Nat :=
  if fld f.ctx fVlans = 0 then (d.learnPort f.port).defaultBd else fld f.ctx fVid

/-- A malformed packet whose port does not continue with it. -/
def stopsMalformed (d : Dev) (f : Frame) : Bool :=
  pflag f.ctx 1 && (d.parsePort f.port).malformedAction != 2

/-- A later fragment whose lookups are skipped: frag_state 3 or 5 (R108, R109). -/
def skipsLookups (f : Frame) : Bool :=
  let n := fld f.ctx fFragState
  n = 3 || n = 5

/-- FLOW_KEY_BUILD. -/
def execFlowKeyBuild (fid : Nat) (s : State) : Host.Outcome State Fault Refusal :=
  running (fun d => d.stageRow fid .keyBuild .flow [5] fun f d =>
    let c := putBits f.ctx 96 80 0
    if fld f.ctx fFragState = 3 then
      let kept := [(fFlowRef, fld f.ctx fFlowRef), (fFlowCtx, fld f.ctx fFlowCtx)]
      d.setFrame fid { f with flowKey := none, ctx := putAll c kept }
    else
      let f := { f with ctx := putBits c fBd.lo fBd.w (bridgeDomain d f), flowKey := none }
      if skipsLookups f || stopsMalformed d f then d.setFrame fid f
      else
        let t := fld f.ctx fTenancy
        let skip (d : Dev) : Dev := (d.inc .flowKeySkip (f.sleeve * 16 + t) 0).setFrame fid f
        match selectProfile d.tables.profiles t (fld f.ctx fL3Type) with
        | none => skip d
        | some (p, r) =>
          match extractAll f (r.extract.take r.count) with
          | none => skip d
          | some bs => d.setFrame fid { f with flowKey := some (p, maskedKey 16 r.keyMask bs) }) s

/-- A flow entry of Sleeve `s` lost to an uncorrectable error, to be rewritten from the shadow. -/
def Dev.loseFlow (d : Dev) (s i : Nat) : Dev :=
  let d := d.inc .tableEccUncorrectable (s * 32 + 6) 1
  let x := d.sleeve s
  { d with tables := { d.tables with flowBad := (s * 2 ^ 19 + i) :: d.tables.flowBad } }.setSleeve s
    { x with hk := x.hk ++ [HkWork.flowRewrite i] }

/-- The hit bit of a flow entry in Sleeve `s` set. -/
def Dev.hitFlow (d : Dev) (s i : Nat) : Dev :=
  let k := s * 2 ^ 19 + i
  if d.tables.flowHits.contains k then d
  else { d with tables := { d.tables with flowHits := k :: d.tables.flowHits } }

/-- FLOW_LOOKUP (R125); `ecc` is what the check of the entry found says. -/
def execFlowLookup (fid : Nat) (ecc : Ecc) (s : State) : Host.Outcome State Fault Refusal :=
  running (fun d => d.stageRow fid .flow .learn [6] fun f d =>
    let t := fld f.ctx fTenancy
    let k := f.sleeve * 16 + t
    match f.flowKey with
    | none => d
    | some (p, key) =>
      if (d.flowBuckets p t key).isNone then d
      else
        let d := d.inc .flowLookups k 0
        match d.flowFind f.sleeve p t (fld f.ctx fVersion) key with
        | none => d
        | some (i, e) =>
          if ecc = .uncorrectable then d.loseFlow f.sleeve i
          else
            let d := if ecc = .corrected then d.inc .tableEccCorrected (f.sleeve * 32 + 6) 1 else d
            ((d.inc .flowHits k 0).hitFlow f.sleeve i).setFrame fid
              { f with ctx := putAll f.ctx [(fFlowHit, 1), (fFlowRef, e.actionRef),
                                            (fFlowCtx, e.flowContext), (fFlowMeta, e.metaVal)] }) s

/-! ### Stage 7 (R134, R139) -/

/-- An uncorrectable learning entry freed (Table 5-10). -/
def Dev.loseLearn (d : Dev) (s i : Nat) (e : LearnEntry) : Dev :=
  ((d.setLearn s i none).inc .tableEccUncorrectable (s * 32 + 7) 2).raise 0x0504
    (.maint :: ownerAnd e.tenancy) []

/-- The ECC check of what a lookup found: nothing, a count, or the entry freed. -/
def Dev.checkLearn (d : Dev) (s : Nat) (ecc : Ecc) (x : Option (Nat × LearnEntry)) : Dev :=
  match x, ecc with
  | some _, .corrected => d.inc .tableEccCorrected (s * 32 + 7) 2
  | some (i, e), .uncorrectable => d.loseLearn s i e
  | _, _ => d

/-- The destination lookup. -/
def Dev.destination (d : Dev) (fid : Nat) (f : Frame) (t bd : Nat) : Dev :=
  match d.learnFind f.sleeve t bd (beAt f.bytes 0 6) with
  | some (_, e) => d.setFrame fid { f with ctx := putAll f.ctx [(fDstHit, 1), (fDstPort, e.port)] }
  | none => d.inc .dstMiss (f.sleeve * 16 + t) 0

/-- A source found: its hit bit, and R139 on another port. -/
def Dev.sourceFound (d : Dev) (fid : Nat) (f : Frame) (i : Nat) (e : LearnEntry) : Dev :=
  let k := f.sleeve * 16 + e.tenancy
  let e := { e with hit := true }
  let c := putBits f.ctx fSrcHit.lo fSrcHit.w 1
  if e.port = f.port then (d.setLearn f.sleeve i (some e)).setFrame fid { f with ctx := c }
  else if e.isStatic then
    ((d.setLearn f.sleeve i (some e)).inc .learnStaticConflict k 0).setFrame fid { f with ctx := c }
  else
    let e := { e with port := f.port }
    (((d.setLearn f.sleeve i (some e)).inc .learnMoves k 0).markLearn f.sleeve 2 i e.tenancy
      (some e)).setFrame fid { f with ctx := putBits c fSrcMoved.lo fSrcMoved.w 1 }

/-- A tenancy's learning policy. -/
def Dev.learnPolicy (d : Dev) (t : Nat) : LearnPolicyRec := d.tables.policies.get learnPolicyReset t

/-- Whether replay of a tenancy on this Sleeve learns from its packets: the replay learning flag, and no
learn recording in its capture (R144, R368). -/
def Dev.replayLearns (d : Dev) (t : Nat) : Bool :=
  (d.learnPolicy t).flags.testBit 1 &&
    (match d.lining.captures.get? t with
     | some c => !c.data.flags.testBit 2
     | none => true)

/-- Whether a source that is not found raises a learn request. -/
def raisesLearn (d : Dev) (f : Frame) (t : Nat) : Bool :=
  (d.learnPort f.port).flags.testBit 0 && !pflag f.ctx 1 && !(f.note.fragKey.isSome && f.note.later) &&
    (!f.isReplay || d.replayLearns t)

/-- The source lookup. -/
def Dev.source (d : Dev) (fid : Nat) (f : Frame) (t bd : Nat) : Dev :=
  let mac := beAt f.bytes 6 6
  if !(f.fromCuff && f.pass = 0) || (byteAt f.bytes 6).testBit 0 then d
  else
    match d.learnFind f.sleeve t bd mac with
    | some (i, e) => d.sourceFound fid f i e
    | none =>
      if raisesLearn d f t then
        d.setFrame fid { f with ctx := putBits f.ctx fLearnReq.lo fLearnReq.w 1,
                                learn := some { tenancy := t, bd := bd, mac := mac, port := f.port } }
      else d

/-- LEARN_LOOKUP; `ecc` is what the check of the first entry found says. -/
def execLearnLookup (fid : Nat) (ecc : Ecc) (s : State) : Host.Outcome State Fault Refusal :=
  running (fun d => d.stageRow fid .learn .tcam [7] fun f d =>
    if skipsLookups f || stopsMalformed d f then d
    else
      let t := fld f.ctx fTenancy
      let bd := fld f.ctx fBd
      let dst := d.learnFind f.sleeve t bd (beAt f.bytes 0 6)
      let src := d.learnFind f.sleeve t bd (beAt f.bytes 6 6)
      let d := d.checkLearn f.sleeve ecc (if dst.isSome then dst else src)
      let d := d.destination fid f t bd
      d.withFrame fid fun f => d.source fid f t bd) s

/-! ### The learn engine (R136, R137) -/

/-- The other candidate bucket of a learning entry that stands at index `i`. -/
def Dev.otherBucket (d : Dev) (i : Nat) (e : LearnEntry) : Nat :=
  let b := d.learnBuckets e.tenancy e.bd e.mac
  if i / 4 = b.1 then b.2 else b.1

/-- The lowest free way of a bucket in Sleeve `s`. -/
def Dev.freeWay (d : Dev) (s b : Nat) : Option Nat :=
  ((List.range 4).map fun w => b * 4 + w).find? fun i => (d.learnAt s i).isNone

/-- A learning entry moved, copy before clear (R129). -/
def Dev.moveLearn (d : Dev) (s i j : Nat) (e : LearnEntry) : Dev :=
  ((d.setLearn s j (some e)).setLearn s i none).markLearn s 1 j e.tenancy (some e)

/-- The entry written at an index. -/
def Dev.insertLearn (d : Dev) (s i op : Nat) (e : LearnEntry) : Dev :=
  let l := d.learner s
  ((((d.setLearn s i (some e)).inc .learnInserted (s * 16 + e.tenancy) 0).setLearner s
    { l with tableFull := false }).markLearn s op i e.tenancy (some e))

/-- Steps 2 to 4 of R136: a place for an entry, after a relocation where one is made. -/
def Dev.learnPlace (d : Dev) (s : Nat) (e : LearnEntry) (reloc : Bool) : Option (Nat × Dev) :=
  let b := d.learnBuckets e.tenancy e.bd e.mac
  match d.freeWay s b.1, d.freeWay s b.2 with
  | some i, _ => some (i, d)
  | none, some i => some (i, d)
  | none, none =>
    let move : Option (Nat × Dev) :=
      if reloc then
        (wayIndexes b.1 b.2).findSome? fun i =>
          match d.learnAt s i with
          | some x =>
            (d.freeWay s (d.otherBucket i x)).map fun j =>
              (i, (d.moveLearn s i j x).inc .learnRelocated (s * 16 + e.tenancy) 0)
          | none => none
      else none
    match move with
    | some m => some m
    | none => (stashIndexes.find? fun i => (d.learnAt s i).isNone).map fun i => (i, d)

/-- The candidate with the highest age, the earliest among equals. -/
def oldestOf : List (Nat × LearnEntry) → Option (Nat × LearnEntry)
  | [] => none
  | x :: xs =>
    match oldestOf xs with
    | some y => if x.2.age < y.2.age then some y else some x
    | none => some x

/-- R137: the victim that the tenancy's eviction policy chooses. -/
def Dev.learnVictim (d : Dev) (s : Nat) (e : LearnEntry) : Option (Nat × LearnEntry) :=
  let b := d.learnBuckets e.tenancy e.bd e.mac
  let cs := ((wayIndexes b.1 b.2).filterMap fun i => (d.learnAt s i).map fun x => (i, x)).filter
    fun x => x.2.tenancy = e.tenancy && !x.2.isStatic
  match (d.learnPolicy e.tenancy).eviction with
  | 1 =>
    let draw := hash0 (beBytes 8 (d.learner s).seed ++ d.learnInput e.tenancy e.bd e.mac)
    cs[draw * cs.length / 2 ^ 32]?
  | 2 => oldestOf cs
  | _ => none

/-- The quota of a tenancy. -/
def Dev.learnQuota (d : Dev) (t : Nat) : Nat := d.tables.quotas.get 0 t

/-- Whether a tenancy has reached its quota in Sleeve `s`. -/
def Dev.atQuota (d : Dev) (s t : Nat) : Bool := decide (d.learnQuota t ≤ d.learnInUse s t)

/-- A refusal at quota, with its event at the first after the tenancy had room. -/
def Dev.refuseQuota (d : Dev) (s t : Nat) : Dev :=
  let k := s * 16 + t
  let d := d.inc .learnRefusedQuota k 0
  if d.tables.quotaFull.contains k then d
  else { d with tables := { d.tables with quotaFull := k :: d.tables.quotaFull } }.raise 0x0502
    (ownerAnd t) []

/-- A refusal at step 6, with its event. -/
def Dev.refuseFull (d : Dev) (s t : Nat) : Dev :=
  let d := d.inc .learnRefusedFull (s * 16 + t) 0
  let l := d.learner s
  if l.tableFull then d
  else (d.setLearner s { l with tableFull := true }).raise 0x0503 (.maint :: ownerAnd t) []

/-- One learn request taken (R136). -/
def Dev.learnRequest (d : Dev) (s : Nat) (r : LearnReq) : Dev :=
  let t := r.tenancy
  let k := s * 16 + t
  let e : LearnEntry := { mac := r.mac, bd := r.bd, tenancy := t, isStatic := false, port := r.port,
                          age := 0, hit := true }
  match d.learnFind s t r.bd r.mac with
  | some _ => d.inc .learnDuplicate k 0
  | none =>
    if d.atQuota s t then d.refuseQuota s t
    else
      let d := { d with tables := { d.tables with quotaFull := d.tables.quotaFull.erase k } }
      match d.learnPlace s e ((d.learnPolicy t).flags.testBit 0) with
      | some (i, d) => d.insertLearn s i 1 e
      | none =>
        match d.learnVictim s e with
        | some (i, v) =>
          ((d.inc .learnEvicted k 0).markLearn s 3 i t (some v)).insertLearn s i 1 e
        | none => d.refuseFull s t

/-- A static write is over: gone from every Sleeve's queue. -/
def Dev.dropStatic (d : Dev) (id : Nat) : Dev :=
  { d with tables := { d.tables with
      statics := d.tables.statics.filter fun x => x.id != id,
      engines := d.tables.engines.map fun _ l => { l with statics := l.statics.filter (· != id) } } }

/-- A static write applied by Sleeve `s` (R148): in place, or by steps 1 to 4 of R136 with relocation. -/
def Dev.applyStatic (d : Dev) (s : Nat) (w : StaticWrite) : Dev :=
  let t := w.tenancy
  let e : LearnEntry := { mac := w.data.mac, bd := w.data.bd, tenancy := t, isStatic := true,
                          port := w.data.port, age := 0, hit := false }
  let put (d : Dev) (i : Nat) : Dev :=
    let l := d.learner s
    let d := d.setLearner s { l with statics := l.statics.filter (· != w.id) }
    let w := { w with done := w.done ++ [(s, i)] }
    if w.done.length = 7 then (d.dropStatic w.id).finish w.token .ok 0 []
    else
      let ws := d.tables.statics.map fun x => if x.id = w.id then w else x
      { d with tables := { d.tables with statics := ws } }
  let refuse (d : Dev) : Dev :=
    let d := w.done.foldl (fun d x =>
      match d.learnFind x.1 t w.data.bd w.data.mac with
      | some (i, y) => if y.isStatic then (d.setLearn x.1 i none).markLearn x.1 6 i t none else d
      | none => d) d
    (d.dropStatic w.id).finish w.token .noSpace 0 []
  match d.learnFind s t w.data.bd w.data.mac with
  | some (i, _) => put ((d.setLearn s i (some e)).markLearn s 6 i t (some e)) i
  | none =>
    if d.atQuota s t then refuse d
    else
      match d.learnPlace s e true with
      | some (i, d) => put (d.insertLearn s i 6 e) i
      | none => refuse d

/-- The idle learn engine: the lowest stash entry that has a free way of its own buckets moves there. -/
def Dev.drainStash (d : Dev) (s : Nat) : Dev :=
  let move := stashIndexes.findSome? fun i =>
    match d.learnAt s i with
    | some e =>
      let b := d.learnBuckets e.tenancy e.bd e.mac
      match d.freeWay s b.1, d.freeWay s b.2 with
      | some j, _ => some (i, j, e)
      | none, some j => some (i, j, e)
      | none, none => none
    | none => none
  match move with
  | some (i, j, e) => d.moveLearn s i j e
  | none => d

/-- LEARN_ENGINE_TURN (R136): static writes before learn requests, then the stash. -/
def execLearnEngineTurn (sleeve : Nat) (s : State) : Host.Outcome State Fault Refusal :=
  running (fun d =>
    let l := d.learner sleeve
    let early := match l.lastTurn with
      | some t => decide (d.now < t + 8)
      | none => false
    if 7 ≤ sleeve || early then d
    else
      let l := { l with lastTurn := some d.now }
      let d := d.setLearner sleeve l
      match l.statics, l.queue with
      | id :: _, _ =>
        match d.tables.statics.find? fun w => w.id = id with
        | some w => d.applyStatic sleeve w
        | none => d.setLearner sleeve { l with statics := l.statics.filter (· != id) }
      | [], r :: rest => (d.setLearner sleeve { l with queue := rest }).learnRequest sleeve r
      | [], [] => d.drainStash sleeve) s

/-! ### Ageing (R140 to R142) -/

/-- The shortest ageing time among tenancies with entries in Sleeve `s`, in seconds. -/
def Dev.shortestAgeing (d : Dev) (s : Nat) : Nat :=
  let ages := (List.range 16).filterMap fun t =>
    if 0 < d.learnInUse s t then some (d.learnPolicy t).ageingS else none
  match ages with
  | [] => learnPolicyReset.ageingS
  | a :: as => as.foldl min a

/-- One visit to an entry: a hit makes it young, a fourth visit without one frees it. Entries of a
tenancy whose ageing time is longer count one sweep in ⌈A / shortest⌉. -/
def Dev.visitLearn (d : Dev) (s i : Nat) : Dev :=
  let l := d.learner s
  match d.learnAt s i with
  | some e =>
    if e.isStatic || l.sweeps % ceilDiv (d.learnPolicy e.tenancy).ageingS l.shortest != 0 then d
    else if e.hit then d.setLearn s i (some { e with hit := false, age := 0 })
    else if e.age < 3 then d.setLearn s i (some { e with age := e.age + 1 })
    else ((d.setLearn s i none).inc .learnAged (s * 16 + e.tenancy) 0).markLearn s 4 i e.tenancy (some e)
  | none => d

/-- The entries of visit slot `k` (R140). -/
def visitSlot (k : Nat) : List Nat :=
  if k < 65536 then (List.range 4).map fun w => k * 4 + w
  else (List.range 4).map fun w => stashBase + (k - 65536) * 4 + w

/-- LEARN_SCANNER_VISIT: the next visit slot of Sleeve `sleeve`, not before its place in the sweep. A
Sleeve that replays runs no scanner (R144). -/
def execLearnScannerVisit (sleeve : Nat) (s : State) : Host.Outcome State Fault Refusal :=
  running (fun d =>
    let l := d.learner sleeve
    let l := if l.scanSlot = 0 then { l with shortest := d.shortestAgeing sleeve } else l
    let sweep := l.shortest * cyclesPerS / 4
    let k := l.scanSlot
    if 7 ≤ sleeve || (d.replayOn sleeve).isSome || d.now < l.scanFrom + k * sweep / 65552 then d
    else
      let d := (visitSlot k).foldl (fun d i => d.visitLearn sleeve i) (d.setLearner sleeve l)
      let l := d.learner sleeve
      d.setLearner sleeve (if k = 65551 then
        { l with scanSlot := 0, scanFrom := l.scanFrom + sweep, sweeps := l.sweeps + 1 }
      else { l with scanSlot := k + 1 })) s

/-- GENERATOR_RESEED (R138): every enabled Sleeve whose reseed interval has passed, while the Clasp draws
(R395). -/
def execGeneratorReseed (s : State) : Host.Outcome State Fault Refusal :=
  running (fun d =>
    if !d.ten.rngOk then d
    else (List.range 7).foldl (fun d k =>
      if (d.sleeve k).enabled && (d.replayOn k).isNone &&
          decide ((d.learner k).seedAt + d.tables.reseedS * cyclesPerS ≤ d.now) then d.reseed k
      else d) d) s

/-! ### Idle flows (R131) -/

/-- A list in pieces of 64. -/
def piecesOf64 : Nat → List Nat → List (List Nat)
  | 0, _ => []
  | n + 1, xs => if xs.isEmpty then [] else xs.take 64 :: piecesOf64 n (xs.drop 64)

/-- FLOW_IDLE_SCAN. -/
def execFlowIdleScan (tenancy : Nat) (s : State) : Host.Outcome State Fault Refusal :=
  running (fun d =>
    let period := (d.learnPolicy tenancy).flowIdleS * cyclesPerS
    if 16 ≤ tenancy || d.now < d.tables.idleAt.get 0 tenancy + period then d
    else
      let es := d.tables.flow.cells.filter fun c => c.2.tenancy = tenancy && c.2.idle
      let hit (i : Nat) : Bool := d.tables.flowHits.any fun k => k % 2 ^ 19 = i
      let keys := (es.filter fun c => !hit c.1).map fun c => c.2.key
      let d := { d with tables := { d.tables with
        idleAt := d.tables.idleAt.set tenancy d.now,
        flowHits := d.tables.flowHits.filter fun k => !es.any fun c => c.1 = k % 2 ^ 19 } }
      (piecesOf64 keys.length keys).foldl (fun d ks => d.raise 0x0501 [.tenancy tenancy] ks) d) s

/-! ### Flow messages (R126 to R130, R145, R146) -/

/-- The epoch of a tenancy's flow region (R122). -/
def Dev.regionEpoch (d : Dev) (t : Nat) : Nat :=
  match d.held t 2 with
  | b :: _ => (d.unit 2 b).epoch
  | [] => 0

/-- Whether a tenancy holds a flow region. -/
def Dev.hasRegion (d : Dev) (t : Nat) : Bool := !(d.held t 2).isEmpty

/-- The units of a tenancy's flow region. -/
def Dev.regionUnits (d : Dev) (t : Nat) : List (Nat × Nat) := (d.held t 2).map fun b => (2, b)

/-- The profile that a staged change sets under a key. -/
def flowProfileOf (k : Nat) : Change → Option ProfileRec
  | .flowProfile j r _ => if j = k then some r else none
  | _ => none

/-- A flow profile as the sender's next TBL_COMMIT will make it. -/
def Dev.nextFlowProfile (d : Dev) (t p : Nat) : Option ProfileRec :=
  match d.allStaged.reverse.findSome? fun s => flowProfileOf (t * 4 + p) s.change with
  | some r => some r
  | none => d.tables.profiles.get? (t * 4 + p)

/-- Whether the extractions of a profile record are encoded as Table 5-5 and Table 6-6a say, for keys of
`n` bytes. -/
def extractsOk (n : Nat) (r : ProfileRec) : Bool :=
  decide (r.profile ≤ 3) && decide (r.count ≤ 8) &&
    (r.extract.take r.count).all (fun x => decide (x.base ≤ 7) && decide (0 < x.len) && decide (x.len ≤ n) &&
      (x.base != 7 || decide (x.offset + x.len ≤ 64))) &&
    decide (((r.extract.take r.count).map (·.len)).sum ≤ n) &&
    (r.extract.drop r.count).all (fun x => x.base = 0 && x.offset = 0 && x.len = 0)

/-- The index at which a staged change adds a flow entry of a profile. -/
def addsFlowOf (t p : Nat) : Change → Bool
  | .flowAdd _ e _ _ => e.tenancy = t && e.profile = p
  | _ => false

/-- R145: what FLOW_PROFILE_SET checks. -/
def flowProfileChecks (who : Sender) (d : Dev) (r : ProfileRec) : List (Bool × Status) :=
  let t := who.tenancy
  let overlaps := (List.range 4).any fun p => p != r.profile &&
    (match d.nextFlowProfile t p with
     | some x => Nat.land x.selectMask r.selectMask != 0
     | none => false)
  let used := d.tables.flow.cells.any fun c => c.2.tenancy = t && c.2.profile = r.profile
  [(!d.hasRegion t, .notPermitted), (who.stale (d.regionEpoch t), .staleEpoch),
   (!extractsOk 16 r, .badField),
   (overlaps || used || d.stagedAdd (addsFlowOf t r.profile), .badState)]

/-- FLOW_PROFILE_SET. -/
def execFlowProfileSet (h : Hdr) (r : ProfileRec) (s : State) : Host.Outcome State Fault Refusal :=
  runMessage { code := 0x0501, lenOk := exactly 52, maxBody := 0 } h (fun who d =>
    setting (flowProfileChecks who d r) d fun d =>
      let k := who.tenancy * 4 + r.profile
      d.stage who.tenancy (.flowProfile k r (d.tables.profiles.get? k)) (d.regionUnits who.tenancy) 0) s

/-- What a change makes of the index that a flow key stands at. -/
def flowIndexAfter (t p key : Nat) (at' : Option Nat) : Change → Option Nat
  | .flowAdd i e _ v =>
    if e.tenancy = t && e.profile = p && e.key = key then some i else if v.isSome && v = at' then none else at'
  | .flowDel i _ => if at' = some i then none else at'
  | _ => at'

/-- The index at which a key stands in the next slot, if it does. -/
def Dev.nextFlow (d : Dev) (t p : Nat) (key : List Nat) : Option Nat :=
  let k := beNat key
  let now : Option Nat := match d.flowBuckets p t key with
    | none => none
    | some (b0, b1) => (wayIndexes b0 b1).find? fun i =>
        match d.tables.flow.get? i with
        | some e => e.tenancy = t && e.profile = p && e.key = k && e.live.testBit d.current
        | none => false
  d.allStaged.foldl (fun a s => flowIndexAfter t p k a s.change) now

/-- Whether a change adds a flow entry at index `i`. -/
def addsFlowAt (i : Nat) : Change → Bool
  | .flowAdd j _ _ _ => i = j
  | _ => false

/-- Whether a change removes the flow entry at index `i`. -/
def removesFlowAt (i : Nat) : Change → Bool
  | .flowAdd _ _ _ v => v = some i
  | .flowDel j _ => i = j
  | _ => false

/-- Whether a way of the flow table holds an entry or awaits a staged one. -/
def Dev.flowTaken (d : Dev) (i : Nat) : Bool :=
  (d.tables.flow.get? i).isSome || d.stagedAdd (addsFlowAt i)

/-- The lowest free way of a flow bucket. -/
def Dev.flowWay (d : Dev) (b : Nat) : Option Nat :=
  ((List.range 4).map fun w => b * 4 + w).find? fun i => !d.flowTaken i

/-- The other candidate bucket of the flow entry at an index. -/
def Dev.otherFlowBucket (d : Dev) (i : Nat) (e : FlowEntry) : Option Nat :=
  (d.flowBuckets e.profile e.tenancy (beBytes 16 e.key)).map fun b => if i / 4 = b.1 then b.2 else b.1

/-- R128: a breadth-first search from full buckets for a relocation path of at most 16 moves: the
indexes of the entries to move, nearest the new entry first, and the free way at its end. Each place of
the queue is a bucket with the moves that lead to it, last first. -/
def Dev.flowPath (d : Dev) : Nat → List (Nat × List Nat) → List Nat → Option (List Nat × Nat)
  | 0, _, _ => none
  | _ + 1, [], _ => none
  | fuel + 1, (b, path) :: queue, seen =>
    if 16 ≤ path.length then d.flowPath fuel queue seen
    else
      let steps := ((List.range 4).map fun w => b * 4 + w).filterMap fun i =>
        match d.tables.flow.get? i with
        | some e => (d.otherFlowBucket i e).map fun o => (i, o)
        | none => none
      match steps.findSome? fun x => (d.flowWay x.2).map fun j => ((x.1 :: path).reverse, j) with
      | some r => some r
      | none =>
        let new := steps.filter fun x => !seen.contains x.2
        d.flowPath fuel (queue ++ new.map fun x => (x.2, x.1 :: path)) (seen ++ new.map (·.2))

/-- A flow index after the entry at `i` has moved to `j`. -/
def renumber (i j k : Nat) : Nat := if k = i then j else k

/-- A staged change after a move. -/
def renumberChange (i j : Nat) : Change → Change
  | .flowAdd k e ms v => .flowAdd k e ms (v.map (renumber i j))
  | .flowDel k e => .flowDel (renumber i j k) e
  | c => c

/-- A flow entry moved in every Sleeve, copy before clear (R129); the staged changes follow it. -/
def Dev.moveFlow (d : Dev) (i j : Nat) : Dev :=
  match d.tables.flow.get? i with
  | none => d
  | some e =>
    let stagedOf (l : List Staged) : List Staged := l.map fun s => { s with change := renumberChange i j s.change }
    { d with
      tables := { d.tables with
        flow := (d.tables.flow.set j e).del i,
        flowHits := d.tables.flowHits.map fun k => k / 2 ^ 19 * 2 ^ 19 + renumber i j (k % 2 ^ 19),
        flowBad := d.tables.flowBad.filter fun k => k % 2 ^ 19 != i }
      vers := { d.vers with
        staged := stagedOf d.vers.staged,
        commits := d.vers.commits.map fun c => { c with changes := stagedOf c.changes } } }

/-- The moves of a path: each entry to the place of the next, the last to the free way. -/
def pathMoves (path : List Nat) (free : Nat) : List (Nat × Nat) := path.zip (path.drop 1 ++ [free])

/-- The entry made live earliest, the first among equals. -/
def earliestOf : List (Nat × FlowEntry) → Option (Nat × FlowEntry)
  | [] => none
  | x :: xs =>
    match earliestOf xs with
    | some y => if y.2.serial < x.2.serial then some y else some x
    | none => some x

/-- R130: the victim that the region's eviction policy chooses, with the device after the Collar's
generator has been used. -/
def Dev.flowVictim (d : Dev) (t b0 b1 : Nat) : Option (Nat × FlowEntry) × Dev :=
  let cs := ((wayIndexes b0 b1).filterMap fun i => (d.tables.flow.get? i).map fun e => (i, e)).filter
    fun x => x.2.tenancy = t && x.2.live.testBit d.current && !d.stagedAdd (removesFlowAt x.1) &&
      !d.stagedAdd (addsFlowAt x.1)
  match (d.learnPolicy t).flowEviction with
  | 1 =>
    let x := d.draw
    (cs[Config.freeDraw x.1 % cs.length]?, x.2)
  | 2 => (earliestOf cs, d)
  | _ => (none, d)

/-- Where a new flow entry goes. -/
structure FlowPlace where
  index : Nat
  moves : List (Nat × Nat)
  victim : Option (Nat × FlowEntry)

/-- R128, R130: a place for a new entry of the two buckets, with the moves made. -/
def Dev.flowPlace (d : Dev) (t b0 b1 : Nat) : Option FlowPlace × Dev :=
  match d.flowWay b0, d.flowWay b1 with
  | some i, _ => (some { index := i, moves := [], victim := none }, d)
  | none, some i => (some { index := i, moves := [], victim := none }, d)
  | none, none =>
    match d.flowPath 131072 [(b0, []), (b1, [])] [b0, b1] with
    | some (path, free) =>
      let ms := (pathMoves path free).reverse
      (some { index := path.headD 0, moves := ms, victim := none },
        ms.foldl (fun d m => d.moveFlow m.1 m.2) d)
    | none =>
      match d.flowVictim t b0 b1 with
      | (some v, d) => (some { index := v.1, moves := [], victim := some v }, d)
      | (none, d) => (none, d)

/-- A key masked by a profile as the next commit will make it. -/
def Dev.flowMasked (d : Dev) (t p : Nat) (key : List Nat) : List Nat :=
  match d.nextFlowProfile t p with
  | some r => maskedKey 16 r.keyMask key
  | none => key

/-- Steps 1 to 3 of R146. -/
def flowChecks (who : Sender) (d : Dev) (ctx : Option Nat) (bad : Bool) : List (Bool × Status) :=
  [(!d.hasRegion who.tenancy ||
      (match ctx with
       | some c => (d.absIndex who.tenancy 4 4096 c).isNone
       | none => false), .notPermitted),
   (who.stale (d.regionEpoch who.tenancy), .staleEpoch), (bad, .badField)]

/-- R146: what FLOW_ADD checks before room. -/
def flowAddChecks (who : Sender) (d : Dev) (r : FlowAddRec) : List (Bool × Status) :=
  let t := who.tenancy
  let key := d.flowMasked t r.profile r.key
  flowChecks who d (some r.flowContext)
    (3 < r.profile || r.key.length != 16 || r.key.any (255 < ·) ||
      r.actionRef / 2 ^ 24 != 0 || 65535 < r.metaVal) ++
  [((d.nextFlowProfile t r.profile).isNone ||
      (!r.flags.testBit 0 && (d.nextFlow t r.profile key).isSome), .badState),
   (!d.canStage t 2, .noSpace)]

/-- Whether a staged change of tenancy `t` adds at index `i`. -/
def stagedHere (t i : Nat) (s : Staged) : Bool := s.tenancy = t && addsFlowAt i s.change

/-- The key at index `i` removed in the sender's next commit: a staged addition is taken back, a live
entry is staged for removal. -/
def Dev.removeFlow (d : Dev) (t i : Nat) : Dev :=
  if d.vers.staged.any (stagedHere t i) then
    { d with vers := { d.vers with staged := d.vers.staged.filter fun s => !stagedHere t i s } }
  else
    match d.tables.flow.get? i with
    | some e => d.stage t (.flowDel i e) (d.regionUnits t) 1
    | none => d

/-- FLOW_ADD. -/
def execFlowAdd (h : Hdr) (r : FlowAddRec) (s : State) : Host.Outcome State Fault Refusal :=
  runMessage { code := 0x0502, lenOk := exactly 32, maxBody := 32 } h (fun who d =>
    checked (flowAddChecks who d r) d fun d =>
      let t := who.tenancy
      let key := d.flowMasked t r.profile r.key
      match d.flowBuckets r.profile t key with
      | none => (.say .noSpace, d)
      | some (b0, b1) =>
        let old := d.nextFlow t r.profile key
        let d' := match old with
          | some i => d.removeFlow t i
          | none => d
        match d'.flowPlace t b0 b1 with
        | (none, _) => (.say .noSpace, d)
        | (some pl, d') =>
          let e : FlowEntry :=
            { key := beNat key, tenancy := t, profile := r.profile, live := 0, actionRef := r.actionRef,
              flowContext := r.flowContext, metaVal := r.metaVal, idle := r.flags.testBit 1,
              insertEpoch := 0, serial := 0 }
          let n := if pl.victim.isSome then 2 else 1
          (.done .ok 32 [pl.moves.length, n - 1,
              match pl.victim with
              | some v => v.2.key
              | none => 0],
            d'.stage t (.flowAdd pl.index e pl.moves (pl.victim.map (·.1))) (d.regionUnits t) n)) s

/-- R146: what FLOW_DEL checks. -/
def flowDelChecks (who : Sender) (d : Dev) (r : FlowDelRec) : List (Bool × Status) :=
  let t := who.tenancy
  flowChecks who d none
    (3 < r.profile || r.key.length != 16 || r.key.any (255 < ·)) ++
  [((d.nextFlowProfile t r.profile).isNone ||
      (d.nextFlow t r.profile (d.flowMasked t r.profile r.key)).isNone, .badState),
   (!d.canStage t 1, .noSpace)]

/-- FLOW_DEL. -/
def execFlowDel (h : Hdr) (r : FlowDelRec) (s : State) : Host.Outcome State Fault Refusal :=
  runMessage { code := 0x0503, lenOk := exactly 20, maxBody := 0 } h (fun who d =>
    setting (flowDelChecks who d r) d fun d =>
      match d.nextFlow who.tenancy r.profile (d.flowMasked who.tenancy r.profile r.key) with
      | some i => d.removeFlow who.tenancy i
      | none => d) s

/-- A flow entry as FLOW_READ returns it. -/
def flowRow (c : Nat × FlowEntry) : List Nat :=
  [c.1, c.2.key, c.2.profile, c.2.live, c.2.actionRef, c.2.flowContext, c.2.metaVal, b2n c.2.idle,
   c.2.insertEpoch]

/-- FLOW_READ (R146). -/
def execFlowRead (h : Hdr) (s : State) : Host.Outcome State Fault Refusal :=
  runMessage { code := 0x0504, lenOk := fun _ => true, maxBody := 2048, changes := false } h (fun who d =>
    checked [(who.isMaint || !d.hasRegion who.tenancy, .notPermitted)] d fun d =>
      (.list ((d.tables.flow.cells.filter fun c => c.2.tenancy = who.tenancy).flatMap flowRow), d)) s

/-! ### Learning messages (R147, R148) -/

/-- The checks of sender and epoch that the learning messages of a tenancy share. -/
def learnSender (who : Sender) (d : Dev) : List (Bool × Status) :=
  [(who.isMaint || d.learnQuota who.tenancy = 0, .notPermitted),
   (who.stale (d.tables.quotaEpochs.get 0 who.tenancy), .staleEpoch)]

/-- What LEARN_POLICY_SET checks. -/
def learnPolicyChecks (who : Sender) (d : Dev) (r : LearnPolicyRec) : List (Bool × Status) :=
  learnSender who d ++
  [(r.ageingS < 10 || 1000000 < r.ageingS || r.flowIdleS = 0 || 65535 < r.flowIdleS || 2 < r.eviction ||
      2 < r.flowEviction, .badField)]

/-- LEARN_POLICY_SET. -/
def execLearnPolicySet (h : Hdr) (r : LearnPolicyRec) (s : State) : Host.Outcome State Fault Refusal :=
  runMessage { code := 0x0505, lenOk := exactly 12, maxBody := 0 } h (fun who d =>
    setting (learnPolicyChecks who d r) d fun d =>
      { d with tables := { d.tables with policies := d.tables.policies.set who.tenancy { r with flags := r.flags % 4 } } }) s

/-- What LEARN_QUOTA_SET checks (R148). -/
def learnQuotaChecks (who : Sender) (r : LearnQuotaRec) : List (Bool × Status) :=
  [(!who.isOwner, .notPermitted),
   (r.quota.length != 16 || r.quota.any (262208 < ·) || r.reseedS = 0 || 3600 < r.reseedS, .badField),
   (262208 < r.quota.sum, .noSpace)]

/-- Every learning entry of tenancy `t` removed from every Sleeve. -/
def Dev.purgeLearn (d : Dev) (t : Nat) : Dev :=
  (d.tables.learn.cells.filter fun c => c.2.tenancy = t).foldl (fun d c =>
    (d.setLearn (c.1 / 2 ^ 19) (c.1 % 2 ^ 19) none).markLearn (c.1 / 2 ^ 19) 5 (c.1 % 2 ^ 19) t (some c.2)) d

/-- The quotas set, with epoch `e` for each that goes to or from zero (R147). -/
def Dev.applyQuotas (d : Dev) (r : LearnQuotaRec) (e : Nat) : Dev :=
  let d := (List.range 16).foldl (fun d t =>
    let old := d.learnQuota t
    let new := r.quota.getD t 0
    let d := if old != 0 && new = 0 then d.purgeLearn t else d
    let epochs := if (old = 0) != (new = 0) then d.tables.quotaEpochs.set t e else d.tables.quotaEpochs
    { d with tables := { d.tables with quotas := d.tables.quotas.set t new, quotaEpochs := epochs } }) d
  { d with tables := { d.tables with reseedS := r.reseedS } }

/-- Whether a record takes a quota to or from zero. -/
def renewsQuota (d : Dev) (r : LearnQuotaRec) : Bool :=
  (List.range 16).any fun t => (d.learnQuota t = 0) != (r.quota.getD t 0 = 0)

/-- LEARN_QUOTA_SET. -/
def execLearnQuotaSet (h : Hdr) (r : LearnQuotaRec) (s : State) : Host.Outcome State Fault Refusal :=
  runMessage { code := 0x0506, lenOk := exactly 68, maxBody := 0 } h (fun who d =>
    checked (learnQuotaChecks who r) d fun d =>
      if renewsQuota d r then takeTurn who (.learnQuota r) (fun e d => d.applyQuotas r e) d
      else (.say .ok, d.applyQuotas r 0)) s

/-- LEARN_PORT_SET. -/
def execLearnPortSet (h : Hdr) (r : LearnPortRec) (s : State) : Host.Outcome State Fault Refusal :=
  runMessage { code := 0x0507, lenOk := exactly 4, maxBody := 0 } h (fun who d =>
    setting [(!who.isOwner, .notPermitted),
             (95 < r.port || 4095 < r.defaultBd, .badField)] d fun d =>
      { d with tables := { d.tables with ports := d.tables.ports.set r.port { r with flags := r.flags % 2 } } }) s

/-- What LEARN_STATIC_SET checks (R148). -/
def learnStaticChecks (who : Sender) (d : Dev) (r : LearnStaticRec) : List (Bool × Status) :=
  [(who.isMaint || d.learnQuota who.tenancy = 0 || (r.port ≤ 95 && d.wholly r.port != some who.tenancy),
      .notPermitted),
   (who.stale (d.tables.quotaEpochs.get 0 who.tenancy), .staleEpoch),
   (95 < r.port || 4095 < r.bd || 2 ^ 48 ≤ r.mac, .badField)]

/-- LEARN_STATIC_SET: a static write queued in every Sleeve's learn engine; it completes when all seven
have applied it. -/
def execLearnStaticSet (h : Hdr) (r : LearnStaticRec) (s : State) : Host.Outcome State Fault Refusal :=
  runMessage { code := 0x0508, lenOk := fun _ => true, maxBody := 0, canAsync := true } h (fun who d =>
    checked (learnStaticChecks who d r) d fun d =>
      let id := d.tables.nextStatic
      let w : StaticWrite := { id := id, token := who.tok, tenancy := who.tenancy, data := r, done := [] }
      let d := { d with tables := { d.tables with nextStatic := id + 1, statics := d.tables.statics ++ [w] } }
      (.wait, (List.range 7).foldl (fun d k =>
        let l := d.learner k
        d.setLearner k { l with statics := l.statics ++ [id] }) d)) s

/-- Whether LEARN_FLUSH removes an entry of its sender. -/
def flushTakes (r : LearnFlushRec) (e : LearnEntry) : Bool :=
  !e.isStatic && (!r.flags.testBit 0 || e.port = r.port) && (!r.flags.testBit 1 || e.bd = r.bd) &&
    (!r.flags.testBit 2 || e.mac = r.mac)

/-- LEARN_FLUSH. -/
def execLearnFlush (h : Hdr) (r : LearnFlushRec) (s : State) : Host.Outcome State Fault Refusal :=
  runMessage { code := 0x0509, lenOk := fun _ => true, maxBody := 0, canAsync := true } h (fun who d =>
    setting (learnSender who d ++
        [(r.sleeves / 128 != 0 || 95 < r.port || 4095 < r.bd || 2 ^ 48 ≤ r.mac,
          .badField)]) d fun d =>
      (d.tables.learn.cells.filter fun c =>
          r.sleeves.testBit (c.1 / 2 ^ 19) && c.2.tenancy = who.tenancy && flushTakes r c.2).foldl
        (fun d c =>
          let k := c.1 / 2 ^ 19
          let i := c.1 % 2 ^ 19
          (d.setLearn k i none).markLearn k 5 i who.tenancy (some c.2)) d) s

/-- A learning entry as LEARN_READ returns it. -/
def learnRow (i : Nat) (e : LearnEntry) : List Nat :=
  [i, e.mac, e.bd, b2n e.isStatic, e.port, e.age, b2n e.hit]

/-- LEARN_READ (R143): the entries of the sender's tenancy in one Sleeve, with the network time. -/
def execLearnRead (h : Hdr) (sleeve : Nat) (s : State) : Host.Outcome State Fault Refusal :=
  runMessage { code := 0x050A, lenOk := fun _ => true, maxBody := 2048, changes := false } h (fun who d =>
    checked (learnSender who d ++ [(decide (6 < sleeve), .badField)]) d fun d =>
      let es := d.tables.learn.cells.filter fun c => c.1 / 2 ^ 19 = sleeve && c.2.tenancy = who.tenancy
      (.list ([d.stamp.sec, d.stamp.ns, d.stamp.frac] ++
        es.flatMap fun c => learnRow (c.1 % 2 ^ 19) c.2), d)) s

/-- flow_entries: entries of tenancy `t` live in the current version in Sleeve `s`. -/
def Dev.flowEntries (d : Dev) (s t : Nat) : Nat :=
  (d.tables.flow.cells.filter fun c => c.2.tenancy = t && c.2.live.testBit d.current &&
    !d.tables.flowBad.contains (s * 2 ^ 19 + c.1)).length

/-- stash_in_use of Sleeve `s`. -/
def Dev.stashInUse (d : Dev) (s : Nat) : Nat :=
  (stashIndexes.filter fun i => (d.learnAt s i).isSome).length

/-- The counters of a Sleeve and tenancy in the order of Table 5-9. -/
def tableCounters (d : Dev) (s t : Nat) : List Nat :=
  let k := s * 16 + t
  let c (x : Ctr) : Nat := d.ctr x k 0
  [c .flowLookups, c .flowHits, c .flowKeySkip, d.flowEntries s t, c .dstMiss, c .learnInserted,
   c .learnRelocated, c .learnDuplicate, c .learnEvicted, c .learnRefusedQuota, c .learnRefusedFull,
   c .learnMoves, c .learnStaticConflict, c .learnAged, d.learnInUse s t]

/-- TABLE_STATS_GET (R149). -/
def execTableStatsGet (h : Hdr) (sleeve : Nat) (s : State) : Host.Outcome State Fault Refusal :=
  runMessage { code := 0x050B, lenOk := fun _ => true, maxBody := 2048, changes := false } h (fun who d =>
    checked [(6 < sleeve, .badField)] d fun d =>
      let own := [d.ctr .learnQueueDrop sleeve 0, d.stashInUse sleeve]
      let all := List.range 16
      (.list (match who.role with
        | .owner => own ++ all.flatMap (tableCounters d sleeve)
        | .tenant => own ++ tableCounters d sleeve who.tenancy
        | .maint => own ++ all.flatMap fun t => [d.flowEntries sleeve t, d.learnInUse sleeve t]), d)) s

end Sys2Proof.Machine
end

