-- ==== Sys2Proof/Machine/Tcam.lean ====
section
/-! DEFINITION. Ternary search (06): stages 8 and 9, update bubbles, the scrub, the throttle and the TCAM's
messages. -/

namespace Sys2Proof.Machine

/-! ### The search (R151 to R157) -/

/-- The bank of an index. -/
def bankOf (i : Nat) : Nat := i / 2048

/-- Whether the bank of an index is of a pair at paired width (R153). -/
def Dev.isPaired (d : Dev) (i : Nat) : Bool := d.tcam.paired.contains (bankOf i / 2)

/-- The banks that a piece of bubble work on an index touches. -/
def Dev.banksOf (d : Dev) (i : Nat) : List Nat :=
  if d.isPaired i then [bankOf i, bankOf i + 1] else [bankOf i]

/-- Whether an entry's value and mask match a key of 76 bytes under its profile (R154, R156): word 0
alone at single width. -/
def tcamMatches (e : TcamEntry) (t p : Nat) (key : List Nat) : Bool :=
  e.tenancy = t && e.data.profile = p &&
    (List.range (if e.paired then 76 else 38)).all fun j =>
      Nat.land (byteAt key j) (byteAt e.data.mask j) = byteAt e.data.value j

/-- Whether entry `i` is marked suspect in Sleeve `s`. -/
def Dev.suspect (d : Dev) (s i : Nat) : Bool := d.tcam.suspects.contains (s * 32768 + i)


/-- An entry of Sleeve `s` marked suspect: its repair joins the update queue and the Lining records the
mark (R160, R162). -/
def Dev.markSuspect (d : Dev) (s i : Nat) : Dev :=
  if d.suspect s i then d
  else
    let x := d.sleeve s
    let d := { d with tcam := { d.tcam with suspects := (s * 32768 + i) :: d.tcam.suspects } }
    (d.setSleeve s { x with updates := x.updates ++ [Bubble.repair i] }).markTcam s 1 i

/-- The event of a false hit or a scrub mismatch: with the index for the owning tenancy, without it for
owner and maintenance. -/
def Dev.suspectEvent (d : Dev) (code s i t : Nat) : Dev :=
  let others : List Aud := if t = 0 then [.maint] else ownerMaint
  (d.raise code [.tenancy t] [s, i]).raise code others [s]

/-- The candidates of R155 in ascending order: entries of the tenancy's banks whose match lines rise, live
in the slot and not suspect. `spurious` lists rows whose match line rises or whose record cannot be
verified, `missed` rows whose match line fails to rise. A bank out of service in a Sleeve holds none there (R488). -/
def tcamCandidates (d : Dev) (s t p v : Nat) (key : List Nat) (spurious missed : List Nat) : List Nat :=
  ascending ((d.tcam.entries.cells.filter fun c =>
    d.holds t 3 (bankOf c.1) && !d.outOfService (32 + 16 * s + bankOf c.1) && c.2.live.testBit v &&
      !d.suspect s c.1 && !missed.contains c.1 &&
      (tcamMatches c.2 t p key || spurious.contains c.1)).map (·.1))

/-- Whether a candidate verifies (R156). -/
def tcamVerifies (d : Dev) (t p : Nat) (key spurious : List Nat) (i : Nat) : Bool :=
  !spurious.contains i &&
    (match d.tcam.entries.get? i with
     | some e => tcamMatches e t p key
     | none => false)

/-- The search with a key (R155 to R157). -/
def Dev.search (d : Dev) (fid : Nat) (f : Frame) (t p : Nat) (key spurious missed : List Nat) : Dev :=
  let s := f.sleeve
  let k := s * 16 + t
  let cs := tcamCandidates d s t p (fld f.ctx fVersion) key spurious missed
  let four := cs.take 4
  let good := four.filter (tcamVerifies d t p key spurious)
  let bad := four.filter fun i => !tcamVerifies d t p key spurious i
  let d := d.inc .tcamSearches k 0
  let d := if 2 ≤ cs.length then d.inc .tcamMulti k 0 else d
  let d := bad.foldl (fun d i =>
    ((d.inc .tcamFalseHits k 0).markSuspect s i).suspectEvent 0x0601 s i t) d
  let c := putAll f.ctx [(⟨94, 1⟩, b2n (decide (2 ≤ cs.length))), (⟨93, 1⟩, b2n (!bad.isEmpty))]
  match good with
  | i :: _ =>
    let r := match d.tcam.entries.get? i with
      | some e => (e.data.actionRef, e.data.metaVal)
      | none => (0, 0)
    let c := putAll c [(⟨95, 1⟩, 1), (⟨77, 15⟩, i), (⟨53, 24⟩, r.1), (⟨37, 16⟩, r.2)]
    (d.inc .tcamHits k 0).setFrame fid { f with ctx := c }
  | [] => d.setFrame fid { f with ctx := c }

/-- TCAM_SEARCH. -/
def execTcamSearch (fid : Nat) (spurious missed : List Nat) (s : State) :
    Host.Outcome State Fault Refusal :=
  running (fun d => d.stageRow fid .tcam .meter [8, 9] fun f d =>
    let t := fld f.ctx fTenancy
    let f := { f with ctx := putBits f.ctx 37 59 0 }
    if skipsLookups f then d.setFrame fid f
    else
      let skip (d : Dev) : Dev :=
        (d.inc .tcamKeySkip (f.sleeve * 16 + t) 0).setFrame fid { f with ctx := putBits f.ctx 92 1 1 }
      if (d.held t 3).isEmpty then skip d
      else
        match selectProfile d.tcam.profiles t (fld f.ctx fL3Type) with
        | none => skip d
        | some (p, r) =>
          match extractAll f (r.extract.take r.count) with
          | none => skip d
          | some bs => d.search fid f t p (maskedKey 76 r.keyMask bs) spurious missed) s

/-! ### Update bubbles (R159 to R161) -/

/-- The banks a piece of bubble work touches. -/
def Dev.bubbleBanks (d : Dev) : Bubble → List Nat
  | .write i => d.banksOf i
  | .repair i => d.banksOf i
  | .scrub i _ => d.banksOf i
  | .diagnostic _ t _ => d.held t 3
  | .rowMask b => [b]

/-- Whether every bank that a piece of work touches may take a bubble in Sleeve `s` (64-cycle pacing),
and no repair of its row is ahead of a write. -/
def Dev.bubbleReady (d : Dev) (s : Nat) (b : Bubble) : Bool :=
  (d.bubbleBanks b).all (fun k =>
    match d.tcam.bankAt.get? (s * 16 + k) with
    | some t => decide (t + 64 ≤ d.now)
    | none => true) &&
  (match b with
   | .write i => !d.suspect s i
   | _ => true)

/-- The entries that a diagnostic search returns, from `start_index`, in ascending order: index and
flags (R166). -/
def iterateHits (d : Dev) (t v : Nat) (r : TcamIterateRec) : List (Nat × Nat) :=
  let hits := d.tcam.entries.cells.filter fun c =>
    d.holds t 3 (bankOf c.1) && decide (r.startIndex ≤ c.1) && tcamMatches c.2 t r.profile r.key
  (ascending (hits.map (·.1))).map fun i =>
    let live := match d.tcam.entries.get? i with
      | some e => e.live.testBit v
      | none => false
    (i, b2n live + 2 + 4 * b2n (d.suspect r.sleeve i))

/-- The end of a TCAM_ITERATE in its bubble. -/
def Dev.iterate (d : Dev) (tok : Token) (t : Nat) (r : TcamIterateRec) : Dev :=
  let v := if r.version = 255 then d.current else r.version
  let epoch := (d.vslot v).epoch
  if r.epoch != 0 && r.epoch != epoch then d.finish tok .badState 0 []
  else
    let hits := iterateHits d t v r
    let page := hits.take r.maxResults
    let next := match hits.drop r.maxResults with
      | h :: _ => h.1
      | [] => 0xFFFF
    d.finish tok .ok (8 + 4 * page.length)
      ([page.length, next, epoch] ++ page.map fun h => h.1 + 2 ^ 16 * h.2)

/-- What a bubble does in its cycle. -/
def Dev.bubble (d : Dev) (s : Nat) (b : Bubble) : Dev :=
  let t := { d.tcam with bankAt := (d.bubbleBanks b).foldl (fun m k => m.set (s * 16 + k) d.now) d.tcam.bankAt }
  let d := { d with tcam := t }.inc .tcamUpdates s 0
  match b with
  | .write _ => d
  | .rowMask _ => d
  | .repair i =>
    let owner := match d.tcam.entries.get? i with
      | some e => e.tenancy
      | none => 0
    let d := { d with tcam := { d.tcam with suspects := d.tcam.suspects.erase (s * 32768 + i) } }
    (d.markTcam s 2 i).raise 0x0603 [.tenancy owner] [s, i]
  | .scrub i differs =>
    match d.tcam.entries.get? i with
    | some e =>
      if differs && !d.suspect s i then
        ((d.inc .scrubMismatches s 0).markSuspect s i).suspectEvent 0x0602 s i e.tenancy
      else d
    | none => d
  | .diagnostic tok t r => d.iterate tok t r

/-- A Sleeve's throttle. -/
def Dev.tcamSleeve (d : Dev) (s : Nat) : TcamSleeve := d.tcam.sleeves.get .reset s

/-- A Sleeve's throttle replaced. -/
def Dev.setTcamSleeve (d : Dev) (s : Nat) (x : TcamSleeve) : Dev :=
  { d with tcam := { d.tcam with sleeves := d.tcam.sleeves.set s x } }

/-- TCAM_SCRUB_PASS_START (R161): once per scrub period every valid row of the Sleeve joins the update
queue for a scrub read; `differing` lists the rows whose array differs from their record. -/
def execTcamScrubPassStart (sleeve : Nat) (differing : List Nat) (s : State) :
    Host.Outcome State Fault Refusal :=
  running (fun d =>
    let x := d.tcamSleeve sleeve
    let early := match x.scrubAt with
      | some t => decide (d.now < t + x.scrubMs * cyclesPerMs)
      | none => false
    if 7 ≤ sleeve || early then d
    else
      let y := d.sleeve sleeve
      let rows := ascending (d.tcam.entries.cells.map (·.1))
      let work := rows.map fun i => Bubble.scrub i (differing.contains i)
      (d.setTcamSleeve sleeve { x with scrubAt := some d.now, scrubMs := x.nextScrubMs }).setSleeve sleeve
        { y with updates := y.updates ++ work }) s

/-! ### The throttle (R163 to R165) -/

/-- The search allowance of a band (Table 6-4). -/
def allowance : Nat → Nat
  | 0 => 64
  | 1 => 48
  | _ => 32

/-- The temperature of a Sleeve's banks in quarters of a degree: the higher of sensors 2s and 2s + 1
(R459); none before the first sample. -/
def Dev.tcamTemp (d : Dev) (s : Nat) : Option Int :=
  match d.gus.temps[2 * s]?, d.gus.temps[2 * s + 1]? with
  | some a, some b => some (max a b)
  | _, _ => none

/-- The band after an evaluation (R163): entered at its lower threshold, left 2 °C below it. -/
def nextBandOf (x : TcamSleeve) (t : Int) : Nat :=
  let up1 := decide (4 * x.threshold1 ≤ t)
  let up2 := decide (4 * x.threshold2 ≤ t)
  let stay1 := decide (4 * (x.threshold1 - 2) < t)
  let stay2 := decide (4 * (x.threshold2 - 2) < t)
  if up2 || (x.nextBand = 2 && stay2) then 2
  else if up1 || (1 ≤ x.nextBand && stay1) then 1
  else 0

/-- TCAM_BAND_EVAL. -/
def execTcamBandEval (s : State) : Host.Outcome State Fault Refusal :=
  running (fun d =>
    if d.now < d.gus.bandAt + 300000 then d
    else
      (List.range 7).foldl (fun d k =>
        match d.tcamTemp k with
        | none => d
        | some t =>
          let x := d.tcamSleeve k
          let b := nextBandOf x t
          let d' := d.setTcamSleeve k { x with nextBand := b }
          if (b = 2) != (x.nextBand = 2) then d'.raise 0x0604 ownerMaint [b, t.toNat / 4] else d')
        { d with gus := { d.gus with bandAt := d.now } }) s

/-- The cycles of a band that ends now counted. -/
def Dev.countBand (d : Dev) (s : Nat) (x : TcamSleeve) : Dev :=
  match x.band with
  | 1 => d.bump .bandCycles1 s 0 (d.now - x.bandAt)
  | 2 => d.bump .bandCycles2 s 0 (d.now - x.bandAt)
  | _ => d

/-- Window `w` of a Sleeve begins (R164): no search slot is counted, and the band and the reserve that wait take
effect. -/
def Dev.beginWindow (d : Dev) (s w : Nat) : Dev :=
  let x := d.tcamSleeve s
  let d := if x.nextBand != x.band then d.countBand s x else d
  d.setTcamSleeve s { x with
    window := w, searches := 0, plain := 0, reserve := x.nextReserve, band := x.nextBand,
    bandAt := if x.nextBand != x.band then d.now else x.bandAt }

/-- SEARCH_WINDOW_BOUNDARY (R164): a new 64-cycle window of the Sleeve, counted from its enable. -/
def execSearchWindowBoundary (sleeve : Nat) (s : State) : Host.Outcome State Fault Refusal :=
  running (fun d =>
    let w := (d.now - (d.sleeve sleeve).enabledAt) / 64
    if 7 ≤ sleeve || !(d.sleeve sleeve).enabled || w ≤ (d.tcamSleeve sleeve).window then d
    else d.beginWindow sleeve w) s

/-- Whether the Sleeve's window has room for a search slot, urgent or not, of `n` slots (R164). -/
def TcamSleeve.allows (x : TcamSleeve) (urgent : Bool) : Bool :=
  decide (x.searches < allowance x.band) &&
    (urgent || decide (x.plain < allowance x.band - x.reserve))

/-- A search slot counted, `n` slots long. -/
def TcamSleeve.counted (x : TcamSleeve) (urgent : Bool) (n : Nat) : TcamSleeve :=
  { x with searches := x.searches + n, plain := if urgent then x.plain else x.plain + n }

/-! ### Messages (R166 to R169) -/

/-- The epoch of a tenancy's lowest bank. -/
def Dev.bankEpoch (d : Dev) (t : Nat) : Nat :=
  match d.held t 3 with
  | b :: _ => (d.unit 3 b).epoch
  | [] => 0

/-- The checks of holder and epoch of the messages that name no bank. -/
def tcamSender (who : Sender) (d : Dev) : List (Bool × Status) :=
  [((d.held who.tenancy 3).isEmpty || who.isMaint, .notPermitted),
   (who.stale (d.bankEpoch who.tenancy), .staleEpoch)]

/-- The checks of holder and epoch of the messages that name an index. -/
def tcamIndex (who : Sender) (d : Dev) (i : Nat) : List (Bool × Status) :=
  [(32767 < i || !d.holds who.tenancy 3 (bankOf i), .notPermitted),
   (who.stale (d.unit 3 (bankOf i)).epoch, .staleEpoch)]

/-- The profile that a staged change sets under a key. -/
def tcamProfileOf (k : Nat) : Change → Option ProfileRec
  | .tcamProfile j r _ => if j = k then some r else none
  | _ => none

/-- A TCAM profile as the sender's next TBL_COMMIT will make it. -/
def Dev.nextTcamProfile (d : Dev) (t p : Nat) : Option ProfileRec :=
  match d.allStaged.reverse.findSome? fun s => tcamProfileOf (t * 4 + p) s.change with
  | some r => some r
  | none => d.tcam.profiles.get? (t * 4 + p)

/-- Whether a tenancy's staged change adds an entry of a profile. -/
def stagesTcamOf (t p : Nat) (s : Staged) : Bool :=
  s.tenancy = t && (match s.change with
    | .tcamAdd _ r => r.profile = p
    | _ => false)

/-- R167: what TCAM_PROFILE_SET checks. -/
def tcamProfileChecks (who : Sender) (d : Dev) (r : ProfileRec) : List (Bool × Status) :=
  let t := who.tenancy
  let overlaps := (List.range 4).any fun p => p != r.profile &&
    (match d.nextTcamProfile t p with
     | some x => Nat.land x.selectMask r.selectMask != 0
     | none => false)
  let used := d.tcam.entries.cells.any fun c => c.2.tenancy = t && c.2.data.profile = r.profile
  tcamSender who d ++
  [(!extractsOk 76 r, .badField), (used || d.allStaged.any (stagesTcamOf t r.profile) || overlaps, .badState)]

/-- TCAM_PROFILE_SET. -/
def execTcamProfileSet (h : Hdr) (r : ProfileRec) (s : State) : Host.Outcome State Fault Refusal :=
  runMessage { code := 0x0601, lenOk := exactly 112, maxBody := 0 } h (fun who d =>
    setting (tcamProfileChecks who d r) d fun d =>
      let k := who.tenancy * 4 + r.profile
      d.stage who.tenancy (.tcamProfile k r (d.tcam.profiles.get? k))
        ((d.held who.tenancy 3).map fun b => (3, b)) 0) s

/-- Whether a change adds a TCAM entry at index `i`. -/
def addsTcam (i : Nat) : Change → Bool
  | .tcamAdd j _ => i = j
  | _ => false

/-- Whether a change removes the TCAM entry at index `i`. -/
def removesTcam (i : Nat) : Change → Bool
  | .tcamDel j _ => i = j
  | _ => false

/-- Whether a byte of value has a bit that its mask ignores. -/
def tcamValueBad (r : TcamWriteRec) : Bool :=
  (List.range 76).any fun j => Nat.land (byteAt r.value j) (byteAt r.mask j) != byteAt r.value j

/-- R167: what TCAM_WRITE checks. -/
def tcamWriteChecks (who : Sender) (d : Dev) (r : TcamWriteRec) : List (Bool × Status) :=
  let paired := d.isPaired r.index
  let wide := (r.value.drop 38).any (· != 0) || (r.mask.drop 38).any (· != 0)
  tcamIndex who d r.index ++
  [(3 < r.profile || r.actionRef / 2 ^ 24 != 0 || 65535 < r.metaVal || r.value.length != 76 ||
      r.mask.length != 76 || r.value.any (255 < ·) || r.mask.any (255 < ·) || tcamValueBad r ||
      (!paired && wide) || (paired && bankOf r.index % 2 = 1), .badField),
   ((d.tcam.entries.get? r.index).isSome || d.stagedAdd (addsTcam r.index), .slotBusy),
   (!d.canStage who.tenancy 1, .noSpace)]

/-- The banks, as units, that a change at an index depends on. -/
def Dev.tcamUnits (d : Dev) (i : Nat) : List (Nat × Nat) := (d.banksOf i).map fun b => (3, b)

/-- TCAM_WRITE. -/
def execTcamWrite (h : Hdr) (r : TcamWriteRec) (s : State) : Host.Outcome State Fault Refusal :=
  runMessage { code := 0x0602, lenOk := exactly 168, maxBody := 0 } h (fun who d =>
    setting (tcamWriteChecks who d r) d fun d =>
      d.stage who.tenancy (.tcamAdd r.index r) (d.tcamUnits r.index) 1) s

/-- R167: what TCAM_CLEAR checks. -/
def tcamClearChecks (who : Sender) (d : Dev) (i : Nat) : List (Bool × Status) :=
  tcamIndex who d i ++
  [(d.isPaired i && bankOf i % 2 = 1, .badField),
   (match d.tcam.entries.get? i with
    | some e => !e.live.testBit d.current
    | none => true, .badState),
   (!d.canStage who.tenancy 1, .noSpace)]

/-- TCAM_CLEAR. -/
def execTcamClear (h : Hdr) (index : Nat) (s : State) : Host.Outcome State Fault Refusal :=
  runMessage { code := 0x0603, lenOk := exactly 2, maxBody := 0 } h (fun who d =>
    setting (tcamClearChecks who d index) d fun d =>
      match d.tcam.entries.get? index with
      | some e => d.stage who.tenancy (.tcamDel index e) (d.tcamUnits index) 1
      | none => d) s

/-- TCAM_ITERATE: a diagnostic search that waits for its update bubble. -/
def execTcamIterate (h : Hdr) (r : TcamIterateRec) (s : State) : Host.Outcome State Fault Refusal :=
  runMessage { code := 0x0604, lenOk := exactly 88, maxBody := 264, changes := false } h (fun who d =>
    checked (tcamSender who d ++
        [(decide (6 < r.sleeve) || (3 < r.version && r.version != 255) || decide (3 < r.profile) ||
            decide (32767 < r.startIndex) || r.maxResults = 0 || decide (64 < r.maxResults), .badField)]) d
      fun d =>
        let x := d.sleeve r.sleeve
        (.wait, d.setSleeve r.sleeve
          { x with updates := x.updates ++ [Bubble.diagnostic who.tok who.tenancy r] })) s

/-- TCAM_THROTTLE_SET (R168). -/
def execTcamThrottleSet (h : Hdr) (r : TcamThrottleRec) (s : State) : Host.Outcome State Fault Refusal :=
  runMessage { code := 0x0605, lenOk := exactly 8, maxBody := 0 } h (fun who d =>
    setting [(!who.isOwner, .notPermitted),
             ((6 < r.sleeve && r.sleeve != 255) || 32 < r.tcReserve || r.scrubMs < 100 || 60000 < r.scrubMs,
               .badField)] d fun d =>
      (sleevesNamed r.sleeve).foldl (fun d k =>
        let x := d.tcamSleeve k
        d.setTcamSleeve k { x with nextReserve := r.tcReserve, nextScrubMs := r.scrubMs }) d) s

/-- The per-tenancy counters of a Sleeve (Table 6-9). -/
def tcamCounters (d : Dev) (s t : Nat) : List Nat :=
  let k := s * 16 + t
  [d.ctr .tcamSearches k 0, d.ctr .tcamHits k 0, d.ctr .tcamMulti k 0, d.ctr .tcamKeySkip k 0,
   d.ctr .tcamFalseHits k 0,
   (d.tcam.entries.cells.filter fun c => c.2.tenancy = t && c.2.live.testBit d.current).length]

/-- The per-Sleeve counters, the band and the thresholds. -/
def tcamSleeveCounters (d : Dev) (s : Nat) : List Nat :=
  let x := d.tcamSleeve s
  let run (b : Nat) : Nat := if x.band = b then d.now - x.bandAt else 0
  [(d.tcam.suspects.filter fun k => k / 32768 = s).length, d.ctr .scrubMismatches s 0,
   d.ctr .tcamUpdates s 0, d.ctr .throttleDeferrals s 0, d.ctr .bandCycles1 s 0 + run 1,
   d.ctr .bandCycles2 s 0 + run 2, x.band, x.threshold1.toNat, x.threshold2.toNat]

/-- TCAM_STATUS_GET (R169). -/
def execTcamStatusGet (h : Hdr) (sleeve : Nat) (s : State) : Host.Outcome State Fault Refusal :=
  runMessage { code := 0x0606, lenOk := fun _ => true, maxBody := 2048, changes := false } h (fun who d =>
    checked [(6 < sleeve, .badField)] d fun d =>
      (.list (match who.role with
        | .owner => tcamSleeveCounters d sleeve ++ (List.range 16).flatMap (tcamCounters d sleeve)
        | .tenant => tcamCounters d sleeve who.tenancy
        | .maint => tcamSleeveCounters d sleeve), d)) s

end Sys2Proof.Machine
end

