-- ==== Sys2Proof/Machine/Rewrite.lean ====
section
/-! DEFINITION. The rewrite engines of the egress Cuffs and of recirculation (07, R189 to R191, R523). -/

namespace Sys2Proof.Machine

/-- A frame in a rewrite engine: its bytes without frame check sequence, how many it had, the layers as
they stand (as the context records them), where each pushed header starts, the primitives skipped,
and whether a DEC_TTL met a TTL of 0 or 1. -/
structure Rewriting where
  bytes : List Nat
  orig : Nat
  l3Off : Nat
  l3Type : Nat
  tunOff : Nat
  tunType : Nat
  innerEth : Nat
  hasInnerEth : Bool
  inL3Off : Nat
  inL3Type : Nat
  l4Off : Nat
  l4Type : Nat
  inL4Off : Nat
  inL4Type : Nat
  payOff : Nat
  payOk : Bool
  pushed : List Nat
  skipped : Nat
  expired : Bool

/-- A frame as it enters the engine. -/
def rewritingOf (f : Frame) : Rewriting :=
  let c := f.ctx
  { bytes := f.bytes, orig := f.bytes.length, l3Off := fld c fL3Off, l3Type := fld c fL3Type,
    tunOff := fld c fTunOff, tunType := fld c fTunType, innerEth := f.note.innerEth,
    hasInnerEth := pflag c 11, inL3Off := fld c fInL3Off, inL3Type := fld c fInL3Type,
    l4Off := fld c fL4Off, l4Type := fld c fL4Type, inL4Off := fld c fInL4Off,
    inL4Type := fld c fInL4Type, payOff := fld c fPayOff, payOk := !pflag c 1, pushed := [],
    skipped := 0, expired := false }

/-- Every layer's offset from `at'` on moved by `by'` bytes. -/
def Rewriting.shift (w : Rewriting) (at' : Nat) (by' : Int) : Rewriting :=
  let m (o : Nat) : Nat := if o < at' then o else ((o : Int) + by').toNat
  { w with l3Off := m w.l3Off, tunOff := m w.tunOff, innerEth := m w.innerEth, inL3Off := m w.inL3Off,
           l4Off := m w.l4Off, inL4Off := m w.inL4Off, payOff := m w.payOff, pushed := w.pushed.map m }

/-- `vs` inserted at an offset. -/
def Rewriting.insert (w : Rewriting) (o : Nat) (vs : List Nat) : Rewriting :=
  { w with bytes := insertAt w.bytes o vs }.shift o vs.length

/-- `n` bytes removed at an offset, with the pushed headers that start in them. -/
def Rewriting.remove (w : Rewriting) (o n : Nat) : Rewriting :=
  { w with bytes := removeAt w.bytes o n,
           pushed := w.pushed.filter fun p => decide (p < o ∨ o + n ≤ p) }.shift (o + n) (-(n : Int))

/-- Bytes written over. -/
def Rewriting.put (w : Rewriting) (o : Nat) (vs : List Nat) : Rewriting :=
  { w with bytes := patch w.bytes o vs }

/-- The primitive skipped and counted. -/
def Rewriting.skip (w : Rewriting) : Rewriting := { w with skipped := w.skipped + 1 }

/-- A primitive that needs a header: skipped where it is absent. -/
def Rewriting.need {α : Type} (w : Rewriting) (x : Option α) (f : α → Rewriting) : Rewriting :=
  match x with
  | some a => f a
  | none => w.skip

/-- Whether an Ethertype is a VLAN tag's. -/
def isTpid (t : Nat) : Bool := t = 0x8100 || t = 0x88A8 || t = 0x9100

/-- Where the outer tags end, from offset `o` of a type field on, at most `n` tags. -/
def tagsEnd (bs : List Nat) : Nat → Nat → Nat
  | 0, o => o
  | n + 1, o => if isTpid (beAt bs o 2) then tagsEnd bs n (o + 4) else o

/-- The offset of the outermost VLAN tag. -/
def Rewriting.tag (w : Rewriting) : Option Nat := if isTpid (beAt w.bytes 12 2) then some 12 else none

/-- The length of a GRE header. -/
def greLen (bs : List Nat) (o : Nat) : Nat :=
  let b := beAt bs o 2
  4 + 4 * (b2n (b.testBit 15) + b2n (b.testBit 13) + b2n (b.testBit 12))

/-- The outermost MPLS label and the type field before it: at l3_off, or in a GRE tunnel. -/
def Rewriting.label (w : Rewriting) : Option (Nat × Nat) :=
  if w.l3Type = 3 then some (w.l3Off, w.l3Off - 2)
  else if w.tunType = 2 && beAt w.bytes (w.tunOff + 2) 2 = 0x8847 then
    some (w.tunOff + greLen w.bytes w.tunOff, w.tunOff + 2)
  else none

/-- The end of a label stack. -/
def stackEnd (bs : List Nat) : Nat → Nat → Nat
  | 0, o => o
  | n + 1, o => if (byteAt bs (o + 2)).testBit 0 then o + 4 else stackEnd bs n (o + 4)

/-- The outermost IP header: its offset and whether it is IPv4. -/
def Rewriting.ip (w : Rewriting) : Option (Nat × Bool) :=
  let at' (o : Nat) : Option (Nat × Bool) :=
    let n := byteAt w.bytes o / 16
    if n = 4 then some (o, true) else if n = 6 then some (o, false) else none
  if w.l3Type = 1 then some (w.l3Off, true)
  else if w.l3Type = 2 then some (w.l3Off, false)
  else if w.l3Type = 3 then at' (stackEnd w.bytes 13 w.l3Off)
  else none

/-- One's complement addition of 16-bit values. -/
def onesAdd (a b : Nat) : Nat :=
  let s := a + b
  s % 65536 + s / 65536

/-- The IPv4 header checksum at `o` updated for a 16-bit word that changes from `a` to `b` (RFC 1624). -/
def Rewriting.fixSum (w : Rewriting) (o a b : Nat) : Rewriting :=
  let old := beAt w.bytes (o + 10) 2
  w.put (o + 10) (beBytes 2 (65535 - onesAdd (onesAdd (65535 - old) (65535 - a)) b))

/-- The IPv4 header checksum at `o` computed in full. -/
def Rewriting.fullSum (w : Rewriting) (o : Nat) : Rewriting :=
  let w := w.put (o + 10) [0, 0]
  let n := byteAt w.bytes o % 16 * 2
  let s := (List.range n).foldl (fun s i => onesAdd s (beAt w.bytes (o + 2 * i) 2)) 0
  w.put (o + 10) (beBytes 2 (65535 - s))

/-- A byte of an IPv4 header changed with its checksum. -/
def Rewriting.putIp4 (w : Rewriting) (o i v : Nat) : Rewriting :=
  let e := i / 2 * 2
  let a := beAt w.bytes (o + e) 2
  let w := w.put (o + i) [v]
  w.fixSum o a (beAt w.bytes (o + e) 2)

/-- PUSH_VLAN's TPID. -/
def pushTpid (n : Nat) : Option Nat :=
  match n with
  | 0 => some 0x8100
  | 1 => some 0x88A8
  | 2 => some 0x9100
  | _ => none

/-- PUSH_MPLS (R523). -/
def Rewriting.pushMpls (w : Rewriting) (label : Nat) : Rewriting :=
  let tc := match w.tag with
    | some o => byteAt w.bytes (o + 2) / 32
    | none => 0
  let l2 := tagsEnd w.bytes 16 12 + 2
  let entry (ttl s : Nat) : List Nat := beBytes 4 (label % 2 ^ 20 * 2 ^ 12 + tc * 2 ^ 9 + s * 2 ^ 8 + ttl)
  match w.label with
  | some (o, _) =>
    let first := o = w.l3Off
    let w' := w.insert o (entry (byteAt w.bytes (o + 3)) 0)
    if first then { w' with l3Off := o } else w'
  | none =>
    let ttl := match w.ip with
      | some (o, true) => byteAt w.bytes (o + 8)
      | some (o, false) => byteAt w.bytes (o + 7)
      | none => 255
    let w' := (w.put (l2 - 2) [0x88, 0x47]).insert l2 (entry ttl 1)
    { w' with l3Off := l2, l3Type := 3 }

/-- POP_MPLS (R523). -/
def Rewriting.popMpls (w : Rewriting) : Rewriting :=
  w.need w.label fun (o, ty) =>
    let bottom := (byteAt w.bytes (o + 2)).testBit 0
    let n := byteAt w.bytes (o + 4) / 16
    if !bottom then { w.remove o 4 with l3Off := w.l3Off }
    else if n = 4 || n = 6 then
      let t := if n = 4 then 0x0800 else 0x86DD
      let w' := (w.put ty (beBytes 2 t)).remove o 4
      if o = w.l3Off then { w' with l3Off := o, l3Type := if n = 4 then 1 else 2 } else w'
    else w.skip

/-- Where the first tunnel header ends, extension headers of GTP-U included (at most 16). -/
def gtpEnd (bs : List Nat) : Nat → Nat → Nat → Nat
  | 0, o, _ => o
  | n + 1, o, t =>
    if t = 0 then o
    else
      let len := byteAt bs o * 4
      gtpEnd bs n (o + len) (byteAt bs (o + len - 1))

/-- The end of the tunnel header. -/
def Rewriting.tunEnd (w : Rewriting) : Nat :=
  let o := w.tunOff
  match w.tunType with
  | 1 => o + 8
  | 2 => o + greLen w.bytes o
  | 3 =>
    let fl := byteAt w.bytes o
    if fl % 8 = 0 then o + 8
    else gtpEnd w.bytes 16 (o + 12) (if fl.testBit 2 then byteAt w.bytes (o + 11) else 0)
  | 4 => o + (byteAt w.bytes (o + 1) + 1) * 8
  | _ => o

/-- POP_TUNNEL (R523). -/
def Rewriting.popTunnel (w : Rewriting) : Rewriting :=
  let l3 := w.l3Type = 1 || w.l3Type = 2
  if w.tunType = 0 || !l3 then w.skip
  else if w.hasInnerEth then
    let w' := w.remove 0 w.innerEth
    { w' with tunType := 0, hasInnerEth := false, l3Off := w'.inL3Off, l3Type := w'.inL3Type,
              l4Off := w'.inL4Off, l4Type := w'.inL4Type, inL3Type := 0, inL4Type := 0 }
  else if w.inL3Type = 0 then w.skip
  else
    let t := if w.inL3Type = 1 then 0x0800 else 0x86DD
    let n := w.tunEnd - w.l3Off
    let w' := (w.put (w.l3Off - 2) (beBytes 2 t)).remove w.l3Off n
    { w' with tunType := 0, l3Off := w'.inL3Off, l3Type := w'.inL3Type, l4Off := w'.inL4Off,
              l4Type := w'.inL4Type, inL3Type := 0, inL4Type := 0 }

/-- PUSH_TUNNEL: the template's first length bytes at l3_off. -/
def Rewriting.pushTunnel (w : Rewriting) (t : Option TemplateRec) : Rewriting :=
  match t with
  | none => w.skip
  | some t =>
    if t.len = 0 || w.l3Type = 0 then w.skip
    else
      let o := w.l3Off
      let old := w.l3Type
      let w' := w.insert o (bytesAt t.bytes 0 t.len)
      let n := byteAt w'.bytes o / 16
      let w' := if w.inL3Type = 0 && (old = 1 || old = 2) then
          { w' with inL3Off := o + t.len, inL3Type := old, inL4Off := w'.l4Off, inL4Type := w.l4Type } else w'
      { w' with l3Off := o, l3Type := if n = 4 then 1 else if n = 6 then 2 else old, pushed := w'.pushed ++ [o] }

/-- The lengths and checksums of the pushed header at `o`, once the length is final (R191). -/
def Rewriting.fill (w : Rewriting) (o : Nat) : Rewriting :=
  let left := w.bytes.length - o
  let udp (w : Rewriting) (u : Nat) : Rewriting :=
    let w := (w.put (u + 4) (beBytes 2 (w.bytes.length - u))).put (u + 6) [0, 0]
    if beAt w.bytes (u + 2) 2 = 2152 then w.put (u + 10) (beBytes 2 (w.bytes.length - (u + 16))) else w
  let n := byteAt w.bytes o / 16
  if n = 4 then
    let w := (w.put (o + 2) (beBytes 2 left)).fullSum o
    if byteAt w.bytes (o + 9) = 17 then udp w (o + byteAt w.bytes o % 16 * 4) else w
  else if n = 6 then
    let w := w.put (o + 4) (beBytes 2 (left - 40))
    if byteAt w.bytes (o + 6) = 17 then udp w (o + 40) else w
  else w

/-- The lengths and checksums of the pushed headers (R191). -/
def Rewriting.finish (w : Rewriting) : Rewriting := w.pushed.foldl Rewriting.fill w

/-- DEC_TTL (R190). -/
def Rewriting.decTtl (w : Rewriting) (mpls : Bool) : Rewriting :=
  let mark (w : Rewriting) (v : Nat) : Rewriting := if v ≤ 1 then { w with expired := true } else w
  if mpls then
    w.need w.label fun (o, _) =>
      let v := byteAt w.bytes (o + 3)
      mark (w.put (o + 3) [v - 1]) v
  else
    w.need w.ip fun (o, four) =>
      if four then
        let v := byteAt w.bytes (o + 8)
        mark (w.putIp4 o 8 (v - 1)) v
      else
        let v := byteAt w.bytes (o + 7)
        mark (w.put (o + 7) [v - 1]) v

/-- SET_DSCP. -/
def Rewriting.setDscp (w : Rewriting) (v : Nat) : Rewriting :=
  w.need w.ip fun (o, four) =>
    if four then w.putIp4 o 1 (v % 64 * 4 + byteAt w.bytes (o + 1) % 4)
    else
      let h := beAt w.bytes o 2
      let tc := v % 64 * 4 + h / 16 % 4
      w.put o (beBytes 2 (h / 4096 * 4096 + tc * 16 + h % 16))

/-- The base of SET_BYTE in the frame as it stands. -/
def Rewriting.base (w : Rewriting) : Nat → Option Nat
  | 0 => some 0
  | 1 => if w.l3Type = 0 then none else some w.l3Off
  | 2 => if w.l4Type = 0 then none else some w.l4Off
  | 3 => if w.tunType = 0 then none else some w.tunOff
  | 4 => if w.inL3Type = 0 then none else some w.inL3Off
  | 5 => if w.inL4Type = 0 then none else some w.inL4Off
  | 6 => if w.payOk then some w.payOff else none
  | _ => none

/-- SET_VLAN. -/
def Rewriting.setVlan (w : Rewriting) (mode pcp vid : Nat) : Rewriting :=
  w.need w.tag fun o =>
    let t := beAt w.bytes (o + 2) 2
    let v := if mode = 1 then t % 4096 else vid % 4096
    let p := if mode = 0 then t / 8192 else pcp % 8
    if mode = 3 then w.skip else w.put (o + 2) (beBytes 2 (p * 8192 + t / 4096 % 2 * 4096 + v))

/-- One primitive of Table 7-8 under the tenancy's templates. -/
def Rewriting.step (tmpl : Nat → Option TemplateRec) (w : Rewriting) (prim : Nat) : Rewriting :=
  let x := prim % 2 ^ 20
  match prim / 2 ^ 20 with
  | 1 => w.need w.tag fun o => w.remove o 4
  | 2 => w.need (pushTpid (bits x 18 2)) fun t =>
      w.insert 12 (beBytes 2 t ++ beBytes 2 (bits x 15 3 * 8192 + bits x 14 1 * 4096 + bits x 0 12))
  | 3 => w.setVlan (bits x 18 2) (bits x 15 3) (bits x 0 12)
  | 4 => w.popMpls
  | 5 => w.pushMpls x
  | 6 => w.need w.label fun (o, _) =>
      w.put o (beBytes 4 (x * 2 ^ 12 + beAt w.bytes o 4 % 2 ^ 12))
  | 7 => w.decTtl (x.testBit 0)
  | 8 => w.need (w.base (bits x 17 3)) fun b =>
      let o := b + bits x 9 8
      if o < w.bytes.length then w.put o [bits x 0 8] else w.skip
  | 9 => w.setDscp (bits x 0 6)
  | 10 => w.need (tmpl (bits x 0 11)) fun t => w.put (if x.testBit 19 then 6 else 0) (bytesAt t.bytes 0 6)
  | 11 => w.pushTunnel (tmpl (bits x 0 11))
  | 12 => w.popTunnel
  | _ => w.skip

/-- The primitives up to END, in order; one that would grow the frame by more than 128 bytes ends the
list, it and those after it skipped (R189). -/
def Rewriting.run (tmpl : Nat → Option TemplateRec) : List Nat → Rewriting → Rewriting
  | [], w => w
  | p :: ps, w =>
    if p / 2 ^ 20 = 0 then w
    else
      let w' := w.step tmpl p
      if w.orig + 128 < w'.bytes.length then
        { w with skipped := w.skipped + 1 + (ps.takeWhile fun q => q / 2 ^ 20 != 0).length }
      else Rewriting.run tmpl ps w'

/-- The eight primitives of a descriptor. -/
def programOf (x : BitVec 256) : List Nat := (List.range 8).map fun i => getBits x (168 - 24 * i) 24

/-- A rewrite program of eight primitives as 192 bits. -/
def packProgram (ps : List Nat) : Nat :=
  (List.range 8).foldl (fun a i => a * 2 ^ 24 + ps.getD i 0 % 2 ^ 24) 0

/-- Template `i` of a tenancy. -/
def Dev.template (d : Dev) (t i : Nat) : Option TemplateRec :=
  (d.absIndex t 8 128 i).map fun a => d.vers.templates.get { index := i, len := 0, bytes := [] } a

/-- A frame after a rewrite program: its bytes, and the primitives skipped. -/
def Dev.rewrite (d : Dev) (f : Frame) (prog : List Nat) : Rewriting :=
  (Rewriting.run (d.template (fld f.ctx fTenancy)) prog (rewritingOf f)).finish

end Sys2Proof.Machine
end

