-- ==== Sys2Proof/Machine/Meter.lean ====
section
/-! DEFINITION. Policing and colour (10): stages 10 and 11 and the meters' messages. -/

namespace Sys2Proof.Machine

/-! ### The meter (R254 to R262) -/

/-- A tenancy's policing settings. -/
def Dev.meterTenancy (d : Dev) (t : Nat) : MeterTenancyRec := d.meter.tenancies.get meterTenancyReset t

/-- The colour code at entry `i` of a map of 2-bit entries. -/
def mapColour (m i : Nat) : Nat := bits m (2 * i) 2

/-- R258: the incoming colour of a packet by the source that `dscp` chooses. -/
def inColour (d : Dev) (f : Frame) (dscp : Bool) : Nat :=
  let m := d.meterTenancy (fld f.ctx fTenancy)
  let l3 := fld f.ctx fL3Off
  if dscp then
    match fld f.ctx fL3Type with
    | 1 => mapColour m.dscpMap (byteAt f.bytes (l3 + 1) / 4)
    | 2 => mapColour m.dscpMap (beAt f.bytes l3 2 / 64 % 64)
    | _ => m.nonipColour
  else if fld f.ctx fVlans = 0 then m.untaggedColour
  else mapColour m.pcpDeiMap (2 * fld f.ctx fPcp + fld f.ctx fDei)

/-- R254: the tenancy-relative context of a packet. -/
def contextOf (d : Dev) (f : Frame) : Option Nat :=
  let m := d.meterTenancy (fld f.ctx fTenancy)
  if fld f.ctx fFragState = 3 || flag f.ctx fFlowHit then some (fld f.ctx fFlowCtx)
  else if f.ctx.getLsbD 95 && m.flags.testBit 1 then some (getBits f.ctx 37 16)
  else if m.flags.testBit 0 then some m.defaultCtx
  else none

/-- Whether stage 10 meters on this pass at all (R254 line 1, R256). -/
def meters (f : Frame) : Bool :=
  f.fromCuff && !f.isReplay &&
    (if f.pass = 0 then fld f.ctx fFragState != 5
     else !flag f.ctx fMetered && fld f.ctx fFragState = 3)

/-- The metered length (10, Meters). -/
def meteredLength (f : Frame) (overhead : Bool) : Nat :=
  let claimed := fld f.side sClaimed
  let b := if flag f.ctx fIncomplete then (if claimed = 0 then f.maxFrame else claimed + 4) else f.len
  if overhead then b + 20 else b

/-- 2^32: the units of a byte in a bucket. -/
def byteUnits : Nat := 2 ^ 32

/-- A meter state refilled at cycle `now` (R260). -/
def refill (r : MeterBindRec) (m : MeterCell) (now : Nat) : MeterCell :=
  let el := (now + 2 ^ 40 - m.last % 2 ^ 40) % 2 ^ 40
  let add (inc : Nat) : Nat := min (el * inc) (2 ^ 57)
  let c := m.c + add (rateInc r.rate1)
  let cbs := r.burst1 * byteUnits
  let ebs := r.burst2 * byteUnits
  let last := now % 2 ^ 40
  if r.mode = 1 then
    if cbs < c then { c := cbs, e := min (m.e + (c - cbs)) ebs, last := last }
    else { c := c, e := m.e, last := last }
  else { c := min c cbs, e := min (m.e + add (rateInc r.rate2)) ebs, last := last }

/-- The colour of a packet of `b` units, with the buckets after it (R260): 0 green, 1 yellow, 2 red. -/
def decide' (r : MeterBindRec) (m : MeterCell) (b inc : Nat) : Nat × MeterCell :=
  let aware := r.flags.testBit 0
  if r.mode = 1 then
    if (!aware || inc = 0) && b ≤ m.c then (0, { m with c := m.c - b })
    else if (!aware || inc != 2) && b ≤ m.e then (1, { m with e := m.e - b })
    else (2, m)
  else if (aware && inc = 2) || m.e < b then (2, m)
  else if (aware && inc = 1) || m.c < b then (1, { m with e := m.e - b })
  else (0, { m with c := m.c - b, e := m.e - b })

/-- A meter state with both buckets full. -/
def fullCell (r : MeterBindRec) (now : Nat) : MeterCell :=
  { c := r.burst1 * byteUnits, e := r.burst2 * byteUnits, last := now % 2 ^ 40 }

/-- The meter state of a context in Sleeve `s`. -/
def Dev.meterCell (d : Dev) (s a : Nat) : MeterCell := d.meter.cells.get .reset (s * 65536 + a)

/-- The meter state of a context in Sleeve `s` replaced. -/
def Dev.setMeterCell (d : Dev) (s a : Nat) (m : MeterCell) : Dev :=
  { d with meter := { d.meter with cells := d.meter.cells.set (s * 65536 + a) m } }

/-- The counters of a context: packets and octets by colour. -/
def colourCtrs : List (Ctr × Ctr) :=
  [(.greenPackets, .greenOctets), (.yellowPackets, .yellowOctets), (.redPackets, .redOctets)]

/-- Whether a counter is one of a context's six. -/
def isColourCtr (c : Ctr) : Bool := colourCtrs.any fun p => p.1 = c || p.2 = c

/-- A counter of a colour. -/
def Dev.countColour (d : Dev) (a s col len : Nat) : Dev :=
  match colourCtrs[col]? with
  | some p => (d.inc p.1 a s).bump p.2 a s len
  | none => d

/-- R269: a meter state rewritten full, the Sleeve's counters of the context zeroed, and the event. -/
def Dev.meterEccError (d : Dev) (s a i t : Nat) (r : MeterBindRec) : Dev :=
  let d := (d.setMeterCell s a (fullCell r (d.sleeveCycles s))).zeroCtrs fun k =>
    isColourCtr k.ctr && k.a = a && k.b = s
  let others : List Aud := if t = 0 then [.maint] else ownerMaint
  ((d.inc .meterEcc s 0).raise 0x0A01 [.tenancy t] [s, i]).raise 0x0A01 others [s]

/-- The binding of context `a`, if it is live in slot `v`. -/
def Dev.bindingAt (d : Dev) (a v : Nat) : Option MeterBindRec :=
  match d.meter.bindings.get? a with
  | some b => if b.live.testBit v then some b.data else none
  | none => none

/-- A meter access of context `i`, absolute `a`, under its binding. -/
def Dev.access (d : Dev) (fid : Nat) (f : Frame) (i a : Nat) (r : MeterBindRec) (ecc : Ecc) : Dev :=
  let s := f.sleeve
  let d := match ecc with
    | .uncorrectable => (d.inc .tableEccUncorrectable (s * 32 + 10) 8).meterEccError s a i (fld f.ctx fTenancy) r
    | .corrected => d.inc .tableEccCorrected (s * 32 + 10) 8
    | .clean => d
  let inc := inColour d f (r.flags.testBit 1)
  let len := meteredLength f (r.flags.testBit 2)
  let m := refill r (d.meterCell s a) (d.sleeveCycles s)
  let (col, m) := decide' r m (len * byteUnits) inc
  ((d.setMeterCell s a m).countColour a s col len).setFrame fid
    { f with meterCtx := some a, ctx := putAll f.ctx [(fInColour, inc), (fColour, col), (fMetered, 1)] }

/-- METER_ACCESS (R254 to R260, R268). -/
def execMeterAccess (fid : Nat) (ecc : Ecc) (s : State) : Host.Outcome State Fault Refusal :=
  running (fun d => d.stageRow fid .meter .colour [10] fun f d =>
    let k := f.sleeve * 16 + fld f.ctx fTenancy
    if 0 < f.pass && !meters f then d.setFrame fid { f with meterCtx := none }
    else
      let f := { f with meterCtx := none, ctx := putBits f.ctx 15 22 0 }
      let col := match d.replayRecord f with
        | some r => r.decision / 2 ^ 43 % 4
        | none => 0
      let plain := { f with ctx := putAll f.ctx [(fInColour, inColour d f false), (fColour, col)] }
      if !meters f then d.setFrame fid plain
      else
        match contextOf d f with
        | none => d.setFrame fid plain
        | some i =>
          match d.absIndex (fld f.ctx fTenancy) 4 4096 i with
          | none => (d.inc .meterOutOfRange k 0).setFrame fid plain
          | some a =>
            match d.bindingAt a (fld f.ctx fVersion) with
            | none => (d.inc .meterUnbound k 0).setFrame fid plain
            | some r => d.access fid f i a r ecc) s

/-- The place of a colour in a list of three. -/
def byColour (l : List Nat) (c : Nat) : Nat := l.getD c 0

/-- COLOUR_ACTION (R264 to R266). -/
def execColourAction (fid : Nat) (s : State) : Host.Outcome State Fault Refusal :=
  running (fun d => d.stageRow fid .colour .action [11] fun f d =>
    match f.meterCtx with
    | none => d
    | some a =>
      match d.bindingAt a (fld f.ctx fVersion) with
      | none => d
      | some r =>
        let c := fld f.ctx fColour
        let on (i : Nat) (fs : List (Fld × Nat)) : List (Fld × Nat) := if r.flags.testBit i then fs else []
        let fs := (if c = 2 then on 3 [(fRedDrop, 1)] else [])
          ++ on 4 [(fDscpRemark, 1), (fDscp, byColour r.dscp c)]
          ++ on 5 [(fPcpRemark, 1), (fPcpVal, byColour r.pcp c)]
          ++ on 6 [(fColourQueue, 1), (fQueueVal, byColour r.queue c)]
        d.setFrame fid { f with ctx := putAll f.ctx fs }) s

/-- R261: a refresh of a context's state in Sleeve `s`. -/
def Dev.meterRefresh (d : Dev) (s a : Nat) : Dev :=
  match d.meter.bindings.get? a with
  | some b => d.setMeterCell s a (refill b.data (d.meterCell s a) (d.sleeveCycles s))
  | none => d

/-! ### Messages (R263, R270 to R272) -/

/-- The checks of holder and epoch of a context index. -/
def contextChecks (who : Sender) (d : Dev) (i : Nat) : List (Bool × Status) :=
  let b := d.block who.tenancy 4 (i / 4096)
  [(b.isNone, .notPermitted),
   ((match b with
     | some b => who.stale (d.unit 4 b).epoch
     | none => false), .staleEpoch)]

/-- The absolute index of a context; 2^16 where it is not held. -/
def Dev.contextAbs (d : Dev) (t i : Nat) : Nat := (d.absIndex t 4 4096 i).getD 65536

/-- Whether a change adds a binding of context `a`. -/
def addsBinding (a : Nat) : Change → Bool
  | .bindAdd j _ => a = j
  | _ => false

/-- R270: what METER_BIND checks. -/
def meterBindChecks (who : Sender) (d : Dev) (r : MeterBindRec) : List (Bool × Status) :=
  let a := d.contextAbs who.tenancy r.index
  let two := r.mode = 2
  contextChecks who d r.index ++
  [((r.mode != 1 && r.mode != 2) || r.rate1 < 8000 || 400000000000 < r.rate1 ||
      (if two then r.rate2 < r.rate1 || 400000000000 < r.rate2 else r.rate2 != 0) ||
      r.burst1 < 64 || 16777216 < r.burst1 || 16777216 < r.burst2 || (two && r.burst2 < 64) ||
      r.dscp.length != 3 || r.pcp.length != 3 || r.queue.length != 3 ||
      r.dscp.any (63 < ·) || r.pcp.any (7 < ·) || r.queue.any (15 < ·), .badField),
   ((d.meter.bindings.get? a).isSome || d.stagedAdd (addsBinding a), .slotBusy),
   (!d.canStage who.tenancy 1, .noSpace)]

/-- METER_BIND. -/
def execMeterBind (h : Hdr) (r : MeterBindRec) (s : State) : Host.Outcome State Fault Refusal :=
  runMessage { code := 0x0A01, lenOk := exactly 44, maxBody := 0 } h (fun who d =>
    setting (meterBindChecks who d r) d fun d =>
      let a := d.contextAbs who.tenancy r.index
      d.stage who.tenancy (.bindAdd a r) [(4, a / 4096)] 1) s

/-- R270: what METER_UNBIND checks. -/
def meterUnbindChecks (who : Sender) (d : Dev) (i : Nat) : List (Bool × Status) :=
  contextChecks who d i ++
  [((d.bindingAt (d.contextAbs who.tenancy i) d.current).isNone, .badState),
   (!d.canStage who.tenancy 1, .noSpace)]

/-- METER_UNBIND. -/
def execMeterUnbind (h : Hdr) (index : Nat) (s : State) : Host.Outcome State Fault Refusal :=
  runMessage { code := 0x0A02, lenOk := exactly 2, maxBody := 0 } h (fun who d =>
    setting (meterUnbindChecks who d index) d fun d =>
      let a := d.contextAbs who.tenancy index
      match d.meter.bindings.get? a with
      | some b => d.stage who.tenancy (.bindDel a b.data) [(4, a / 4096)] 1
      | none => d) s

/-- Whether a map of `n` 2-bit colours holds code 3 or has bits beyond. -/
def badColours (n m : Nat) : Bool :=
  m / 2 ^ (2 * n) != 0 || (List.range n).any fun i => mapColour m i = 3

/-- R271: what METER_TENANCY_SET checks. -/
def meterTenancyChecks (who : Sender) (d : Dev) (r : MeterTenancyRec) : List (Bool × Status) :=
  let t := who.tenancy
  [((d.held t 4).isEmpty || (d.absIndex t 4 4096 r.defaultCtx).isNone, .notPermitted),
   ((match d.held t 4 with
     | b :: _ => who.stale (d.unit 4 b).epoch
     | [] => false), .staleEpoch),
   (2 < r.untaggedColour || 2 < r.nonipColour || badColours 16 r.pcpDeiMap || badColours 64 r.dscpMap,
     .badField)]

/-- METER_TENANCY_SET. -/
def execMeterTenancySet (h : Hdr) (r : MeterTenancyRec) (s : State) : Host.Outcome State Fault Refusal :=
  runMessage { code := 0x0A03, lenOk := exactly 28, maxBody := 0 } h (fun who d =>
    setting (meterTenancyChecks who d r) d fun d =>
      { d with meter := { d.meter with
          tenancies := d.meter.tenancies.set who.tenancy { r with flags := r.flags % 4 } } }) s

/-- The six counters of a context in Sleeve `s`. -/
def contextCounters (d : Dev) (a s : Nat) : List Nat :=
  colourCtrs.flatMap fun p => [d.ctr p.1 a s, d.ctr p.2 a s]

/-- The sums of each place over several rows of six. -/
def sumRows (rows : List (List Nat)) : List Nat :=
  rows.foldl (fun acc r => (List.range 6).map fun i => acc.getD i 0 + r.getD i 0) (List.replicate 6 0)

/-- The contexts of a tenancy that have counted, absolute. -/
def Dev.contextsOf (d : Dev) (t : Nat) : List Nat :=
  ((d.counters.filter fun c => isColourCtr c.1.ctr).map (·.1.a)).eraseDups.filter fun a =>
    d.holds t 4 (a / 4096)

/-- METER_STATS_GET (R272). -/
def execMeterStatsGet (h : Hdr) (index : Nat) (s : State) : Host.Outcome State Fault Refusal :=
  runMessage { code := 0x0A04, lenOk := exactly 2, maxBody := 2048, changes := false } h (fun who d =>
    let a? := d.absIndex who.tenancy 4 4096 index
    let sleeves := List.range 7
    let own (a : Nat) : List Nat :=
      sleeves.flatMap (fun s => contextCounters d a s ++ [(d.meterCell s a).c, (d.meterCell s a).e]) ++
        sumRows (sleeves.map (contextCounters d a))
    let sums : List Nat := sleeves.flatMap fun s => (List.range 16).flatMap fun t =>
      sumRows ((d.contextsOf t).map fun a => contextCounters d a s) ++
        [d.ctr .meterUnbound (s * 16 + t) 0, d.ctr .meterOutOfRange (s * 16 + t) 0,
         d.ctr .remarkSkipped (s * 16 + t) 0]
    match who.role, a? with
    | .maint, _ => (.list (sleeves.map fun s => d.ctr .meterEcc s 0), d)
    | .tenant, none => (.say .notPermitted, d)
    | .tenant, some a => (.list (own a), d)
    | .owner, some a => (.list (own a ++ sums), d)
    | .owner, none => (.list sums, d)) s

end Sys2Proof.Machine
end

