-- ==== Sys2Proof/Machine/ResOps.lean ====
section
/-! DEFINITION. The parts of a reassignment that commits and version slots take part in: its fence cycle, its scrub
commits and the drain it waits for (16). -/

namespace Sys2Proof.Machine

/-- The objects of each unit of a kind that commits change (Table 16-2). -/
def unitObjects : Nat → Nat
  | 3 => 2048
  | 6 => 256
  | 7 => 32
  | _ => 4096

/-- The cells of a table with a property, in ascending order of their index. -/
def cellsWhere {α : Type} (t : Tab α) (p : Nat → α → Bool) : List (Nat × α) :=
  (ascending ((t.cells.filter fun c => p c.1 c.2).map (·.1))).filterMap fun k => (t.get? k).map fun v => (k, v)

/-- The removals of the objects in units `us` of a kind that are live in version slot `v`, in ascending order. -/
def Dev.liveIn (d : Dev) (v kind : Nat) (us : List Nat) : List Change :=
  let here (i live : Nat) : Bool := us.contains (i / unitObjects kind) && live.testBit v
  match kind with
  | 2 => (cellsWhere d.tables.flow fun i c => here i c.live).map fun c => .flowDel c.1 c.2
  | 3 => (cellsWhere d.tcam.entries fun i c => here i c.live).map fun c => .tcamDel c.1 c.2
  | 4 => (cellsWhere d.meter.bindings fun i c => here i c.live).map fun c => .bindDel c.1 c.2.data
  | 5 => (cellsWhere d.vers.actions fun i c => here i c.live).map fun c => .actionDel c.1 c.2.data
  | 6 => (cellsWhere d.rel.profiles fun i c => here i c.live).map fun c => .relDel c.1 c.2.data
  | 7 => (cellsWhere d.parse.patterns fun i c => here i c.live).map fun c => .patternDel c.1 c.2.data
  | _ => []

/-- A list in pieces of at most `n`; one empty piece of an empty list. -/
def pieces {α : Type} (n : Nat) : Nat → List α → List (List α)
  | 0, l => [l]
  | fuel + 1, l => if l.length ≤ n then [l] else l.take n :: pieces n fuel (l.drop n)

/-- The tenancies of a list of holders, in ascending order. -/
def oldTenancies (hs : List (Nat × Nat)) : List Nat := (List.range 16).filter fun t => hs.any fun h => h.2 = t

/-- The scrub commits of a reassignment (step 2 of R389), joined to the accepted commits: at least one for each old
tenancy, at most 16,383 change entries each. -/
def Dev.scrubCommits (d : Dev) (m : Reassign) : Dev :=
  (oldTenancies m.holders).foldl (fun d t =>
    let us := (m.holders.filter fun h => h.2 = t).map (·.1)
    let cs := d.liveIn d.current m.kind us
    (pieces 16383 (cs.length / 16383) cs).foldl (fun d p =>
      let c : Commit :=
        { id := d.vers.nextCommit, token := none, tenancy := t,
          changes := p.map fun x => { tenancy := t, change := x, units := [], entries := 1 },
          step := 2, deadline := none, scrub := some m.id }
      { d with vers := { d.vers with commits := d.vers.commits ++ [c], nextCommit := c.id + 1 } }) d) d

/-- R387: a staged change that names one of the units is stale from now on, whatever epochs come. -/
def Staged.spoil (kind : Nat) (us : List Nat) (s : Staged) : Staged :=
  let spoiled (u : Nat × Nat × Nat) : Nat × Nat × Nat :=
    if u.1 = kind && us.contains u.2.1 then (u.1, u.2.1, 65536) else u
  { s with units := s.units.map spoiled }

/-- R387 for every staged change, those of accepted commits too. -/
def Dev.spoilStaged (d : Dev) (kind : Nat) (us : List Nat) : Dev :=
  { d with vers := { d.vers with
      staged := d.vers.staged.map (Staged.spoil kind us),
      commits := d.vers.commits.map fun c => { c with changes := c.changes.map (Staged.spoil kind us) } } }

/-- A reassignment replaced in the list, or added to it. -/
def Dev.setMove (d : Dev) (m : Reassign) : Dev :=
  if d.ten.moves.any fun x => x.id = m.id then
    let put (x : Reassign) : Reassign := if x.id = m.id then m else x
    { d with ten := { d.ten with moves := d.ten.moves.map put } }
  else { d with ten := { d.ten with moves := d.ten.moves ++ [m] } }

/-- A unit given a tenancy with epoch 0, to be scrubbed. -/
def Dev.fenceUnit (d : Dev) (kind u : Nat) (t : Option Nat) : Dev :=
  let x : ResUnit := { tenancy := t, epoch := 0, scrubbing := true }
  { d with ten := { d.ten with units := d.ten.units.set (unitKey kind u) x } }

/-- The fence cycle (step 1 of R389): the sessions of a virtual function that moves close (R413), the units take
their tenancy with epoch 0, their staged changes are stale, and the scrub commits are listed. -/
def Dev.fenceUnits (d : Dev) (m : Reassign) : Dev :=
  let d := if m.kind = 14 then m.moving.foldl (fun d u => d.closeAll (u + 2) 3) d else d
  let keeps := m.kept.map fun u => (u, (d.unit m.kind u).tenancy)
  let d := m.moving.foldl (fun d u => d.fenceUnit m.kind u m.newTenancy) d
  let d := keeps.foldl (fun d x => d.fenceUnit m.kind x.1 x.2) d
  let d := d.spoilStaged m.kind (m.moving ++ m.kept)
  if m.holders.isEmpty then d.setMove { m with step := 5, fence := d.now }
  else (d.setMove { m with step := 2, fence := d.now }).scrubCommits m

/-- Whether a message's commit stands between its second staleness test and its commit cycle (R180). -/
def Dev.commitUnderWay (d : Dev) : Bool := d.vers.commits.any fun c => c.token.isSome && 3 ≤ c.step

/-- The fence cycle now, or after the commit cycle that it waits for. -/
def Dev.beginMove (d : Dev) (m : Reassign) : Dev :=
  if d.commitUnderWay then d.setMove { m with step := 1 } else d.fenceUnits m

/-- The fences that waited for a commit cycle. -/
def Dev.fenceWaiting (d : Dev) : Dev :=
  d.ten.moves.foldl (fun d m => if m.step = 1 then d.fenceUnits m else d) d

/-- The slots that a reassignment waits for when its last scrub commit takes its commit cycle (step 3 of R389). -/
def Dev.scrubCommitted (d : Dev) (move : Nat) (slots : List Nat) : Dev :=
  if d.vers.commits.any fun c => c.scrub == some move then d
  else
    let put (m : Reassign) : Reassign := if m.id = move then { m with step := 3, waitSlots := slots } else m
    { d with ten := { d.ten with moves := d.ten.moves.map put } }

/-- A slot that has become FREE: no reassignment waits for it any more. -/
def Dev.slotFreed (d : Dev) (v : Nat) : Dev :=
  let put (m : Reassign) : Reassign := { m with waitSlots := m.waitSlots.erase v }
  { d with ten := { d.ten with moves := d.ten.moves.map put } }

end Sys2Proof.Machine
end

