-- ==== Sys2Proof/Machine/Versions.lean ====
section
/-! DEFINITION. Rule versions and actions (07): stages 12 to 16, preparation, commits and the journal, and
the messages of versions and actions. -/

namespace Sys2Proof.Machine

/-! ### Stage 12 (R184, R185, R187) -/

/-- A tenancy's action settings. -/
def Dev.actTenancy (d : Dev) (t : Nat) : ActTenancyRec := d.vers.tenancies.get actTenancyReset t

/-- A descriptor of a drop with a reason; a drop has no target (Table 7-6). -/
def dropDesc (x : BitVec 256) (reason : Nat) : BitVec 256 := putAll x [(dDisp, 0), (dTarget, 0), (dReason, reason)]

/-- R185 lines 5 to 7: the action reference that the lookups give. -/
def lookupRef (d : Dev) (f : Frame) : Option Nat :=
  let a := d.actTenancy (fld f.ctx fTenancy)
  let flow := fld f.ctx fFlowRef
  let tcam := getBits f.ctx 53 24
  match flag f.ctx fFlowHit, f.ctx.getLsbD 95 with
  | true, true => some (if a.precedence = 1 then tcam else flow)
  | true, false => some flow
  | false, true => some tcam
  | false, false => if a.flags.testBit 0 then some a.missRef else none

/-- Whether a primitive is permitted on a later fragment (R187). -/
def fragPrimitive (p : Nat) : Bool :=
  let op := p / 2 ^ 20
  decide (op ≤ 7) || (9 ≤ op && op ≤ 11) || (op = 8 && bits p 17 3 ≤ 1)

/-- The record that a reference names, applied: the descriptor with its reference, disposition and drop
reason; `later` for a later fragment. -/
def Dev.applyRef (d : Dev) (fid : Nat) (f : Frame) (ref : Nat) (later : Bool) : Dev :=
  let t := fld f.ctx fTenancy
  let x := putAll f.desc [(dActionRef, ref)]
  match d.actionAt t (fld f.ctx fVersion) (ref % 65536) with
  | none => d.setFrame fid { f with desc := dropDesc x 3 }
  | some (a, r) =>
    if later && !((r.rewrite.takeWhile fun p => p / 2 ^ 20 != 0).all fragPrimitive) then
      d.setFrame fid { f with desc := dropDesc x 10 }
    else
      (d.inc .actionHits a 0).setFrame fid
        { f with appliedRec := true,
                 desc := putAll x [(dDisp, r.disposition),
                                   (dReason, if r.disposition = 0 then r.dropReason else 0)] }

/-- ACTION_SELECT. -/
def execActionSelect (fid : Nat) (s : State) : Host.Outcome State Fault Refusal :=
  running (fun d => d.stageRow fid .action .forward [12] fun f d =>
    let f := { f with appliedRec := false, members := [],
                      desc := putAll (0 : BitVec 256) [(dColour, fld f.ctx fColour)] }
    let st := fld f.ctx fFragState
    let r := d.parsePort f.port
    if f.note.ptpTrap then
      d.setFrame fid { f with desc := putAll f.desc [(dDisp, dispCopyOnly), (dCopy, 1)] }
    else if stopsMalformed d f then
      d.setFrame fid { f with desc := putAll (dropDesc f.desc 1) [(dCopy, b2n (r.malformedAction = 1))] }
    else if st = 4 then
      d.setFrame fid { f with desc := putAll (dropDesc f.desc 9) [(dCopy, b2n (r.orphanAction = 1))] }
    else if st = 5 then d.setFrame fid { f with desc := putAll f.desc [(dDisp, dispRecirc)] }
    else if st = 3 then
      let why := f.stored / 2 ^ 30 % 64
      if f.stored / 2 ^ 61 = 0 && 1 ≤ why && why ≤ 3 then
        d.setFrame fid { f with desc := dropDesc f.desc why }
      else d.applyRef fid f (fld f.ctx fFlowRef) true
    else
      match lookupRef d f with
      | some ref => d.applyRef fid f ref false
      | none => d.setFrame fid { f with desc := dropDesc f.desc 2 }) s

/-! ### Stage 13 (R186, R265) -/

/-- The record that stage 12 applied to a packet. -/
def Dev.applied (d : Dev) (f : Frame) : Option ActionRec :=
  if f.appliedRec then
    (d.actionAt (fld f.ctx fTenancy) (fld f.ctx fVersion) (fld f.desc dActionRef % 65536)).map (·.2)
  else none

/-- The queue of PCP `n` in a tenancy's map. -/
def pcpQueue (m n : Nat) : Nat := bits m (4 * n) 4

/-- The queue that a record chooses (Table 7-5, queue_sel), before R265. -/
def selectedQueue (d : Dev) (f : Frame) (r : ActionRec) : Nat :=
  match r.queueSel with
  | 0 => r.queue
  | 1 => fld f.desc dActionRef / 65536 % 16
  | _ => pcpQueue (d.actTenancy (fld f.ctx fTenancy)).pcpMap (fld f.ctx fPcp)

/-- A forward to a port and queue, replaced by colour under R265 and checked against the queue ownership
map. -/
def Dev.forwardTo (d : Dev) (fid : Nat) (f : Frame) (port queue : Nat) : Dev :=
  let q := if flag f.ctx fColourQueue then fld f.ctx fQueueVal else queue
  let x := putAll f.desc [(dDisp, dispForward), (dTarget, port), (dQueue, q)]
  let held := d.holdsQueue (fld f.ctx fTenancy) port q
  d.setFrame fid { f with desc := if held then x else putAll (dropDesc f.desc 5) [(dQueue, q)] }

/-- Flood group `g` of a tenancy. -/
def Dev.floodGroup (d : Dev) (t g : Nat) : Option FloodGroupRec :=
  match d.absIndex t 9 64 g with
  | some a => d.vers.groups.get? a
  | none => none

/-- The members that a flood reaches: the group's ports but the ingress port and those on which the
tenancy does not hold the group's queue. -/
def floodMembers (d : Dev) (t ingress : Nat) (g : FloodGroupRec) : List Nat :=
  (onesOf 96 g.ports).filter fun p => p != ingress && d.holdsQueue t p g.queue

/-- A flood of group `g`. -/
def Dev.floodTo (d : Dev) (fid : Nat) (f : Frame) (g : Nat) : Dev :=
  let t := fld f.ctx fTenancy
  match d.floodGroup t g with
  | none => d.setFrame fid { f with desc := dropDesc f.desc 8 }
  | some r =>
    let ms := floodMembers d t f.port r
    if ms.isEmpty then d.setFrame fid { f with desc := dropDesc f.desc 8 }
    else d.setFrame fid { f with
      members := ms, desc := putAll f.desc [(dDisp, dispFlood), (dTarget, g), (dQueue, r.queue)] }

/-- The group bound to a bridge domain, tenancy-relative. -/
def Dev.boundGroup (d : Dev) (t bd : Nat) : Option Nat :=
  (List.range ((d.held t 9).length * 64)).find? fun g =>
    match d.floodGroup t g with
    | some r => decide (r.bdFirst ≤ bd) && decide (bd < r.bdFirst + r.bdCount)
    | none => false

/-- A bridge resolved. -/
def Dev.bridge (d : Dev) (fid : Nat) (f : Frame) : Dev :=
  let t := fld f.ctx fTenancy
  if flag f.ctx fDstHit && !pflag f.ctx 13 && !pflag f.ctx 14 then
    let p := fld f.ctx fDstPort
    if p = f.port then d.setFrame fid { f with desc := dropDesc f.desc 11 }
    else d.forwardTo fid f p (pcpQueue (d.actTenancy t).pcpMap (fld f.ctx fPcp))
  else
    match d.boundGroup t (fld f.ctx fBd) with
    | some g => d.floodTo fid f g
    | none => d.setFrame fid { f with desc := dropDesc f.desc 8 }

/-- A recirculation: on pass 3 a drop, else a place in the queue. -/
def Dev.recirculate (d : Dev) (fid : Nat) (f : Frame) : Dev :=
  if f.pass = 3 then d.setFrame fid { f with desc := dropDesc f.desc 6 }
  else
    match d.takePlace fid f with
    | some d => d.setFrame fid { f with place := true }
    | none => d.setFrame fid { f with desc := dropDesc f.desc 7 }

/-- FORWARD_RESOLVE. -/
def execForwardResolve (fid : Nat) (s : State) : Host.Outcome State Fault Refusal :=
  running (fun d => d.stageRow fid .forward .ttl [13] fun f d =>
    let disp := fld f.desc dDisp
    if disp = dispRecirc then d.recirculate fid f
    else if disp = dispBridge then d.bridge fid f
    else
      match d.applied f with
      | none => d
      | some r =>
        if disp = dispForward then d.forwardTo fid f r.port (selectedQueue d f r)
        else if disp = dispFlood then d.floodTo fid f r.floodGroup
        else d) s

/-! ### Stages 14 to 16 (R188, R190, R266) -/

/-- A copy to a tenancy's host receive ring. -/
def hostCopy (t len : Nat) : CopyJob := { target := .host t, tenancy := t, len := len, whole := false }

/-- The copy that a record asks for. -/
def recordCopy (t : Nat) (r : ActionRec) : CopyJob :=
  let target := if r.copyCollar && t = 0 then CopyTarget.collar r.collarQueue else .host t
  { target := target, tenancy := t, len := r.copyLen * 64, whole := false }

/-- A mirror for a session. -/
def mirrorJob (t k : Nat) : CopyJob := { target := .mirror t k, tenancy := t, len := 0, whole := false }

/-- The sessions that take port `p` as source in direction `bit'` (R193). -/
def Dev.sourceMirrors (d : Dev) (p bit' : Nat) : List CopyJob :=
  (d.vers.mirrors.cells.filter fun c =>
    c.2.data.target != 0 && c.2.data.sourcePort = p && c.2.data.sourceDir.testBit bit').map fun c =>
      mirrorJob (c.1 / 16) (c.1 % 16)

/-- The copies and mirrors of a packet whose decision is taken, with `expired` for TTL_EXPIRED. -/
def copiesOf (d : Dev) (f : Frame) (expired : Bool) : List CopyJob :=
  let t := fld f.ctx fTenancy
  let base : List CopyJob :=
    if f.note.ptpTrap then [{ target := .collar 0, tenancy := 0, len := 0, whole := true }]
    else
      match d.applied f with
      | some r =>
        (if r.copy || (expired && r.ttlCopy) then [recordCopy t r] else []) ++
          (if r.mirror then [mirrorJob t r.mirrorSession] else [])
      | none =>
        if flag f.desc dCopy then [hostCopy (if fld f.desc dReason = 1 then 0 else t) 0] else []
  base ++ (if f.pass = 0 && f.isLive then d.sourceMirrors f.port 0 else [])

/-- TTL_COPY_MIRROR. -/
def execTtlCopyMirror (fid : Nat) (s : State) : Host.Outcome State Fault Refusal :=
  running (fun d => d.stageRow fid .ttl .rewrite [14] fun f d =>
    match d.applied f with
    | none => d.setFrame fid { f with copies := f.copies ++ copiesOf d f false }
    | some r =>
      let live := fld f.desc dDisp != dispDrop
      let expired := live && (d.rewrite f r.rewrite).expired
      let f' := if expired then { f with desc := dropDesc f.desc 4 } else f
      let copy := r.copy || (expired && r.ttlCopy)
      let x := putAll f'.desc [(dCopy, b2n copy), (dMirror, b2n r.mirror),
                               (dMirrorSession, if r.mirror then r.mirrorSession else 0)]
      let d := if expired && f.place then d.leavePlace fid f else d
      let f' := if expired then { f' with place := false } else f'
      d.setFrame fid { f' with desc := x, copies := f.copies ++ copiesOf d f expired }) s

/-- The remarks that R266 appends: SET_DSCP, then SET_VLAN in mode 1. -/
def remarks (c : BitVec 512) : List Nat :=
  (if flag c fDscpRemark then [9 * 2 ^ 20 + fld c fDscp] else []) ++
  (if flag c fPcpRemark then [3 * 2 ^ 20 + 1 * 2 ^ 18 + fld c fPcpVal * 2 ^ 15] else [])

/-- REWRITE_COMPILE (stages 15 and 16). -/
def execRewriteCompile (fid : Nat) (s : State) : Host.Outcome State Fault Refusal :=
  running (fun d => d.stageRow fid .rewrite .release [15, 16] fun f d =>
    let own := match d.applied f with
      | some r => (r.rewrite.takeWhile fun p => p / 2 ^ 20 != 0).take 8
      | none => []
    let more := remarks f.ctx
    let room := 8 - own.length
    let d := d.bump .remarkSkipped (f.sleeve * 16 + fld f.ctx fTenancy) 0 (more.length - room)
    let prog := own ++ more.take room
    d.setFrame fid { f with desc := putAll f.desc [(dProgram, packProgram prog)] }) s

/-! ### Version slots (R172 to R178) -/

/-- SLOT_DRAIN_COMPLETE (R175). -/
def execSlotDrainComplete (slot : Nat) (s : State) : Host.Outcome State Fault Refusal :=
  running (fun d =>
    let v := d.vslot slot
    if v.state = .draining && (List.range 7).all (fun k => d.inflight slot k = 0) then
      (d.setVslot slot { v with state := .free }).slotFreed slot
    else d) s

/-- A live mask with slot `v`'s bit equal to slot `c`'s (R178). -/
def prepareMask (c v live : Nat) : Nat :=
  let m := clearBit live v
  if live.testBit c then setBit m v else m

/-- The tables with every object's mask changed by `m`, objects with a zero mask freed. -/
def Dev.mapLive (d : Dev) (m : Nat → Nat) : Dev :=
  let flow := (d.tables.flow.map fun _ e => { e with live := m e.live }).filter fun _ e => e.live != 0
  let tcam := (d.tcam.entries.map fun _ e => { e with live := m e.live }).filter fun _ e => e.live != 0
  let pats := (d.parse.patterns.map fun _ e => { e with live := m e.live }).filter fun _ e => e.live != 0
  let acts := (d.vers.actions.map fun _ e => { e with live := m e.live }).filter fun _ e => e.live != 0
  let binds := (d.meter.bindings.map fun _ e => { e with live := m e.live }).filter fun _ e => e.live != 0
  let rels := (d.rel.profiles.map fun _ e => { e with live := m e.live }).filter fun _ e => e.live != 0
  { d with
    tables := { d.tables with flow := flow }
    tcam := { d.tcam with entries := tcam }
    parse := { d.parse with patterns := pats }
    vers := { d.vers with actions := acts }
    meter := { d.meter with bindings := binds }
    rel := { d.rel with profiles := rels } }

/-- PREPARATION_START (R178): the lowest FREE slot, when none is PREPARING or PREPARED. -/
def execPreparationStart (s : State) : Host.Outcome State Fault Refusal :=
  running (fun d =>
    let busy := (List.range 4).any fun v => (d.vslot v).state = .preparing || (d.vslot v).state = .prepared
    match (List.range 4).find? fun v => (d.vslot v).state = .free with
    | some v =>
      if busy then d
      else
        let d := d.setVslot v { d.vslot v with state := .preparing }
        (List.range 7).foldl (fun d k =>
          let x := d.sleeve k
          d.setSleeve k { x with updates := x.updates ++ (List.range 16).map Bubble.rowMask }) d
    | none => d) s

/-- PREPARATION_COMPLETE: the slot equals the current version, and PREPARE_DONE goes to the tenancies whose
commits wait, the scrub commits made for them among these (R389). -/
def execPreparationComplete (s : State) : Host.Outcome State Fault Refusal :=
  running (fun d =>
    match (List.range 4).find? fun v => (d.vslot v).state = .preparing with
    | none => d
    | some v =>
      let d := (d.mapLive (prepareMask d.current v)).setVslot v { d.vslot v with state := .prepared }
      let waiting := (List.range 16).filter fun t =>
        d.vers.commits.any fun c => c.step = 2 && c.tenancy = t
      if waiting.isEmpty then d else d.raise 0x0703 (waiting.map Aud.tenancy) [v]) s

/-! ### Commits (R179 to R182) -/

/-- Whether a staged change is stale: a unit it names has another epoch than when it was staged. -/
def Dev.isStale (d : Dev) (s : Staged) : Bool := s.units.any fun u => (d.unit u.1 u.2.1).epoch != u.2.2

/-- The staged set with the changes of a commit returned, less the stale ones (R180). -/
def Dev.unstage (d : Dev) (cs : List Staged) : Dev :=
  { d with vers := { d.vers with staged := cs.filter (fun s => !d.isStale s) ++ d.vers.staged } }

/-- A commit that leaves the list of accepted commits. -/
def Dev.dropCommit (d : Dev) (id : Nat) : Dev :=
  { d with vers := { d.vers with commits := d.vers.commits.filter fun c => c.id != id } }

/-- A commit replaced. -/
def Dev.setCommit (d : Dev) (c : Commit) : Dev :=
  let cs := d.vers.commits.map fun x => if x.id = c.id then c else x
  { d with vers := { d.vers with commits := cs } }

/-- A commit's message completed, if it has one. -/
def Dev.answer (d : Dev) (tok : Option Token) (st : Status) (size : Nat) (body : List Nat) : Dev :=
  match tok with
  | some t => d.finish t st size body
  | none => d

/-- A commit that ends without effect: its changes return to the staged set. -/
def Dev.failCommit (d : Dev) (c : Commit) (st : Status) : Dev :=
  (((d.dropCommit c.id).unstage c.changes).answer c.token st 0 [])

/-- COMMIT_SLOT_READY (steps 2 and 3 of R179): the commit in front, if a message asked for it, finds a PREPARED slot and
passes the second staleness test, and its journal record is written. -/
def execCommitSlotReady (s : State) : Host.Outcome State Fault Refusal :=
  running (fun d =>
    match d.vers.commits with
    | c :: _ =>
      if c.step != 2 || c.scrub.isSome || d.preparedSlot.isNone then d
      else if c.changes.any d.isStale then d.failCommit c .staleEpoch
      else (d.setCommit { c with step := 3 }).requestJournal ((d.vslot d.current).epoch + 1)
        ((c.changes.map (·.entries)).sum)
    | [] => d) s

/-- COMMIT_DEADLINE (R179 step 2). -/
def execCommitDeadline (commit : Nat) (s : State) : Host.Outcome State Fault Refusal :=
  running (fun d =>
    match d.vers.commits.find? fun c => c.id = commit with
    | some c =>
      match c.deadline with
      | some t => if c.step = 2 && t ≤ d.now then (d.inc .versionBusy c.tenancy 0).failCommit c .versionBusy else d
      | none => d
    | none => d) s

/-- The flow table with an entry over whatever stood at its index, its hit bits clear. -/
def Dev.putFlow (d : Dev) (i : Nat) (e : FlowEntry) : Dev :=
  { d with tables := { d.tables with
      flow := d.tables.flow.set i e,
      flowHits := d.tables.flowHits.filter (fun k => k % 2 ^ 19 != i),
      flowBad := d.tables.flowBad.filter fun k => k % 2 ^ 19 != i } }

/-- R263: a binding's meter state full in every Sleeve, its counters zero. -/
def Dev.freshMeter (d : Dev) (a : Nat) (r : MeterBindRec) : Dev :=
  (List.range 7).foldl (fun d s => d.setMeterCell s a (fullCell r (d.sleeveCycles s)))
    (d.zeroCtrs fun k => isColourCtr k.ctr && k.a = a)

/-- A TCAM write in every Sleeve's update queue. -/
def Dev.queueWrite (d : Dev) (i : Nat) : Dev :=
  (List.range 7).foldl (fun d k =>
    let x := d.sleeve k
    d.setSleeve k { x with updates := x.updates ++ [Bubble.write i] }) d

/-- One change of tenancy `t` written into slot `v` (step 4 of R179). Profiles take effect in the commit
cycle. -/
def Dev.writeChange (d : Dev) (t v : Nat) : Change → Dev
  | .flowAdd i e _ _ =>
    d.putFlow i { e with live := 2 ^ v, insertEpoch := ((d.vslot d.current).epoch + 1) % 16384,
                         serial := d.tables.serial + 1 }
  | .flowDel i _ =>
    match d.tables.flow.get? i with
    | some e => { d with tables := { d.tables with flow := d.tables.flow.set i { e with live := clearBit e.live v } } }
    | none => d
  | .flowProfile _ _ _ => d
  | .tcamAdd i r =>
    let e : TcamEntry := { data := r, tenancy := t, paired := d.isPaired i, live := 2 ^ v }
    { d with tcam := { d.tcam with entries := d.tcam.entries.set i e } }.queueWrite i
  | .tcamDel i _ =>
    match d.tcam.entries.get? i with
    | some e =>
      { d with tcam := { d.tcam with entries := d.tcam.entries.set i { e with live := clearBit e.live v } } }.queueWrite i
    | none => d
  | .tcamProfile _ _ _ => d
  | .patternAdd i r => { d with parse := { d.parse with patterns := d.parse.patterns.set i { data := r, live := 2 ^ v } } }
  | .patternDel i _ =>
    match d.parse.patterns.get? i with
    | some e => { d with parse := { d.parse with patterns := d.parse.patterns.set i { e with live := clearBit e.live v } } }
    | none => d
  | .actionAdd i r => { d with vers := { d.vers with actions := d.vers.actions.set i { data := r, live := 2 ^ v } } }
  | .actionDel i _ =>
    match d.vers.actions.get? i with
    | some e => { d with vers := { d.vers with actions := d.vers.actions.set i { e with live := clearBit e.live v } } }
    | none => d
  | .bindAdd i r =>
    { d with meter := { d.meter with bindings := d.meter.bindings.set i { data := r, live := 2 ^ v } } }.freshMeter i r
  | .bindDel i _ =>
    match d.meter.bindings.get? i with
    | some e => { d with meter := { d.meter with bindings := d.meter.bindings.set i { e with live := clearBit e.live v } } }
    | none => d
  | .relAdd i r => { d with rel := { d.rel with profiles := d.rel.profiles.set i { data := r, live := 2 ^ v } } }
  | .relDel i _ =>
    match d.rel.profiles.get? i with
    | some e => { d with rel := { d.rel with profiles := d.rel.profiles.set i { e with live := clearBit e.live v } } }
    | none => d

/-- The changes of a commit in their order, evictions after every other change (R130). -/
def inOrder (cs : List Change) : List Change :=
  let evicts : Change → Bool
    | .flowAdd _ _ _ v => v.isSome
    | _ => false
  cs.filter (fun c => !evicts c) ++ cs.filter evicts

/-- A change as the journal records it: an eviction as a removal before its addition (R182). -/
def journalOf (d : Dev) : Change → List Change
  | .flowAdd i e ms (some v) =>
    (match d.tables.flow.get? v with
     | some x => [Change.flowDel v x]
     | none => []) ++ [.flowAdd i e ms none]
  | c => [c]

/-- The journal record of a commit into slot `v` (R181, R182), one of 64, and its changes in the slot (step 4 of
R179). -/
def Dev.writeCommit (d : Dev) (c : Commit) (v : Nat) (gap : Bool) : Dev :=
  let cs := inOrder (c.changes.map (·.change))
  let r : JournalRec :=
    { epoch := ((d.vslot d.current).epoch + 1) % 16384, slot := v, tenancy := c.tenancy,
      time := d.stamp, gap := gap, changes := cs.flatMap (journalOf d) }
  let d := { d with vers := { d.vers with journal := (d.vers.journal ++ [r]).drop (d.vers.journal.length - 63) } }
  let d := if gap then (d.inc .journalGaps 0 0).raise 0x0701 (.maint :: ownerAnd c.tenancy) [] else d
  cs.foldl (fun d x => d.writeChange c.tenancy v x) d

/-- JOURNAL_WRITE_DONE: the record joins the journal, with a gap when its write failed. -/
def execJournalWriteDone (ok : Bool) (s : State) : Host.Outcome State Fault Refusal :=
  running (fun d =>
    match d.vers.commits, d.preparedSlot with
    | c :: _, some v =>
      if c.step != 3 then d
      else ((d.dropReqs fun u => u.rank = 0).writeCommit c v (!ok)).setCommit { c with step := 4 }
    | _, _ => d) s

/-- The profiles of a commit taken into force. -/
def Dev.setProfiles (d : Dev) (cs : List Change) : Dev :=
  cs.foldl (fun d c => match c with
    | .flowProfile k r _ => { d with tables := { d.tables with profiles := d.tables.profiles.set k r } }
    | .tcamProfile k r _ => { d with tcam := { d.tcam with profiles := d.tcam.profiles.set k r } }
    | _ => d) d

/-- The newest journal record with the network time of its commit cycle. -/
def stampLast (t : Stamp) (j : List JournalRec) : List JournalRec :=
  match j.reverse with
  | r :: rs => ({ r with time := t } :: rs).reverse
  | [] => []

/-- The commit cycle (step 5 of R179): slot `v` becomes CURRENT with the next epoch, the former CURRENT slot
DRAINING. -/
def Dev.commitCycle (d : Dev) (c : Commit) (v : Nat) : Dev :=
  let old := d.current
  let e := ((d.vslot old).epoch + 1) % 16384
  let d := (d.setVslot old { d.vslot old with state := .draining }).setVslot v { state := .current, epoch := e }
  let d := (d.setProfiles (c.changes.map (·.change))).dropCommit c.id
  let d := { d with
    tables := { d.tables with serial := d.tables.serial + 1 }
    vers := { d.vers with journal := stampLast d.stamp d.vers.journal } }
  d.inc .commits c.tenancy 0

/-- COMMIT_CYCLE (steps 5 and 6 of R179): the message completes, and fences that waited follow (step 1 of R389). -/
def execCommitCycle (s : State) : Host.Outcome State Fault Refusal :=
  running (fun d =>
    match d.vers.commits, d.preparedSlot with
    | c :: _, some v =>
      if c.step != 4 then d
      else
        let d := d.commitCycle c v
        let n := (c.changes.map (·.entries)).sum
        (d.answer c.token .ok 24 [v, (d.vslot v).epoch, n, d.stamp.sec, d.stamp.ns, d.stamp.gen]).fenceWaiting
    | _, _ => d) s

/-- TBL_COMMIT (R179, R183); during an ejection BAD_STATE (R496). -/
def execTblCommit (h : Hdr) (deadlineMs : Nat) (s : State) : Host.Outcome State Fault Refusal :=
  runMessage { code := 0x0701, lenOk := exactly 4, maxBody := 24, canAsync := true, early := false } h
    (fun who d =>
      let mine := d.vers.staged.filter fun s => s.tenancy = who.tenancy
      let others := d.vers.staged.filter fun s => s.tenancy != who.tenancy
      if d.ejecting then (.say .badState, d)
      else if deadlineMs = 0 || 10000 < deadlineMs then (.say .badField, d)
      else if mine.any d.isStale then
        (.say .staleEpoch, { d with vers := { d.vers with staged := mine.filter (fun s => !d.isStale s) ++ others } })
      else if mine.isEmpty then
        (.done .ok 24 [d.current, (d.vslot d.current).epoch, 0, d.stamp.sec, d.stamp.ns, d.stamp.gen], d)
      else
        let c : Commit := { id := d.vers.nextCommit, token := some who.tok, tenancy := who.tenancy, changes := mine,
                            step := 2, deadline := some (d.now + deadlineMs * cyclesPerMs), scrub := none }
        (.wait, { d with vers := { d.vers with
                    staged := others, commits := d.vers.commits ++ [c], nextCommit := c.id + 1 } })) s

/-- TBL_ABORT (R180). -/
def execTblAbort (h : Hdr) (s : State) : Host.Outcome State Fault Refusal :=
  runMessage { code := 0x0702, lenOk := exactly 0, maxBody := 0 } h (fun who d =>
    (.say .ok, { d with vers := { d.vers with
        staged := d.vers.staged.filter fun s => s.tenancy != who.tenancy } })) s

/-- The code of a slot state in VERSION_STATUS_GET, in the order of Table 7-2. -/
def SlotState.code : SlotState → Nat
  | .free => 0
  | .preparing => 1
  | .prepared => 2
  | .current => 3
  | .draining => 4

/-- VERSION_STATUS_GET (R183). -/
def execVersionStatusGet (h : Hdr) (s : State) : Host.Outcome State Fault Refusal :=
  runMessage { code := 0x0703, lenOk := exactly 0, maxBody := 256, changes := false } h (fun who d =>
    let slots := (List.range 4).flatMap fun v =>
      [(d.vslot v).state.code, (d.vslot v).epoch, ((List.range 7).map fun k => d.inflight v k).sum]
    let all := if who.isOwner then (List.range 16).map d.stagedCount else []
    (.list (slots ++ [d.stagedCount who.tenancy] ++ all), d)) s

/-! ### Settings that are not versioned (R171, R192 to R194) -/

/-- Whether the unit of a kind has another epoch than the sender expects. -/
def otherEpoch (who : Sender) (d : Dev) (kind : Nat) (u : Option Nat) : Bool :=
  match u with
  | some u => who.stale (d.unit kind u).epoch
  | none => false

/-- What ACT_TENANCY_SET checks. -/
def actTenancyChecks (who : Sender) (d : Dev) (r : ActTenancyRec) : List (Bool × Status) :=
  let b := d.block who.tenancy 5 (r.missRef % 65536 / 4096)
  let valid := r.flags.testBit 0
  [(who.isMaint, .notPermitted), (valid && otherEpoch who d 5 b, .staleEpoch),
   (1 < r.precedence || r.missRef / 2 ^ 24 != 0 || 2 ^ 32 ≤ r.pcpMap || (valid && b.isNone), .badField)]

/-- ACT_TENANCY_SET. -/
def execActTenancySet (h : Hdr) (r : ActTenancyRec) (s : State) : Host.Outcome State Fault Refusal :=
  runMessage { code := 0x0704, lenOk := exactly 12, maxBody := 0 } h (fun who d =>
    setting (actTenancyChecks who d r) d fun d =>
      { d with vers := { d.vers with tenancies := d.vers.tenancies.set who.tenancy r } }) s

/-- Whether two ranges of bridge domains overlap; an empty one overlaps none. -/
def bdOverlap (a b : FloodGroupRec) : Bool :=
  a.bdCount != 0 && b.bdCount != 0 && decide (a.bdFirst < b.bdFirst + b.bdCount) &&
    decide (b.bdFirst < a.bdFirst + a.bdCount)

/-- What FLOOD_GROUP_SET checks. -/
def floodGroupChecks (who : Sender) (d : Dev) (r : FloodGroupRec) : List (Bool × Status) :=
  let t := who.tenancy
  let b := d.block t 9 (r.group / 64)
  let overlaps := (List.range ((d.held t 9).length * 64)).any fun g => g != r.group &&
    (match d.floodGroup t g with
     | some x => bdOverlap r x
     | none => false)
  [(b.isNone, .notPermitted), (otherEpoch who d 9 b, .staleEpoch),
   (15 < r.queue || 2 ^ 96 ≤ r.ports || 4095 < r.bdFirst || 4096 < r.bdFirst + r.bdCount, .badField),
   (overlaps, .badState)]

/-- FLOOD_GROUP_SET. -/
def execFloodGroupSet (h : Hdr) (r : FloodGroupRec) (s : State) : Host.Outcome State Fault Refusal :=
  runMessage { code := 0x0705, lenOk := exactly 20, maxBody := 0 } h (fun who d =>
    setting (floodGroupChecks who d r) d fun d =>
      match d.absIndex who.tenancy 9 64 r.group with
      | some a => { d with vers := { d.vers with groups := d.vers.groups.set a r } }
      | none => d) s

/-- A tenancy's copy limits. -/
def Dev.copyLimit (d : Dev) (t : Nat) : CopyLimitRec := d.vers.limits.get (copyLimitReset t) t

/-- The rates of a tenancy's other sessions in use. -/
def Dev.otherRates (d : Dev) (t k : Nat) : Nat :=
  ((d.vers.mirrors.cells.filter fun c => c.1 / 16 = t && c.1 % 16 != k && c.2.data.target != 0).map
    fun c => c.2.data.rateMbps).sum

/-- What MIRROR_SESSION_SET checks (R193, R194). -/
def mirrorSessionChecks (who : Sender) (d : Dev) (r : MirrorSessionRec) : List (Bool × Status) :=
  let t := who.tenancy
  let toPort := r.target = 1
  let fromPort := r.sourcePort != 255
  [(who.isMaint || (d.copyLimit t).sessions ≤ r.session ||
      (toPort && r.port ≤ 95 && !d.holdsQueue t r.port r.queue) ||
      (fromPort && !who.isOwner && r.sourcePort ≤ 95 && d.wholly r.sourcePort != some t), .notPermitted),
   ((toPort && otherEpoch who d 1 (some (qKey r.port r.queue))) ||
      (fromPort && !who.isOwner && who.stale (d.portMap r.sourcePort).epoch), .staleEpoch),
   (2 < r.target || (toPort && (95 < r.port || 15 < r.queue)) || (fromPort && 95 < r.sourcePort) ||
      144 < r.trunc || r.rateMbps = 0 || 100000 < r.rateMbps || r.burst < 1518 ||
      1048576 < r.burst, .badField),
   (r.target != 0 && (d.copyLimit t).mirrorMaxMbps < d.otherRates t r.session + r.rateMbps, .noSpace)]

/-- MIRROR_SESSION_SET: the session with its limiter full (R192). -/
def execMirrorSessionSet (h : Hdr) (r : MirrorSessionRec) (s : State) : Host.Outcome State Fault Refusal :=
  runMessage { code := 0x0706, lenOk := exactly 16, maxBody := 0 } h (fun who d =>
    setting (mirrorSessionChecks who d r) d fun d =>
      let m : Mirror := { data := r, tokens := { level := r.burst * byteUnits, at' := d.now } }
      { d with vers := { d.vers with mirrors := d.vers.mirrors.set (who.tenancy * 16 + r.session) m } }) s

/-- What COPY_LIMIT_SET checks. -/
def copyLimitChecks (who : Sender) (r : CopyLimitRec) : List (Bool × Status) :=
  [(!who.isOwner, .notPermitted),
   (15 < r.tenancy || 16 < r.sessions || r.burst = 0 || 4096 < r.burst || 1000000 < r.ratePps ||
      100000 < r.mirrorMaxMbps, .badField)]

/-- COPY_LIMIT_SET: the limits, with the limiter full (R192). -/
def execCopyLimitSet (h : Hdr) (r : CopyLimitRec) (s : State) : Host.Outcome State Fault Refusal :=
  runMessage { code := 0x0707, lenOk := exactly 12, maxBody := 0 } h (fun who d =>
    setting (copyLimitChecks who r) d fun d =>
      { d with vers := { d.vers with
          limits := d.vers.limits.set r.tenancy r,
          copyTokens := d.vers.copyTokens.set r.tenancy { level := r.burst * 2 ^ 32, at' := d.now } } }) s

/-! ### Action records (R195, R196) -/

/-- Whether a change adds action record `i`. -/
def addsAction (i : Nat) : Change → Bool
  | .actionAdd j _ => i = j
  | _ => false

/-- Whether a primitive has a reserved encoding, or names a template beyond the held blocks. -/
def badPrimitive (d : Dev) (t p : Nat) : Bool :=
  let x := p % 2 ^ 20
  match p / 2 ^ 20 with
  | 2 => bits x 18 2 = 3
  | 3 => bits x 18 2 = 3
  | 8 => bits x 17 3 = 7
  | 10 => (d.absIndex t 8 128 (bits x 0 11)).isNone
  | 11 => (d.absIndex t 8 128 (bits x 0 11)).isNone
  | op => decide (13 ≤ op)

/-- Whether a forward target is held as R195 asks. -/
def targetHeld (d : Dev) (t : Nat) (r : ActionRec) : Bool :=
  if r.queueSel = 0 then d.holdsQueue t r.port r.queue
  else (List.range 16).any fun q => d.holdsQueue t r.port q

/-- Step 3 of R195. -/
def actionBad (d : Dev) (t : Nat) (r : ActionRec) : Bool :=
  decide (5 < r.disposition) || decide (127 < r.port) || decide (15 < r.queue) || decide (2 < r.queueSel) ||
    decide (1023 < r.floodGroup) || decide (7 < r.collarQueue) || decide (144 < r.copyLen) ||
    decide (15 < r.mirrorSession) || decide (63 < r.dropReason) || r.rewrite.length != 8 ||
    r.rewrite.any (2 ^ 24 ≤ ·) || (r.copyCollar && t != 0) ||
    (r.disposition = 2 && (d.absIndex t 9 64 r.floodGroup).isNone) ||
    (r.mirror && decide ((d.copyLimit t).sessions ≤ r.mirrorSession)) ||
    r.rewrite.any (badPrimitive d t) ||
    (r.disposition = 1 && (decide (95 < r.port) || !targetHeld d t r)) ||
    (r.disposition = 0 && decide (r.dropReason < 32))

/-- The absolute index of an action record; 2^16 where it is not held. -/
def Dev.actionAbs (d : Dev) (t i : Nat) : Nat := (d.absIndex t 5 4096 i).getD 65536

/-- R195: what ACTION_SET checks. -/
def actionSetChecks (who : Sender) (d : Dev) (r : ActionRec) : List (Bool × Status) :=
  let b := d.block who.tenancy 5 (r.index / 4096)
  let a := d.actionAbs who.tenancy r.index
  [(b.isNone, .notPermitted), (otherEpoch who d 5 b, .staleEpoch), (actionBad d who.tenancy r, .badField),
   ((d.vers.actions.get? a).isSome || d.stagedAdd (addsAction a), .slotBusy),
   (!d.canStage who.tenancy 1, .noSpace)]

/-- ACTION_SET. -/
def execActionSet (h : Hdr) (r : ActionRec) (s : State) : Host.Outcome State Fault Refusal :=
  runMessage { code := 0x0708, lenOk := exactly 36, maxBody := 0 } h (fun who d =>
    setting (actionSetChecks who d r) d fun d =>
      let a := d.actionAbs who.tenancy r.index
      d.stage who.tenancy (.actionAdd a r) [(5, a / 4096)] 1) s

/-- R195: what ACTION_CLEAR checks. -/
def actionClearChecks (who : Sender) (d : Dev) (i : Nat) : List (Bool × Status) :=
  let b := d.block who.tenancy 5 (i / 4096)
  [(b.isNone, .notPermitted), (otherEpoch who d 5 b, .staleEpoch),
   ((d.actionAt who.tenancy d.current i).isNone, .badState), (!d.canStage who.tenancy 1, .noSpace)]

/-- ACTION_CLEAR. -/
def execActionClear (h : Hdr) (index : Nat) (s : State) : Host.Outcome State Fault Refusal :=
  runMessage { code := 0x0709, lenOk := exactly 2, maxBody := 0 } h (fun who d =>
    setting (actionClearChecks who d index) d fun d =>
      match d.actionAt who.tenancy d.current index with
      | some (a, r) => d.stage who.tenancy (.actionDel a r) [(5, a / 4096)] 1
      | none => d) s

/-- The per-tenancy aggregates of Table 7-10. -/
def actionAggregates (d : Dev) (t : Nat) : List Nat :=
  let total (c : Ctr) : Nat := d.sumCtr c ((List.range 7).map fun s => s * 16 + t) 0
  let drops := (List.range 64).map fun r => d.sumCtr .drops ((List.range 7).map fun s => s * 16 + t) r
  drops ++ [d.ctr .copiesSent t 0, d.ctr .copyRateDrop t 0, d.ctr .copyQueueDrop t 0,
    d.ctr .mirrorQueueDrop t 0, total .floodReplicas, total .recircPasses, d.ctr .commits t 0,
    d.ctr .versionBusy t 0]

/-- The counters that only their tenancy reads: its records' hits, its sessions, and the primitives
skipped per egress port. -/
def actionOwn (d : Dev) (t : Nat) : List Nat :=
  let hits := (d.vers.actions.cells.filter fun c => d.holds t 5 (c.1 / 4096)).flatMap fun c =>
    [c.1, d.ctr .actionHits c.1 0]
  let sessions := (List.range 16).flatMap fun k =>
    [d.ctr .mirrorsSent (t * 16 + k) 0, d.ctr .mirrorRateDrop (t * 16 + k) 0]
  let skipped := (List.range 96).map fun p => d.ctr .rewriteSkipped p t
  hits ++ sessions ++ skipped

/-- ACT_STATS_GET (R196). -/
def execActStatsGet (h : Hdr) (s : State) : Host.Outcome State Fault Refusal :=
  runMessage { code := 0x070A, lenOk := exactly 0, maxBody := 2048, changes := false } h (fun who d =>
    (.list (match who.role with
      | .owner => (List.range 16).flatMap (actionAggregates d) ++ actionOwn d 0
      | .tenant => actionAggregates d who.tenancy ++ actionOwn d who.tenancy
      | .maint => [d.ctr .journalGaps 0 0] ++ (List.range 16).map fun t => d.ctr .versionBusy t 0), d)) s

/-- What TEMPLATE_SET checks (R432, R194). -/
def templateChecks (who : Sender) (d : Dev) (r : TemplateRec) : List (Bool × Status) :=
  let b := d.block who.tenancy 8 (r.index / 128)
  [(b.isNone, .notPermitted), (otherEpoch who d 8 b, .staleEpoch),
   (64 < r.len || r.bytes.length != 64 || r.bytes.any (255 < ·), .badField)]

/-- TEMPLATE_SET. -/
def execTemplateSet (h : Hdr) (r : TemplateRec) (s : State) : Host.Outcome State Fault Refusal :=
  runMessage { code := 0x070B, lenOk := exactly 68, maxBody := 0 } h (fun who d =>
    setting (templateChecks who d r) d fun d =>
      match d.absIndex who.tenancy 8 128 r.index with
      | some a => { d with vers := { d.vers with templates := d.vers.templates.set a r } }
      | none => d) s

end Sys2Proof.Machine
end

