-- ==== Sys2Proof/Machine/Dram.lean ====
section
/-! DEFINITION. The DRAM controller's commands (14). -/

namespace Sys2Proof.Machine

/-! ### End of margin (R465) -/

/-- A unit of Table 19-2 at end of margin, for a cause (1 speed margin, 2 SRAM voltage, 3 a re-planning
limit) and with a recommendation: the event is raised once, and again only after 24 h out of that state. -/
def Dev.endOfMargin (d : Dev) (kind unit cause rec' : Nat) : Dev :=
  let k := kind * 4096 + unit
  let fresh := match d.gus.eom.get? k with
    | none => true
    | some u => !u.at' && (match u.outSince with
        | some t => decide (t + 86400 * cyclesPerS ≤ d.now)
        | none => false)
  let d := { d with gus := { d.gus with eom := d.gus.eom.set k { at' := true, outSince := none } } }
  if fresh then d.raise 0x1301 ownerMaint [kind, unit, cause, rec'] else d

/-- A unit that is not at end of margin now. -/
def Dev.withinMargin (d : Dev) (kind unit : Nat) : Dev :=
  let k := kind * 4096 + unit
  match d.gus.eom.get? k with
  | some u =>
    if u.at' then { d with gus := { d.gus with eom := d.gus.eom.set k { at' := false, outSince := some d.now } } } else d
  | none => d

/-! ### Fencing (R352 to R354) -/

/-- Which striped units a fence loses: those of a logical channel, and of these, where a migration had begun, those
whose copy had not landed, which no rule numbers (R353). -/
def lostUnit (l : Nat) (copying : Option Nat) (u : Nat) : Bool :=
  unitChannel u = l &&
    (match copying with
     | some n => Config.freeUncopied n u
     | none => true)

/-- Whether a spilled queue entry has a unit that is lost. -/
def QEntry.loses (e : QEntry) (lost : Nat → Bool) : Bool := e.spill = 2 && e.units.any lost

/-- R249: the spilled frames with a lost unit are lost; SPILL_LOST tells the owner and maintenance the number, each
other tenancy its own. -/
def Dev.loseSpilled (d : Dev) (gone : Nat → Bool) : Dev :=
  let lost := d.yoke.queues.cells.flatMap fun c =>
    (c.2.filter fun e => e.loses gone).map fun _ => ((d.unit 1 c.1).tenancy).getD 0
  let mark (_ : Nat) (es : List QEntry) : List QEntry :=
    es.map fun e => if e.loses gone then { e with spill := 3 } else e
  let d := { d with yoke := { d.yoke with queues := d.yoke.queues.map mark } }
  let d := d.yoke.queues.cells.foldl (fun d c => d.trimQueue (c.1 / 16) (c.1 % 16)) d
  if lost.isEmpty then d
  else
    let d := d.raise 0x0906 ownerMaint [lost.length]
    ((List.range 15).map (· + 1)).foldl (fun d t =>
      let n := (lost.filter (· == t)).length
      if n = 0 then d else d.raise 0x0906 [.tenancy t] [n]) d

/-- A loss of `n` records of Sleeve `s` of the capture of tenancy `t` for a cause (Table 15-3), counted, with REC_LOSS at
the first after 1 s without one (R376). -/
def Dev.loseRecords (d : Dev) (t s n cause : Nat) : Dev :=
  match d.lining.captures.get? t with
  | none => d
  | some c =>
    let ctr : Ctr := match cause with
      | 1 => .recLostRate
      | 2 => .recLostRing
      | 3 => .recLostYoke
      | 4 => .recLostDram
      | _ => .recOverwritten
    let d := d.setCapture t { c with lost := c.lost + n, lostCause := cause, lostSleeve := s }
    (d.bump ctr t 0 n).raiseFirst 0x0F04 t 0 [.tenancy t] []

/-- The striped unit in which record `i` of the capture of tenancy `t` lies: the store follows the deep
buffer, its quotas in the order of the tenancies, and a capture's record area its snapshot areas. -/
def Dev.recordUnit (d : Dev) (t i : Nat) : Nat :=
  let before := ((List.range t).map fun u => d.lining.quotas.get 0 u).sum
  let mask := match d.lining.captures.get? t with
    | some c => c.data.sleeveMask
    | none => 0
  let snap := 24576 * popCount 7 mask
  let area := d.lining.quotas.get 0 t * 4096 - snap
  (d.yoke.regionMib + before) * 4096 + snap + i % area

/-- A fence loses the records of the Lining in lost units, and each capture affected says so. -/
def Dev.loseStored (d : Dev) (lost : Nat → Bool) : Dev :=
  (List.range 16).foldl (fun d t =>
    match d.lining.captures.get? t with
    | none => d
    | some c =>
      let gone := (c.records.take c.ready).filter fun r => lost (d.recordUnit t r.1)
      match gone with
      | [] => d
      | g :: _ =>
        let keep := c.records.filter fun r => !gone.any fun g => g.1 = r.1
        (d.setCapture t { c with records := keep, ready := c.ready - gone.length }).loseRecords t g.2.sleeve gone.length 4) d

/-- The lowest-numbered active logical channel that holds no journal copy. -/
def Dev.freeJournal (d : Dev) : Option Nat :=
  (List.range 5).find? fun l => (d.physical l).isSome && !d.dram.journals.contains l

/-- R354: logical channel `l` becomes absent; a journal copy on it moves. -/
def Dev.becomeAbsent (d : Dev) (l : Nat) : Dev :=
  let d := { d with dram := { d.dram with absent := d.dram.absent ++ [l] } }
  let d := if d.dram.journals.contains l then
      match d.freeJournal with
      | some j =>
        let js := d.dram.journals.map fun x => if x = l then j else x
        { d with dram := { d.dram with journals := js, recopy := some j } }
      | none => { d with dram := { d.dram with journals := d.dram.journals.filter (· != l) } }
    else d
  d.raise 0x0E03 ownerMaint []

/-- A channel that is fenced: out of its logical number, its requests failed, RESET_n low; the service
record is written (R491). -/
def Dev.shutChannel (d : Dev) (p : Nat) : Dev :=
  let c := d.chan p
  (d.setChan p { c with state := .fenced, logical := none, queue := [], waiting := [], reads := [],
                        banks := .none, srAt := none }).writeService

/-- A rate change without channel `p`; the end of the last change is reported (R350). -/
def Dev.rateWithout (d : Dev) (p : Nat) : Dev :=
  let left := d.dram.rateLeft.filter (· != p)
  let e := { d with dram := { d.dram with rateLeft := left } }
  if left.isEmpty && !d.dram.rateLeft.isEmpty then e.raise 0x0E07 ownerMaint [] else e

/-- R352 to R354: channel `p` is fenced for a cause: 1 a zero window, 2 uncorrectable bursts, 3 a mode
register that does not answer, 4 the owner's order. -/
def Dev.fence (d : Dev) (p cause : Nat) : Dev :=
  let c := d.chan p
  if c.state = .fenced then d
  else
    let d := (d.inc .fences p 0).raise 0x0E01 ownerMaint [cause]
    let d := d.shutChannel p
    let d := match d.dram.sweep with
      | some s =>
        if s.channel = p then { d with dram := { d.dram with sweep := none } }.answer s.token .timeout 0 [] else d
      | none => d
    let d := d.rateWithout p
    match d.dram.migration with
    | some m =>
      if m.dst = p then
        let d := { d with dram := { d.dram with migration := none } }
        (d.setChan m.src { d.chan m.src with state := .active }).answer m.token .badState 0 []
      else if m.src = p then
        let d := { d with dram := { d.dram with migration := none } }
        let d := d.setChan m.dst { d.chan m.dst with state := .active, logical := c.logical }
        let d := match c.logical with
          | some l =>
            let x := d.draw
            let gone := lostUnit l (some x.1)
            (x.2.loseSpilled gone).loseStored gone
          | none => d
        d.answer m.token .badState 0 []
      else d
    | none =>
      match c.logical with
      | none => d
      | some l =>
        let d := (d.loseSpilled (lostUnit l none)).loseStored (lostUnit l none)
        if d.spareChan.isSome then { d with dram := { d.dram with takeover := some (l, d.now) } }
        else d.becomeAbsent l

/-! ### Commands of the scheduler (R341, R344, R349) -/

/-- DRAM_COMMAND_ISSUE (R341): one channel cycle. The first chosen request whose next command timing
permits issues it; a spill write that finds no entry counts a cycle of back-pressure. -/
def execDramCommandIssue (channel : Nat) (s : State) : Host.Outcome State Fault Refusal :=
  running (fun d =>
    let c := d.chan channel
    if 6 ≤ channel || !(c.state == .active || c.state == .migrating) then d
    else
      let d := if c.waiting.any fun r => r.use.rank = 3 then d.inc .spillBackpressure channel 0 else d
      match (d.dramOrder c).find? fun r => d.permits channel r with
      | some r => d.issueCmd channel r
      | none => d) s

/-- What an uncorrectable burst does to those that read it (R355). -/
def Dev.uncorrectable (d : Dev) (u : DramUse) : Dev :=
  match u with
  | .returnRead fid =>
    match d.yoke.queues.cells.find? fun c => c.2.any fun e => e.fid = fid && e.spill = 0 with
    | some c =>
      let es := c.2.filter fun e => e.fid = fid
      let d := d.leaveQueue (c.1 / 16) (c.1 % 16) (c.2.filter fun e => e.fid != fid)
      es.foldl (fun d e => (d.discardEntry e).inc .spillLost c.1 0) d
    | none => d
  | .lining t i =>
    match d.lining.captures.get? t with
    | some c =>
      let rs := c.records.map fun r => if r.1 = i then (r.1, { r.2 with poisoned := true }) else r
      (d.setCapture t { c with records := rs }).loseRecords t ((c.records.lookup i).map (·.sleeve) |>.getD 0) 1 4
    | none => d
  | _ => d

/-- The read whose data returns next: the oldest issued, or the first that waits for its command. -/
def nextRead (c : DramChannel) : Option DramReq :=
  match c.reads with
  | (r, _) :: _ => some r
  | [] => c.queue.find? fun r => !r.write

/-- A channel without a read that has returned. -/
def readDone (c : DramChannel) : DramChannel :=
  match c.reads with
  | _ :: rs => { c with reads := rs }
  | [] =>
    match c.queue.find? fun r => !r.write with
    | some r => { c with queue := dropReq c.queue r }.letIn
    | none => c

/-- R355 and the fence of R352 for uncorrectable bursts above ue_fence in 1 s. -/
def Dev.countUe (d : Dev) (p : Nat) : Dev :=
  let c := d.chan p
  let times := d.now :: c.ueTimes.filter fun t => decide (d.now < t + cyclesPerS)
  let d := (d.setChan p { c with ueTimes := times }).inc .dramUe p 0
  let d := d.raiseFirst 0x0E05 p 0 ownerMaint [d.ctr .dramUe p 0]
  if d.dram.config.ueFence < times.length then d.fence p 2 else d

/-- DRAM_READ_COMPLETE (R335, R339, R355). A corrected burst of a system area is written back. -/
def execDramReadComplete (channel : Nat) (ecc : Ecc) (s : State) : Host.Outcome State Fault Refusal :=
  running (fun d =>
    let c := d.chan channel
    match nextRead c with
    | none => d
    | some r =>
      let d := d.setChan channel (readDone c)
      match ecc with
      | .clean => d
      | .corrected =>
        let d := d.inc .dramCe channel 0
        if systemRow Config.dramDense ≤ r.place.row then
          d.putReqs channel [{ use := .migrate, write := true, place := r.place, since := d.now, miss := false }]
        else d
      | .uncorrectable => (d.uncorrectable r.use).countUe channel) s

/-- DRAM_REFRESH_INTERVAL_BOUNDARY (R343, R357): the interval is halved or restored, and accepted settings
take effect; a new rate starts the change of R350 on every trained channel. -/
def execDramRefreshIntervalBoundary (s : State) : Host.Outcome State Fault Refusal :=
  running (fun d =>
    let m := d.dram
    if !m.enabled || d.now < m.boundaryAt + m.interval then d
    else
      let i := if m.hot then 5850 else 11700
      let d := { d with dram := { m with boundaryAt := m.boundaryAt + m.interval,
                                         boundaries := m.boundaries + 1, interval := i } }
      let d := if i != m.interval then d.raise 0x0E06 ownerMaint [] else d
      match m.next with
      | none => d
      | some r =>
        let trained := (List.range 6).filter fun p =>
          !((d.chan p).state == .untrained || (d.chan p).state == .fenced)
        let left := if r.rate != m.config.rate then trained else []
        { d with dram := { d.dram with config := r, next := none, rateLeft := left } }) s

/-- DRAM_REFRESH_SLOT (R344): PREab, then REFab; a channel in self-refresh skips its slot. -/
def execDramRefreshSlot (channel : Nat) (s : State) : Host.Outcome State Fault Refusal :=
  running (fun d =>
    let c := d.chan channel
    if 6 ≤ channel || !d.dram.enabled || d.now < d.refreshSlot channel ||
        d.dram.boundaries + 1 ≤ c.refreshed then d
    else if c.state == .selfRefresh || c.state == .spare then
      d.setChan channel { c with refreshed := d.dram.boundaries + 1 }
    else if c.state == .active || c.state == .migrating || c.state == .outOfService then
      let d := d.closeRows channel
      let c := d.chan channel
      (d.setChan channel { c with refreshed := d.dram.boundaries + 1,
                                  refreshEnd := d.now + c.trp + c.trfc }).inc .refreshes channel 0
    else d) s

/-- DRAM_MR4_POLL (R343): every 1 ms the temperatures of the active channels. -/
def execDramMr4Poll (temps : List Nat) (s : State) : Host.Outcome State Fault Refusal :=
  running (fun d =>
    if !d.dram.enabled || d.now < d.dram.pollAt + cyclesPerMs then d
    else
      let active := (List.range 6).filter fun p => (d.chan p).logical.isSome
      let d := active.foldl (fun d p => d.setChan p { d.chan p with temp := temps.getD p 0 }) d
      let hot := if active.any fun p => 85 < temps.getD p 0 then true
        else if active.all fun p => temps.getD p 0 ≤ 83 then false
        else d.dram.hot
      { d with dram := { d.dram with hot := hot, pollAt := d.now } }) s

/-- DRAM_IDLE_SR_ENTRY (R349): PREab at once and SRE after tRP. -/
def execDramIdleSrEntry (channel : Nat) (s : State) : Host.Outcome State Fault Refusal :=
  running (fun d =>
    let c := d.chan channel
    let us := d.dram.config.idleSrUs
    if us = 0 || c.state != .active || !c.queue.isEmpty || !c.waiting.isEmpty ||
        d.now < c.lastReq + us * cyclesPerUs then d
    else
      let d := d.closeRows channel
      let c := d.chan channel
      (d.setChan channel { c with state := .selfRefresh, srAt := some (d.now + c.trp) }).inc .srEntries channel 0) s

/-- DRAM_SR_EXIT (R349): after the minimum residency a channel with a held request leaves. -/
def execDramSrExit (channel : Nat) (s : State) : Host.Outcome State Fault Refusal :=
  running (fun d =>
    let c := d.chan channel
    match c.srAt with
    | none => d
    | some t =>
      if c.state != .selfRefresh || (c.queue.isEmpty && c.waiting.isEmpty) ||
          d.now < t + d.dram.config.srMinNs * 3 then d
      else d.setChan channel { c with state := .active, srAt := none, refreshEnd := d.now + c.txs }) s

/-- DRAM_RATE_CHANNEL_DONE (R350): the channel relocks at the new rate and swaps its sets; the last one
raises DRAM_RATE_DONE. -/
def execDramRateChannelDone (channel : Nat) (s : State) : Host.Outcome State Fault Refusal :=
  running (fun d =>
    match d.dram.rateLeft with
    | p :: ps =>
      if p != channel then d
      else
        let c := d.chan p
        let d := d.setChan p { c with rate := d.dram.config.rate, sel := (c.sel + 1) % 2 }
        let d := { d with dram := { d.dram with rateLeft := ps } }
        let d := d.inc .srEntries p 0
        if ps.isEmpty then d.raise 0x0E07 ownerMaint [] else d
    | [] => d) s

/-! ### Spare, migration, sweeps -/

/-- DRAM_SPARE_TAKEOVER (R353): the spare takes the logical number; a journal copy there is copied anew. -/
def execDramSpareTakeover (s : State) : Host.Outcome State Fault Refusal :=
  running (fun d =>
    match d.dram.takeover, d.spareChan with
    | some (l, _), some p =>
      let c := d.chan p
      let d := d.setChan p { c with state := .active, logical := some l, srAt := none, lastReq := d.now }
      let rc := if d.dram.journals.contains l then some l else d.dram.recopy
      { d with dram := { d.dram with takeover := none, recopy := rc } }.raise 0x0E02 ownerMaint []
    | some (l, _), none => { d with dram := { d.dram with takeover := none } }.becomeAbsent l
    | none, _ => d) s

/-- JOURNAL_RECOPY_DONE (R353). -/
def execJournalRecopyDone (s : State) : Host.Outcome State Fault Refusal :=
  running (fun d => { d with dram := { d.dram with recopy := none } }) s

/-- A migration of channel `src` to the spare begins (R351). -/
def Dev.migrate (d : Dev) (src dst deadline : Nat) (tok : Option Token) (recentre : Bool) : Dev :=
  let d := d.setChan src { d.chan src with state := .migrating, srAt := none }
  let d := d.setChan dst { d.chan dst with state := .migrating, srAt := none }
  let m : Migration := { src := src, dst := dst, deadline := deadline, token := tok, recentre := recentre }
  { d with dram := { d.dram with migration := some m } }

/-- DRAM_MIGRATION_COMPLETE (R351): in one cycle the target takes the logical number and what waits in the
source; a re-centring goes on with the sweep of the old channel. -/
def execDramMigrationComplete (s : State) : Host.Outcome State Fault Refusal :=
  running (fun d =>
    match d.dram.migration with
    | none => d
    | some m =>
      let c := d.chan m.src
      let t := d.chan m.dst
      let reads := (c.queue ++ c.waiting).filter fun r => !r.write
      let d := d.setChan m.dst { t with state := .active, logical := c.logical,
                                        waiting := t.waiting ++ reads }.letIn
      let d := d.setChan m.src { c with state := .outOfService, logical := none, queue := [], waiting := [] }
      let sw : Option Sweep := if m.recentre then some { channel := m.src, token := none, recentre := true } else none
      let d := { d with dram := { d.dram with migration := none, sweep := sw } }
      let d := (d.inc .migrations m.src 0).raise 0x0E04 ownerMaint []
      d.answer m.token .ok 0 []) s

/-- DRAM_CHANNEL_TIMEOUT (R357): a migration past its deadline is abandoned. -/
def execDramChannelTimeout (s : State) : Host.Outcome State Fault Refusal :=
  running (fun d =>
    match d.dram.migration with
    | none => d
    | some m =>
      if d.now < m.deadline then d
      else
        let d := d.setChan m.src { d.chan m.src with state := .active }
        let d := d.setChan m.dst { d.chan m.dst with state := .spare, queue := [], waiting := [], reads := [],
                                                     srAt := some d.now }
        { d with dram := { d.dram with migration := none } }.answer m.token .timeout 0 []) s

/-- R463: a sweep that leaves a window below 25 % of baseline puts its channel at end of margin. -/
def Dev.judgeWindows (d : Dev) (p : Nat) (ws : List Nat) : Dev :=
  match d.island.baseWindow.get? p with
  | none => d
  | some bs =>
    if (ws.zip bs).any fun x => x.1 * 4 < x.2 then d.endOfMargin 3 p 3 1 else d.withinMargin 3 p

/-- DRAM_SWEEP_DONE (R347, R352, R357): with every window non-zero the channel returns as spare; a zero
window fences it. -/
def execDramSweepDone (channel : Nat) (windows : List Nat) (s : State) : Host.Outcome State Fault Refusal :=
  running (fun d =>
    match d.dram.sweep with
    | none => d
    | some w =>
      if w.channel != channel then d
      else
        let c := d.chan channel
        let d := d.setChan channel { c with windows := windows }
        let d := { d with dram := { d.dram with sweep := none } }
        let d := if w.recentre then
            (d.inc .recentrings 0 0).judgeWindows channel windows
          else d
        if windows.any (· == 0) then (d.fence channel 1).answer w.token .timeout 0 []
        else
          let d := d.setChan channel { d.chan channel with state := .spare, srAt := some d.now }
          d.answer w.token .ok 0 []) s

/-- DRAM_SYSTEM_SCRUB (R355): once an hour every burst of the system area is read, and the corrected ones
written back. -/
def execDramSystemScrub (channel errors : Nat) (s : State) : Host.Outcome State Fault Refusal :=
  running (fun d =>
    let c := d.chan channel
    if c.logical.isNone || d.now < c.scrubAt + 3600 * cyclesPerS then d
    else
      let d := d.setChan channel { c with scrubAt := d.now }
      let n := min errors 2097152
      ((d.bump .dramReads channel 0 2097152).bump .dramWrites channel 0 n).bump .dramCe channel 0 n) s

/-- The logical number that channel `p` takes after training (R336, R359): its own, or for the one beyond
the lowest number whose channel failed. -/
def trainedNumber (passed : List Bool) (p : Nat) : Option Nat :=
  if !passed.getD p false then none
  else if p < 5 then some p
  else (List.range 5).find? fun l => !passed.getD l false

/-- A channel's generator seeded at the enable (R345). -/
def Dev.seedChannel (d : Dev) (p : Nat) : Dev :=
  let x := d.draw
  x.2.setChan p { x.2.chan p with seed := Config.freeDraw x.1 % 2 ^ 32, scrubAt := d.now, lastReq := d.now }

/-- One channel after training. -/
def Dev.trained (d : Dev) (passed : List Bool) (p : Nat) : Dev :=
  let c := d.chan p
  if passed.getD p false then
    let n := trainedNumber passed p
    (d.setChan p { c with state := if n.isSome then .active else .spare, logical := n,
                          srAt := if n.isSome then none else some d.now }).seedChannel p
  else ((d.inc .fences p 0).raise 0x0E01 ownerMaint [1]).shutChannel p

/-- DRAM_TRAINING_DONE (R359): the channels are mapped, those that failed fenced, the system areas zero,
and the controller enabled. -/
def execDramTrainingDone (passed : List Bool) (s : State) : Host.Outcome State Fault Refusal :=
  running (fun d =>
    if d.dram.enabled || d.boot.stage < 3 then d
    else
      let d := (List.range 6).foldl (fun d p => d.trained passed p) d
      let d := { d with dram := { d.dram with enabled := true, boundaryAt := d.now,
                                              pollAt := d.now, journals := [0, 1] } }
      let missing := (List.range 5).filter fun l => (d.physical l).isNone
      missing.foldl (fun d l => d.becomeAbsent l) d) s

/-! ### Firmware's accesses (R346, R347) -/

/-- A register of a set written by firmware: the shadow set always, the active set only while the channel
is not in service. -/
def Dev.drcWrite (d : Dev) (p set : Nat) (act : DramSet → DramSet) : Dev :=
  let c := d.chan p
  if c.inService && c.sel % 2 = set % 2 then d.inc .regWriteRefused p 0
  else if set % 2 = 0 then d.setChan p { c with set0 := act c.set0 }
  else d.setChan p { c with set1 := act c.set1 }

/-- Work on a channel that is not in service; on any other firmware reads BAD_STATE and nothing issues. -/
def Dev.offService (d : Dev) (p : Nat) (act : DramChannel → Dev) : Dev :=
  let c := d.chan p
  if 6 ≤ p || c.inService then d else act c

/-- DRC_SET_SWAP (R346). -/
def execDrcSetSwap (channel : Nat) (s : State) : Host.Outcome State Fault Refusal :=
  running (fun d => d.offService channel fun c =>
    d.setChan channel { c with sel := (c.sel + 1) % 2 }) s

/-- DRC_MODE_REGISTER_ACCESS (R347, R352): a read without a valid response fences the channel. -/
def execDrcModeRegisterAccess (channel : Nat) (ok : Bool) (s : State) : Host.Outcome State Fault Refusal :=
  running (fun d => d.offService channel fun _ => if ok then d else d.fence channel 3) s

/-- DRC_TRAINING_ROW_ACCESS (R347): one burst of the training rows. -/
def execDrcTrainingRowAccess (channel : Nat) (write : Bool) (s : State) : Host.Outcome State Fault Refusal :=
  running (fun d => d.offService channel fun _ =>
    d.inc (if write then Ctr.dramWrites else Ctr.dramReads) channel 0) s

/-- DRC_READ_COMPARE (R347): one burst read and compared; `errors` names the lanes that fail, which only
firmware sees. -/
def execDrcReadCompare (channel _errors : Nat) (s : State) : Host.Outcome State Fault Refusal :=
  running (fun d => d.offService channel fun _ => d.inc .dramReads channel 0) s

/-! ### Messages (R357, R358) -/

/-- Whether a migration, sweep or rate change is in progress. -/
def Dev.dramBusy (d : Dev) : Bool :=
  d.dram.migration.isSome || d.dram.sweep.isSome || !d.dram.rateLeft.isEmpty

/-- What DRAM_CONFIG_SET checks. -/
def dramConfigChecks (who : Sender) (d : Dev) (r : DramConfigRec) : List (Bool × Status) :=
  [(!who.isOwner, .notPermitted),
   (2 < r.rate || r.drfmK < 5 || 12 < r.drfmK || r.ueFence = 0 || 1000 < r.ueFence ||
      r.ageLimitNs < 500 || 20000 < r.ageLimitNs || 1000000 < r.idleSrUs ||
      r.srMinNs < 100 || 100000 < r.srMinNs, .badField),
   (d.dramBusy || decide (Config.dramBin < r.rate), .badState)]

/-- DRAM_CONFIG_SET. -/
def execDramConfigSet (h : Hdr) (r : DramConfigRec) (s : State) : Host.Outcome State Fault Refusal :=
  runMessage { code := 0x0E01, lenOk := exactly 16, maxBody := 0 } h (fun who d =>
    setting (dramConfigChecks who d r) d fun d => { d with dram := { d.dram with next := some r } }) s

/-- Whether a channel is in the state that an op of DRAM_CHANNEL_SET needs. -/
def opState (d : Dev) (op : Nat) (c : DramChannel) : Bool :=
  match op with
  | 1 => (c.state == .active || c.state == .selfRefresh) && d.spareChan.isSome
  | 2 => c.state == .outOfService || c.state == .fenced
  | 3 => c.state == .spare
  | _ => c.state != .fenced

/-- What DRAM_CHANNEL_SET checks. -/
def dramChannelChecks (who : Sender) (d : Dev) (r : DramChannelRec) : List (Bool × Status) :=
  [(!who.isOwner, .notPermitted),
   (5 < r.channel || r.op = 0 || 4 < r.op ||
      (r.op ≤ 2 && (r.deadlineMs = 0 || 10000 < r.deadlineMs)), .badField),
   (!opState d r.op (d.chan r.channel) || d.dramBusy, .badState)]

/-- DRAM_CHANNEL_SET: ops 1 and 2 complete when their migration or sweep does. -/
def execDramChannelSet (h : Hdr) (r : DramChannelRec) (s : State) : Host.Outcome State Fault Refusal :=
  runMessage { code := 0x0E02, lenOk := exactly 8, maxBody := 0, canAsync := true } h (fun who d =>
    checked (dramChannelChecks who d r) d fun d =>
      let c := d.chan r.channel
      match r.op, d.spareChan with
      | 1, some p =>
        (.wait, d.migrate r.channel p (d.now + r.deadlineMs * cyclesPerMs) (some who.tok) false)
      | 2, _ =>
        let w : Sweep := { channel := r.channel, token := some who.tok, recentre := false }
        let d := d.setChan r.channel { c with state := .outOfService }
        (.wait, { d with dram := { d.dram with sweep := some w } }.writeService)
      | 3, _ => (.say .ok, d.setChan r.channel { c with state := .outOfService, srAt := none })
      | _, _ => (.say .ok, d.fence r.channel 4)) s

/-- The code of a channel state, in the order of Table 14-6. -/
def ChState.code : ChState → Nat
  | .untrained => 0
  | .spare => 1
  | .active => 2
  | .selfRefresh => 3
  | .migrating => 4
  | .outOfService => 5
  | .fenced => 6

/-- Table 14-9 of a channel. -/
def dramCounters (d : Dev) (p : Nat) : List Nat :=
  ([.dramReads, .dramWrites, .rowHits, .dramCe, .dramUe, .refreshes, .drfm, .srEntries, .agePromotions,
    .spillBackpressure, .regWriteRefused, .migrations, .fences] : List Ctr).map fun c => d.ctr c p 0

/-- DRAM_STATUS_GET (R358). -/
def execDramStatusGet (h : Hdr) (s : State) : Host.Outcome State Fault Refusal :=
  runMessage { code := 0x0E03, lenOk := exactly 0, maxBody := 2048, changes := false } h (fun who d =>
    checked [(who.role == .tenant, .notPermitted)] d fun d =>
      let one (p : Nat) : List Nat :=
        let c := d.chan p
        [c.state.code, c.logical.getD 255, c.rate, c.temp] ++ c.windows ++ dramCounters d p
      (.list ((List.range 6).flatMap one), d)) s

end Sys2Proof.Machine
end

