-- ==== Sys2Proof/Machine/Lining.lean ====
section
/-! DEFINITION. The Lining's commands: captures, records and replay (15). -/

namespace Sys2Proof.Machine

/-! ### Writing records (R362 to R365) -/

/-- The bodies of Table 15-3 that have a name here. -/
def LinBody.isFrame : LinBody → Bool
  | .frame _ _ _ _ _ _ _ _ _ _ _ _ _ _ _ _ _ => true
  | _ => false
def LinBody.isTrigger : LinBody → Bool
  | .trigger _ _ _ => true
  | _ => false
def LinBody.isMirror : LinBody → Bool
  | .mirror _ => true
  | _ => false

/-- Slots of the record area of the capture of tenancy `t` with Sleeve mask `mask` (R365). -/
def Dev.recordArea (d : Dev) (t mask : Nat) : Nat :=
  d.lining.quotas.get 0 t * 4096 - 24576 * popCount 7 mask

/-- The reference that an offer holds on its frame, given up. -/
def Dev.dropOffer (d : Dev) (o : LinOffer) : Dev :=
  match o.fid with
  | some fid => d.unref fid
  | none => d

/-- R365: a capture that stops; what is still offered is not written. -/
def Dev.stopCapture (d : Dev) (t : Nat) : Dev :=
  match d.lining.captures.get? t with
  | some c =>
    let d := d.setCapture t { c with state := .stopped, offers := [] }
    (c.offers.foldl (fun d o => d.dropOffer o) d).raise 0x0F02 [.tenancy t] []
  | none => d

/-- R365: before the trigger, mode 1 keeps the latest `pre_depth` records and overwrites older ones. -/
def Capture.overwrite (c : Capture) : Capture × Nat :=
  let n := c.records.length - c.data.preDepth
  ({ c with records := c.records.drop n, ready := c.ready - n, overwritten := c.overwritten + n }, n)

/-- A LOSS record of cause 5 stands before the records that mode 1 has kept, under the index of the last
one overwritten. -/
def Capture.lossFirst (c : Capture) (t : Stamp) : Capture :=
  match c.records with
  | (i, r) :: _ =>
    if c.overwritten = 0 then c
    else
      let l : LinRec := { sleeve := r.sleeve, stamp := t, seq := r.seq, poisoned := false,
                          body := .loss c.overwritten 5 }
      { c with records := (i - 1, l) :: c.records, ready := if c.ready = 0 then 0 else c.ready + 1 }
  | [] => c

/-- A record joins the ring and the capture. -/
def Dev.putRecord (d : Dev) (t : Nat) (r : LinRec) : Dev :=
  match d.lining.captures.get? t with
  | none => d
  | some c =>
    let i := c.nextIndex
    let c := { c with records := c.records ++ [(i, r)], nextIndex := i + 1 }
    let d := d.setCapture t c
    let d := { d with lining := { d.lining with ring := d.lining.ring ++ [(t, i)], lastWrite := some d.now } }
    d.inc (if r.body.isFrame || r.body.isMirror then Ctr.recFrames else Ctr.recMarkers) t 0

/-- R365: the trigger that a written frame record is, by its action reference or its drop reason. -/
def Dev.recordTrigger (d : Dev) (t : Nat) (c : Capture) (r : LinRec) : Dev :=
  let dec := r.decision
  if !r.body.isFrame then d
  else if c.data.trigger = 1 && dec % 2 ^ 24 = c.data.trigRef then d.linTrigger t 1 0 r.seq
  else if c.data.trigger = 2 && c.data.trigDropMask.testBit (dec / 2 ^ 30 % 64) then d.linTrigger t 2 0 r.seq
  else d

/-- What a written record does to its capture: mode 0 stops when the area is full; mode 1 overwrites until
its TRIGGER record stands, and then stops after `post_depth` records. -/
def Dev.afterRecord (d : Dev) (t : Nat) (r : LinRec) : Dev :=
  match d.lining.captures.get? t with
  | none => d
  | some c =>
    if c.data.mode = 0 then
      if d.recordArea t c.data.sleeveMask ≤ c.records.length then d.stopCapture t else d
    else if r.body.isTrigger then d.setCapture t (c.lossFirst d.stamp)
    else if c.left.isNone || c.offers.any (fun o => o.data.body.isTrigger) then
      let x := c.overwrite
      (d.setCapture t x.1).bump .recOverwritten t 0 x.2
    else
      let n := c.left.getD 0 - 1
      let d := d.setCapture t { c with left := some n }
      if n = 0 then d.stopCapture t else d

/-- The rate bucket of a capture in 1/3,000,000,000 of a record: burst 64 (R364). -/
def Capture.tokens (c : Capture) (now : Nat) : Nat := c.level.now c.data.ratePps (64 * 3000000000) now

/-- The cause for which an offered record is lost now, 0 where it is written. -/
def lossCause (d : Dev) (c : Capture) (o : LinOffer) (served : Bool) : Nat :=
  let soon := match d.lining.lastWrite with
    | some t => decide (d.now < t + 30)
    | none => false
  if soon || c.tokens d.now < 3000000000 then 1
  else if 65536 ≤ d.lining.ring.length then 2
  else if !served && (o.data.body.isFrame || o.data.body.isMirror) then 3
  else 0

/-- LINING_RECORD_WRITE (R362, R364): the first offer of the tenancy's capture whose outcome is known is
written, or lost; the first record written after a loss is a LOSS record, and the offer stays for the next. -/
def execLiningRecordWrite (tenancy : Nat) (served : Bool) (s : State) : Host.Outcome State Fault Refusal :=
  running (fun d =>
    match d.lining.captures.get? tenancy with
    | none => d
    | some c =>
      match c.offers.find? fun o => o.known with
      | none => d
      | some o =>
        let cause := lossCause d c o served
        let rest := c.offers.erase o
        if !c.records' then d
        else if cause != 0 then
          ((d.setCapture tenancy { c with offers := rest }).loseRecords tenancy o.data.sleeve 1 cause).dropOffer o
        else
          let c := { c with level := { level := c.tokens d.now - 3000000000, at' := d.now } }
          if c.lost != 0 then
            let l : LinRec := { sleeve := c.lostSleeve, stamp := d.stamp, seq := o.data.seq, poisoned := false,
                                body := .loss c.lost c.lostCause }
            let d := d.setCapture tenancy { c with lost := 0 }
            (d.putRecord tenancy l).afterRecord tenancy l
          else
            let d := (d.setCapture tenancy { c with offers := rest }).putRecord tenancy o.data
            ((d.recordTrigger tenancy c o.data).afterRecord tenancy o.data).dropOffer o) s

/-- LINING_RING_DRAIN (R340, R364, R372): the ring's first record leaves for its place in DRAM, sealed,
where the channel has entries for its two requests. -/
def execLiningRingDrain (s : State) : Host.Outcome State Fault Refusal :=
  running (fun d =>
    match d.lining.ring with
    | [] => d
    | (t, i) :: rest =>
      let u := d.recordUnit t i
      let full := match d.physical (unitChannel u) with
        | some p => decide (22 < ofClass 2 (d.chan p).queue) || !entryFree (d.chan p).queue (.lining t i)
        | none => false
      if full then d
      else
        let d := { d with lining := { d.lining with ring := rest } }
        match d.lining.captures.get? t with
        | some c =>
          if c.records.any fun r => r.1 = i then
            (d.setCapture t { c with ready := c.ready + 1 }).requestUnits (.lining t i) true [u]
          else d
        | none => d) s

/-- SNAPSHOT_SWEEP_DONE (R367): the capture enters RUNNING. -/
def execSnapshotSweepDone (tenancy : Nat) (s : State) : Host.Outcome State Fault Refusal :=
  running (fun d =>
    match d.lining.captures.get? tenancy with
    | some c => if c.state == .armed then d.setCapture tenancy { c with state := .running } else d
    | none => d) s

/-! ### Rebuilding a version (R182, R369) -/

/-- An object that is live in slot `v`, live in every slot of the world. -/
def keepLive {α : Type} (v : Nat) (live : α → Nat) (all : α → α) (t : Tab α) : Tab α :=
  (t.filter fun _ x => (live x).testBit v).map fun _ x => all x

/-- The world of the CURRENT version. -/
def Dev.liveWorld (d : Dev) (salt : Nat) : World :=
  let v := d.current
  { flow := keepLive v (·.live) (fun e => { e with live := 15 }) d.tables.flow
    flowProfiles := d.tables.profiles
    tcam := keepLive v (·.live) (fun e => { e with live := 15 }) d.tcam.entries
    tcamProfiles := d.tcam.profiles
    patterns := keepLive v (·.live) (fun e => { e with live := 15 }) d.parse.patterns
    actions := keepLive v (·.live) (fun e => { e with live := 15 }) d.vers.actions
    bindings := keepLive v (·.live) (fun e => { e with live := 15 }) d.meter.bindings
    rels := keepLive v (·.live) (fun e => { e with live := 15 }) d.rel.profiles
    salt := salt }

/-- A profile set back. -/
def backProfile (t : Tab ProfileRec) (k : Nat) (old : Option ProfileRec) : Tab ProfileRec :=
  match old with
  | some r => t.set k r
  | none => t.del k

/-- A flow entry put back: at its index, or if another entry has been moved there, at a free way of its
buckets. -/
def Dev.backFlow (d : Dev) (w : World) (i : Nat) (e : FlowEntry) : World :=
  let i := match w.flow.get? i with
    | none => i
    | some _ =>
      match d.flowBuckets e.profile e.tenancy (beBytes 40 e.key) with
      | some (b0, b1) => ((wayIndexes b0 b1).find? fun j => (w.flow.get? j).isNone).getD i
      | none => i
  { w with flow := w.flow.set i { e with live := 15 } }

/-- A journal entry undone. -/
def Dev.undoChange (d : Dev) (w : World) : Change → World
  | .flowAdd _ e _ _ =>
    { w with flow := w.flow.filter fun _ x => !(x.tenancy = e.tenancy && x.profile = e.profile && x.key = e.key) }
  | .flowDel i e => d.backFlow w i e
  | .flowProfile k _ old => { w with flowProfiles := backProfile w.flowProfiles k old }
  | .tcamAdd i _ => { w with tcam := w.tcam.del i }
  | .tcamDel i e => { w with tcam := w.tcam.set i { e with live := 15 } }
  | .tcamProfile k _ old => { w with tcamProfiles := backProfile w.tcamProfiles k old }
  | .patternAdd i _ => { w with patterns := w.patterns.del i }
  | .patternDel i r => { w with patterns := w.patterns.set i { data := r, live := 15 } }
  | .actionAdd i _ => { w with actions := w.actions.del i }
  | .actionDel i r => { w with actions := w.actions.set i { data := r, live := 15 } }
  | .bindAdd i _ => { w with bindings := w.bindings.del i }
  | .bindDel i r => { w with bindings := w.bindings.set i { data := r, live := 15 } }
  | .relAdd i _ => { w with rels := w.rels.del i }
  | .relDel i r => { w with rels := w.rels.set i { data := r, live := 15 } }

/-- The records of the journal that a commit cycle has made, newest first. -/
def Dev.journalDone (d : Dev) : List JournalRec :=
  let done := d.vers.journal.reverse
  match d.vers.commits with
  | c :: _ => if c.step = 4 then done.drop 1 else done
  | [] => done

/-- The world `n` commits back, as far as the journal holds them without a gap. -/
def Dev.undoCommits (d : Dev) : Nat → List JournalRec → World → Option World
  | 0, _, w => some w
  | _ + 1, [], _ => none
  | n + 1, j :: js, w =>
    if j.gap then none
    else d.undoCommits n js (j.changes.reverse.foldl (fun w c => d.undoChange w c) w)

/-- The world of commit epoch `e`, if it can be rebuilt. -/
def Dev.worldAt (d : Dev) (e salt : Nat) : Option World :=
  let back := ((d.vslot d.current).epoch + 16384 - e) % 16384
  d.undoCommits back d.journalDone (d.liveWorld salt)

/-- Commits that can be undone: up to the first gap. -/
def backSteps : List JournalRec → Nat
  | [] => 0
  | j :: js => if j.gap then 0 else backSteps js + 1

/-- The oldest epoch still rebuildable. -/
def Dev.oldestEpoch (d : Dev) : Nat :=
  ((d.vslot d.current).epoch + 16384 - backSteps d.journalDone) % 16384

/-! ### Replay (R369, R370) -/

/-- The epoch, tenancy mark and length of a frame record. -/
def LinBody.epoch : LinBody → Nat
  | .frame _ _ _ _ _ _ _ _ _ _ e _ _ _ _ _ _ => e
  | _ => 0
def LinBody.noReplay : LinBody → Bool
  | .frame _ _ _ _ _ _ n _ _ _ _ _ _ _ _ _ _ => n
  | _ => false
def LinBody.truncated : LinBody → Bool
  | .frame _ _ _ _ _ t _ _ _ _ _ _ _ _ _ _ _ => t
  | _ => false

/-- Whether a recorded frame was whole and good: the Yoke neither discarded it (63) nor found it incomplete (25). -/
def LinBody.wasWhole : LinBody → Bool
  | .frame _ _ _ _ _ _ _ _ _ _ _ _ _ _ o _ _ => o != 63 && o != 25
  | _ => false

/-- Whether a packet of a replay Sleeve has yet to pass phase `ph`. -/
def Dev.replayBefore (d : Dev) (s : Nat) (ph : Phase) : Bool :=
  d.ports.frames.cells.any fun c =>
    c.2.sleeve = s && c.2.isReplay && decide (phaseRank c.2.phase ≤ phaseRank ph)

/-- A report entry of a replay: the first 65,536 are kept. -/
def Dev.report (d : Dev) (r : Replay) (e : Report) : Dev :=
  let es := d.lining.reports.get [] r.tenancy
  let d := d.inc .replayClass r.tenancy e.cls
  let stop := e.cls = 5 && r.data.flags.testBit 0
  let cs := r.classes.mapIdx fun i n => if i + 1 = e.cls then n + 1 else n
  let d := d.setReplay r.data.replaySleeve { r with classes := cs, stopped := r.stopped || stop }
  if es.length < 65536 then { d with lining := { d.lining with reports := d.lining.reports.set r.tenancy (es ++ [e]) } }
  else d

/-- Whether a record is among those that a replay compares. -/
def Replay.compares (r : Replay) (i : Nat) : Bool :=
  decide (r.data.firstIndex ≤ i) && (r.data.count = 0 || decide (i < r.data.firstIndex + r.data.count))

/-- What a marker does to the replay Sleeve (R366, R368). -/
def Dev.applyMarker (d : Dev) (r : Replay) (x : LinRec) : Dev :=
  let s := r.data.replaySleeve
  match x.body with
  | .table 0 op i e =>
    if op = 3 || op = 4 || op = 5 then d.setLearn s i none else d.setLearn s i e
  | .table 1 _ i _ => { d with tcam := { d.tcam with suspects := (s * 32768 + i) :: d.tcam.suspects } }
  | .table _ _ i _ => { d with tcam := { d.tcam with suspects := d.tcam.suspects.filter (· != s * 32768 + i) } }
  | .reseed e n =>
    let l := d.learner s
    d.setLearner s { l with seed := n, seedEpoch := e }
  | .step o n =>
    let diff := ((n.sec * 1000000000 + n.ns : Nat) - (o.sec * 1000000000 + o.ns : Nat) : Int) * 3
    match d.replayOn s with
    | some r => d.setReplay s { r with stepFix := r.stepFix + diff }
    | none => d
  | _ => d

/-- The stage that a marker waits for. -/
def markerPhase (x : LinRec) : Phase :=
  match x.body with
  | .table 0 _ _ _ => .learn
  | .table _ _ _ _ => .tcam
  | .reseed _ _ => .learn
  | _ => .fragment

/-- The records in front of a replay that take no slot: markers whose position has passed, and frames that
are skipped or cannot be rebuilt; an epoch that is not loaded makes issue wait (step 4 of R369). -/
def Dev.replayAdvance (s : Nat) : Nat → Dev → Dev
  | 0, d => d
  | n + 1, d =>
    match d.replayOn s with
    | none => d
    | some r =>
      match r.todo with
      | [] => d
      | (i, x) :: rest =>
        let skip : Dev → Dev := fun d =>
          match d.replayOn s with
          | some r => d.setReplay s { r with todo := rest }
          | none => d
        if r.stopped || r.waiting || r.restoring then d
        else if !x.body.isFrame then
          if d.replayBefore s (markerPhase x) then d
          else Dev.replayAdvance s n (skip (d.applyMarker r x))
        else if x.body.noReplay then Dev.replayAdvance s n (skip d)
        else if x.body.epoch = r.loaded then d
        else if (d.worldAt x.body.epoch r.world.salt).isNone then
          let e : Report := { index := i, recorded := x.decision, replayed := 0, cls := 1 }
          Dev.replayAdvance s n (skip (if r.compares i then d.report r e else d))
        else d.setReplay s { r with waiting := true }

/-- The record that a replay issues next, if one may go now. -/
def Dev.replayNext (d : Dev) (s : Nat) : Option (Replay × Nat × LinRec) :=
  match d.replayOn s with
  | some r =>
    match r.todo with
    | (i, x) :: _ =>
      if r.stopped || r.waiting || r.restoring || !x.body.isFrame || x.body.noReplay || x.body.epoch != r.loaded then none
      else some (r, i, x)
    | [] => none
  | none => none

/-- The packet of a frame record on the replay Sleeve: its slice is the captured bytes, zero beyond them. -/
def replayPacket (s i : Nat) (x : LinRec) (pool : Nat) : Frame :=
  match x.body with
  | .frame _ p t deep inj _ _ _ _ _ _ _ len _ _ slice bs =>
    let n := min slice len
    let bytes := bs ++ List.replicate (n - bs.length) 0
    { Frame.make (.replay i) p s bytes len with
      deep := deep, slice := slice, stamp := x.stamp, tenancy := some t, pool := pool, seq := x.seq
      pass := 0, truncated := false, urgent := false, noMore := inj }
  | _ => Frame.make (.replay i) 0 s [] 0

/-- Pockets for a packet from a pool, through the cache of a unit; none if the pool runs out. -/
def Dev.allocateMany (u k : Nat) : Nat → Dev → List Nat × Dev
  | 0, d => ([], d)
  | n + 1, d =>
    match d.allocate u k with
    | (some p, d) =>
      let x := Dev.allocateMany u k n d
      (p :: x.1, x.2)
    | (none, d) => ([], d)

/-- A replayed packet placed in Pockets (step 3 of R369); none, with nothing changed but the counts of the
failed allocation, where the pool is empty. -/
def Dev.placePacket (d : Dev) (u k len : Nat) : Option (List Nat) × Dev :=
  let need := pocketsOf len
  let x := Dev.allocateMany u k need d
  if x.1.length = need then (some x.1, x.2.chain len x.1)
  else (none, x.2.freeAll u x.1)

/-- R370: the vectors of a replayed record compared. -/
def Dev.compareReplay (d : Dev) (f : Frame) (dec : Nat) : Dev :=
  match f.origin, d.replayOn f.sleeve with
  | .replay i, some r =>
    match d.lining.captures.get? r.tenancy with
    | none => d
    | some c =>
      match c.records.lookup i with
      | none => d
      | some x =>
        let before := (c.records.filter fun y => y.1 < i && y.2.sleeve = x.sleeve).map (·.2.body)
        let hook := before.foldl (fun ok b => match b with
          | .hook g => g == d.activeDigest
          | _ => ok) true
        let lost := before.any fun b => match b with
          | .loss _ _ => true
          | _ => false
        let entry (cls v : Nat) : Report := { index := i, recorded := x.decision, replayed := v, cls := cls }
        if !r.compares i then d
        else if !hook then d.report r (entry 2 0)
        else
          let d := (d.setReplay f.sleeve { r with compared := r.compared + 1 }).inc .replayCompared r.tenancy 0
          let r := { r with compared := r.compared + 1 }
          if dec = x.decision then d
          else if x.body.truncated || x.poisoned then d.report r (entry 3 dec)
          else if lost then d.report r (entry 4 dec)
          else d.report r (entry 5 dec)
  | _, _ => d

/-- REPLAY_EPOCH_SWITCH (step 4 of R369): once the former epoch's packets have drained, the tables of the
next record's epoch are written. -/
def execReplayEpochSwitch (sleeve : Nat) (s : State) : Host.Outcome State Fault Refusal :=
  running (fun d =>
    match d.replayOn sleeve with
    | none => d
    | some r =>
      match r.todo with
      | (_, x) :: _ =>
        if !r.waiting || d.replayBefore sleeve .yoke then d
        else
          match d.worldAt x.body.epoch r.world.salt with
          | some w => d.setReplay sleeve { r with world := w, loaded := x.body.epoch, waiting := false }
          | none => d.setReplay sleeve { r with waiting := false }
      | [] => d) s

/-- REPLAY_STREAM_END (step 7 of R369): every record has been issued, or replay has stopped. -/
def execReplayStreamEnd (sleeve : Nat) (s : State) : Host.Outcome State Fault Refusal :=
  running (fun d =>
    match d.replayOn sleeve with
    | none => d
    | some r =>
      let n := r.todo.length + 1
      let d := Dev.replayAdvance sleeve n d
      match d.replayOn sleeve with
      | some r =>
        if (r.todo.isEmpty || r.stopped) && !d.replayBefore sleeve .yoke then
          d.setReplay sleeve { r with restoring := true }
        else d
      | none => d) s

/-- The replay Sleeve's tables after a replay: no fragment entries, no suspect marks, and of the learning
table the static entries that the live Sleeve holds; its generator has a new seed. -/
def Dev.restoreSleeve (d : Dev) (r : Replay) : Dev :=
  let s := r.data.replaySleeve
  let live := r.data.liveSleeve
  let statics := (d.tables.learn.cells.filter fun c => c.1 / 2 ^ 19 = live && c.2.isStatic).map fun c =>
    (s * 2 ^ 19 + c.1 % 2 ^ 19, c.2)
  let kept := d.tables.learn.cells.filter fun c => c.1 / 2 ^ 19 != s
  let sus := d.tcam.suspects.filter fun k => k / 32768 != s
  let frags := d.parse.frags.filter fun k _ => k / 4096 != s
  let d := { d with
    tables := { d.tables with learn := ⟨statics ++ kept⟩ }
    tcam := { d.tcam with suspects := sus }
    parse := { d.parse with frags := frags }
    lining := { d.lining with replays := d.lining.replays.filter fun x => x.data.replaySleeve != s } }
  d.reseed s

/-- REPLAY_RESTORE_DONE (step 7 of R369): the message completes with the summary. -/
def execReplayRestoreDone (sleeve : Nat) (s : State) : Host.Outcome State Fault Refusal :=
  running (fun d =>
    match d.replayOn sleeve with
    | some r =>
      if !r.restoring then d
      else
        let d := (d.restoreSleeve r).raise 0x0F03 [.tenancy r.tenancy] []
        let body := [r.issued, r.compared] ++ r.classes
        d.finish r.token .ok 56 body
    | none => d) s

/-! ### Messages (R371, R373, R374) -/

/-- Whether a list holds `n` values none above `m`. -/
def within (n m : Nat) (l : List Nat) : Bool := l.length = n && l.all fun x => decide (x ≤ m)

/-- The tenancies whose quota REC_STORE_SET changes. -/
def changedQuotas (d : Dev) (r : RecStoreRec) : List Nat :=
  (List.range 16).filter fun t => d.lining.quotas.get 0 t != r.quotaMib.getD t 0

/-- What REC_STORE_SET checks (R373, R375). -/
def recStoreChecks (who : Sender) (d : Dev) (r : RecStoreRec) : List (Bool × Status) :=
  let busy := (changedQuotas d r).any fun t => (d.lining.captures.get? t).isSome && r.quotaMib.getD t 0 != 0
  [(!who.isOwner, .notPermitted),
   (8192 < r.storeMib || !within 16 8192 r.quotaMib || !within 16 100000000 r.ratePps ||
      r.quotaMib.any (fun q => q != 0 && q < 4), .badField),
   (decide (r.storeMib < r.quotaMib.sum) || decide (100000000 < r.ratePps.sum) ||
      decide (stripedMib Config.dramDense < d.yoke.regionMib + r.storeMib), .noSpace),
   (busy, .badState)]

/-- A capture cleared: its records, ring slots, snapshots and key are gone. -/
def Dev.clearCapture (d : Dev) (t : Nat) : Dev :=
  match d.lining.captures.get? t with
  | none => d
  | some c =>
    let d := c.offers.foldl (fun d o => d.dropOffer o) d
    { d with lining := { d.lining with captures := d.lining.captures.del t,
                                       ring := d.lining.ring.filter fun x => x.1 != t,
                                       reports := d.lining.reports.del t } }

/-- REC_STORE_SET accepted, with the assignment epoch of the quotas it changes (R375: a quota lowered to
zero stops and clears its capture). -/
def Dev.applyStore (d : Dev) (r : RecStoreRec) (epoch : Nat) : Dev :=
  let ch := changedQuotas d r
  let d := ch.foldl (fun d t =>
    let d := if (d.lining.captures.get? t).isSome then (d.stopCapture t).clearCapture t else d
    { d with lining := { d.lining with quotas := d.lining.quotas.set t (r.quotaMib.getD t 0),
                                       epochs := d.lining.epochs.set t epoch } }) d
  let rates : Tab Nat := ⟨(List.range 16).map fun t => (t, r.ratePps.getD t 0)⟩
  { d with lining := { d.lining with storeMib := r.storeMib, rates := rates } }

/-- REC_STORE_SET: a change of quotas takes its turn of the assignment counter (R385). -/
def execRecStoreSet (h : Hdr) (r : RecStoreRec) (s : State) : Host.Outcome State Fault Refusal :=
  runMessage { code := 0x0F01, lenOk := exactly 104, maxBody := 0 } h (fun who d =>
    checked (recStoreChecks who d r) d fun d =>
      if (changedQuotas d r).isEmpty then (.say .ok, d.applyStore r 0)
      else takeTurn who (.recStore r) (fun e d => d.applyStore r e) d) s

/-- Whether a replay of the capture of tenancy `t` runs. -/
def Dev.replaying (d : Dev) (t : Nat) : Bool := d.lining.replays.any fun r => r.tenancy = t

/-- Whether the sender names an epoch other than its Lining allotment's. -/
def staleAllotment (who : Sender) (d : Dev) : Bool := who.stale (d.lining.epochs.get 0 who.tenancy)

/-- What REC_ARM checks (R374). -/
def recArmChecks (who : Sender) (d : Dev) (r : RecArmRec) : List (Bool × Status) :=
  let t := who.tenancy
  let foreign := (onesOf 96 r.ports).any fun p => d.wholly p != some t
  [(who.isMaint || (!who.isOwner && foreign), .notPermitted),
   (staleAllotment who d, .staleEpoch),
   (1 < r.mode || r.capUnits = 0 || 12 < r.capUnits || 2 ^ 96 ≤ r.ports ||
      3 < r.trigger || 2 ^ 24 ≤ r.refValue || 2 ^ 24 ≤ r.refMask || 2 ^ 24 ≤ r.trigRef || r.ratePps = 0 ||
      decide (d.recordArea t r.sleeveMask < r.preDepth + r.postDepth), .badField),
   (decide (d.lining.rates.get 0 t < r.ratePps) ||
      decide (d.lining.quotas.get 0 t * 4096 < 24576 * popCount 7 r.sleeveMask + 4096), .noSpace),
   ((d.lining.captures.get? t).isSome || !d.dram.enabled, .badState),
   (d.replaying t, .slotBusy)]

/-- The snapshot of Sleeve `s` for tenancy `t` at the arming cycle (R367): entries of other tenancies
without key, and the tenancy's customer memory. -/
def Dev.snapshot (d : Dev) (t s : Nat) : Snapshot :=
  let own (c : Nat × LearnEntry) : Nat × LearnEntry :=
    (c.1 % 2 ^ 19, if c.2.tenancy = t then c.2 else keyless c.2)
  let cells := (d.tables.learn.cells.filter fun c => c.1 / 2 ^ 19 = s).map own
  let mem := d.micro.custMem.filter fun c =>
    c.1 / 4096 / 20 = s && d.holds t 10 (c.1 % 4096 / 256)
  { learn := ⟨cells⟩, salt := d.tables.salt, seed := (d.learner s).seed,
    seedEpoch := (d.learner s).seedEpoch, custMem := mem }

/-- REC_ARM accepted: the capture key drawn, the snapshots begun, and a RESEED and a HOOK record of each
Sleeve offered (R367). -/
def Dev.arm (d : Dev) (t : Nat) (r : RecArmRec) : Dev :=
  let x := d.draw
  let d := x.2
  let ss := onesOf 7 r.sleeveMask
  let marker (s : Nat) (b : LinBody) : LinOffer :=
    { data := { sleeve := s, stamp := d.stamp, seq := d.position s .learn, poisoned := false, body := b },
      fid := none, known := true }
  let offers := ss.flatMap fun s =>
    [marker s (.reseed (d.learner s).seedEpoch (d.learner s).seed), marker s (.hook d.activeDigest)]
  let c : Capture :=
    { state := .armed, data := r, key := Config.freeDraw x.1 % 2 ^ 256,
      level := { level := 64 * 3000000000, at' := d.now }, offers := offers, records := [], nextIndex := 0,
      ready := 0, lost := 0, lostCause := 0, lostSleeve := 0, overwritten := 0, left := none,
      snapshots := ⟨ss.map fun s => (s, d.snapshot t s)⟩ }
  d.setCapture t c

/-- REC_ARM (R367). -/
def execRecArm (h : Hdr) (r : RecArmRec) (s : State) : Host.Outcome State Fault Refusal :=
  runMessage { code := 0x0F02, lenOk := exactly 64, maxBody := 0, early := false } h (fun who d =>
    checked (recArmChecks who d r) d fun d =>
      drawing who d fun d => (.say .ok, d.arm who.tenancy r)) s

/-- What the messages on the sender's own capture check. -/
def ownChecks (who : Sender) (d : Dev) (busy : Bool) : List (Bool × Status) :=
  [(who.isMaint, .notPermitted), (staleAllotment who d, .staleEpoch), (busy, .slotBusy)]

/-- REC_TRIGGER (R365). -/
def execRecTrigger (h : Hdr) (s : State) : Host.Outcome State Fault Refusal :=
  runMessage { code := 0x0F03, lenOk := exactly 0, maxBody := 0 } h (fun who d =>
    setting (ownChecks who d false) d fun d => d.linTrigger who.tenancy 0 0 0) s

/-- REC_STOP. -/
def execRecStop (h : Hdr) (s : State) : Host.Outcome State Fault Refusal :=
  runMessage { code := 0x0F04, lenOk := exactly 0, maxBody := 0 } h (fun who d =>
    setting (ownChecks who d false) d fun d =>
      match d.lining.captures.get? who.tenancy with
      | some c => if c.records' then d.stopCapture who.tenancy else d
      | none => d) s

/-- REC_CLEAR (R374). -/
def execRecClear (h : Hdr) (s : State) : Host.Outcome State Fault Refusal :=
  runMessage { code := 0x0F05, lenOk := exactly 0, maxBody := 0 } h (fun who d =>
    setting (ownChecks who d (d.replaying who.tenancy)) d fun d => d.clearCapture who.tenancy) s

/-- The code of a capture's state. -/
def CapState.code : CapState → Nat
  | .idle => 0
  | .armed => 1
  | .running => 2
  | .triggered => 3
  | .stopped => 4

/-- Losses of tenancy `t`'s captures by cause. -/
def lossCounts (d : Dev) (t : Nat) : List Nat :=
  ([.recLostRate, .recLostRing, .recLostYoke, .recLostDram, .recOverwritten] : List Ctr).map fun c => d.ctr c t 0

/-- REC_STATUS_GET (R374, R376): the capture's state, records, oldest rebuildable epoch and counters; the
owner also each tenancy's aggregates; maintenance the ring and the device's losses. -/
def execRecStatusGet (h : Hdr) (s : State) : Host.Outcome State Fault Refusal :=
  runMessage { code := 0x0F07, lenOk := exactly 0, maxBody := 2048, changes := false } h (fun who d =>
    let t := who.tenancy
    let held (t : Nat) : Nat := match d.lining.captures.get? t with
      | some c => c.records.length
      | none => 0
    if who.isMaint then
      (.list (d.lining.ring.length :: sumRows ((List.range 16).map (lossCounts d))), d)
    else
      let state := match d.lining.captures.get? t with
        | some c => c.state.code
        | none => 0
      let own := [state, held t, d.oldestEpoch, d.ctr .recFrames t 0, d.ctr .recMarkers t 0] ++ lossCounts d t ++
        [d.ctr .replayIssued t 0, d.ctr .replayCompared t 0] ++ (List.range 5).map fun i => d.ctr .replayClass t (i + 1)
      let others := if who.isOwner then (List.range 16).flatMap fun t =>
          [d.ctr .recFrames t 0, (lossCounts d t).sum, held t] else []
      (.list (own ++ others), d)) s

/-- Whether a Sleeve may run a replay: it serves no Cuff, is enabled, is neither under test nor failed, and runs no
other (R33, R369, R484). -/
def Dev.mayReplay (d : Dev) (s : Nat) : Bool :=
  (d.sleeve s).enabled && !((d.boot.units.get? s).any fun u => u.state == .testing || u.state == .failed) &&
    (d.replayOn s).isNone && (List.range 24).all fun c => (d.cuff c).sleeve != s

/-- What REPLAY_RUN checks (R374). -/
def replayRunChecks (who : Sender) (d : Dev) (r : ReplayRunRec) : List (Bool × Status) :=
  let p := d.pool r.pool
  let state := match d.lining.captures.get? who.tenancy with
    | some c => c.state == .running || c.state == .armed || c.state == .triggered ||
        !(c.snapshots.get? r.liveSleeve).isSome
    | none => true
  [(who.isMaint || (r.pool ≤ 31 && (p.tenancy != who.tenancy || p.size = 0)), .notPermitted),
   (staleAllotment who d, .staleEpoch),
   (6 < r.liveSleeve || 6 < r.replaySleeve || 31 < r.pool, .badField),
   (state || !d.mayReplay r.replaySleeve, .badState),
   (d.replaying who.tenancy, .slotBusy)]

/-- The order of issue: by position, a packet before the markers of its position. -/
def issueKey (x : Nat × LinRec) : Nat := 2 * x.2.seq + (if x.2.body.isFrame then 0 else 1)

/-- A record put in its place in the order of issue. -/
def insertIssue (x : Nat × LinRec) : List (Nat × LinRec) → List (Nat × LinRec)
  | [] => [x]
  | y :: ys => if issueKey x ≤ issueKey y then x :: y :: ys else y :: insertIssue x ys

/-- The records that a replay issues or applies. -/
def replayed (b : LinBody) : Bool :=
  match b with
  | .step _ _ => true
  | .reseed _ _ => true
  | .table _ _ _ _ => true
  | b => b.isFrame

/-- The records of a Sleeve in the order of their issue. -/
def issueOrder (s : Nat) (rs : List (Nat × LinRec)) : List (Nat × LinRec) :=
  (rs.filter fun x => x.2.sleeve = s && replayed x.2.body).foldr insertIssue []

/-- Steps 1 and 2 of R369 on the replay Sleeve. -/
def Dev.loadReplay (d : Dev) (r : Replay) (sn : Snapshot) : Dev :=
  let s := r.data.replaySleeve
  let kept := d.tables.learn.cells.filter fun c => c.1 / 2 ^ 19 != s
  let learn := sn.learn.cells.map fun c => (s * 2 ^ 19 + c.1, c.2)
  let blocks := d.micro.custMem.filter fun c => !(c.1 / 4096 / 20 = s && d.holds r.tenancy 10 (c.1 % 4096 / 256))
  let mem := sn.custMem.foldl (fun m c => Mem.write m (s * 20 * 4096 + c.1 % (20 * 4096)) c.2) blocks
  let sus := d.tcam.suspects.filter fun k => k / 32768 != s
  let frags := d.parse.frags.filter fun k _ => k / 4096 != s
  let d := { d with
    tables := { d.tables with learn := ⟨learn ++ kept⟩ }
    micro := { d.micro with custMem := mem }
    tcam := { d.tcam with suspects := sus }
    parse := { d.parse with frags := frags }
    lining := { d.lining with replays := d.lining.replays ++ [r], reports := d.lining.reports.set r.tenancy [] } }
  let l := d.learner s
  d.setLearner s { l with queue := [], seed := sn.seed, seedEpoch := sn.seedEpoch }

/-- REPLAY_RUN (R369): it completes when the replay Sleeve is restored. -/
def execReplayRun (h : Hdr) (r : ReplayRunRec) (s : State) : Host.Outcome State Fault Refusal :=
  runMessage { code := 0x0F08, lenOk := exactly 24, maxBody := 56, canAsync := true, early := false } h
    (fun who d => checked (replayRunChecks who d r) d fun d =>
      match d.lining.captures.get? who.tenancy with
      | none => (.say .badState, d)
      | some c =>
        let sn := c.snapshots.get .empty r.liveSleeve
        let todo := issueOrder r.liveSleeve c.records
        let first := (todo.find? fun x => x.2.body.isFrame).map fun x => x.2.body.epoch
        let e := first.getD (d.vslot d.current).epoch
        let w := (d.worldAt e sn.salt).getD (d.liveWorld sn.salt)
        let loaded := if (d.worldAt e sn.salt).isSome then e else (d.vslot d.current).epoch
        let rp : Replay :=
          { tenancy := who.tenancy, token := who.tok, data := r, todo := todo, world := w, loaded := loaded,
            waiting := false, restoring := false, stopped := false, stepFix := 0, issued := 0, compared := 0,
            classes := [0, 0, 0, 0, 0] }
        (.wait, d.loadReplay rp sn)) s

/-- The packets of a replay, given up. -/
def Dev.dropReplay (d : Dev) (s : Nat) : Dev :=
  let fs := d.ports.frames.cells.filter fun c => c.2.sleeve = s && c.2.isReplay
  fs.foldl (fun d c =>
    let d := if c.2.flying then d.land c.2 else d
    (d.freeAll c.2.ownUnit c.2.pockets).dropFrame c.1) d

/-- REPLAY_ABORT (R371, Collisions): from the owner or the replay's tenancy. -/
def execReplayAbort (h : Hdr) (sleeve : Nat) (s : State) : Host.Outcome State Fault Refusal :=
  runMessage { code := 0x0F09, lenOk := exactly 1, maxBody := 0 } h (fun who d =>
    let mine := match d.replayOn sleeve with
      | some r => who.isOwner || (!who.isMaint && r.tenancy = who.tenancy)
      | none => !who.isMaint
    checked [(!mine, .notPermitted), (6 < sleeve, .badField), ((d.replayOn sleeve).isNone, .badState)] d fun d =>
      match d.replayOn sleeve with
      | some r =>
        let d := ((d.dropReplay sleeve).restoreSleeve r).raise 0x0F05 (ownerAnd r.tenancy) []
        (.say .ok, d.finish r.token .badState 0 [])
      | none => (.say .ok, d)) s

/-- REPLAY_REPORT_READ (R370): the oldest entries not read yet, 32 bytes each. -/
def execReplayReportRead (h : Hdr) (maxEntries : Nat) (s : State) : Host.Outcome State Fault Refusal :=
  runMessage { code := 0x0F0A, lenOk := exactly 2, maxBody := 2048, changes := false } h (fun who d =>
    checked [(who.isMaint, .notPermitted), (staleAllotment who d, .staleEpoch),
        (maxEntries = 0 || 64 < maxEntries, .badField)] d fun d =>
      let es := d.lining.reports.get [] who.tenancy
      let out := es.take maxEntries
      let d := { d with lining := { d.lining with reports := d.lining.reports.set who.tenancy (es.drop maxEntries) } }
      (.done .ok (32 * out.length) (out.flatMap fun e => [e.index, e.recorded, e.replayed, e.cls]), d)) s

end Sys2Proof.Machine
end

