-- ==== Sys2Proof/Machine/Gusset.lean ====
section
/-! DEFINITION. The Gusset and the persistent-store island (19). -/

namespace Sys2Proof.Machine

/-! ### Sensors and planning (R458 to R464) -/

/-- Whether firmware runs the Gusset's planning, on logical core L0 (R38, R427). -/
def Dev.planning (d : Dev) : Bool := (d.boot.stage = 2 || d.boot.stage = 3) && !d.mbx.absent.contains 0

/-- R458: baselines are taken once lifecycle bit 0 is blown. -/
def Dev.takesBaseline (d : Dev) : Bool := d.ten.lifecycle.testBit 0

/-- R460: the request computed from speed margins in tenths of a percent, the worst SRAM test, and the
present request. A site that nothing has measured takes no part, and without any the request moves to the floor only. -/
def planVoltage (slacks : List Int) (vmin v : Nat) : Nat :=
  let floor := max 650 (vmin + 50)
  let m := slacks.foldl min 1000000
  let v' := if slacks.isEmpty then v else if m < 20 then min (v + 5) 850 else if 40 < m && decide (floor + 5 ≤ v) then v - 5 else v
  max v' floor

/-- GUSSET_VOLTAGE_EVAL (R460): every 3,000,000 cycles, while planning is on and no 1 s hold stands. -/
def execGussetVoltageEval (s : State) : Host.Outcome State Fault Refusal :=
  running (fun d =>
    let g := d.gus
    if !d.planning || d.now < g.evalAt + 3000000 then d
    else
      let d := { d with gus := { g with evalAt := d.now } }
      if !d.island.config.flags.testBit 0 || g.holdUntil.any (d.now < ·) then d
      else
        let v := planVoltage (g.slacks.cells.map (·.2)) g.vminSram g.mv
        if v = g.mv then d
        else
          let d := d.inc (if g.mv < v then Ctr.avsUp else Ctr.avsDown) 0 0
          { d with gus := { d.gus with mv := v, requested := true, attempts := 0 } }) s

/-- PMBUS_READBACK (R460): within 10 mV confirms the request; the third failure holds the last confirmed
value for 1 s. -/
def execPmbusReadback (mv : Nat) (acked : Bool) (s : State) : Host.Outcome State Fault Refusal :=
  running (fun d =>
    let g := d.gus
    if !g.requested then d
    else if acked && g.mv ≤ mv + 10 && mv ≤ g.mv + 10 then
      { d with gus := { g with requested := false, attempts := 0, confirmed := g.mv } }
    else if g.attempts < 2 then { d with gus := { g with attempts := g.attempts + 1 } }
    else
      let d := { d with gus := { g with requested := false, attempts := 0, mv := g.confirmed,
                                        holdUntil := some (d.now + cyclesPerS) } }
      (d.inc .pmbusFail 0 0).raise 0x1302 ownerMaint [g.mv, g.confirmed]) s

/-- PMBUS_HOLDOFF_END (R460). -/
def execPmbusHoldoffEnd (s : State) : Host.Outcome State Fault Refusal :=
  running (fun d =>
    match d.gus.holdUntil with
    | some t => if t ≤ d.now then { d with gus := { d.gus with holdUntil := none } } else d
    | none => d) s

/-- PMBUS_ALERT (R517): the last request counts as unconfirmed, with two retries left. -/
def execPmbusAlert (s : State) : Host.Outcome State Fault Refusal :=
  running (fun d => { d with gus := { d.gus with requested := true, attempts := 1 } }) s

/-- The highest of two lists, sensor by sensor. -/
def maxEach (a b : List Int) : List Int :=
  (List.range (max a.length b.length)).map fun i =>
    match a[i]?, b[i]? with
    | some x, some y => max x y
    | some x, none => x
    | none, some y => y
    | none, none => 0

/-- The thermal shutdown of R459: DRAM in self-refresh, the core stopped, the post-mortem buffer told; the SMBus keeps
its values with bit 0 of FLAGS set (R515, R516). -/
def Dev.thermalShutdown (d : Dev) : Dev :=
  let sleep (_ : Nat) (c : DramChannel) : DramChannel :=
    if c.state = .active || c.state = .migrating then { c with state := .selfRefresh, srAt := some d.now } else c
  { d with
    power := .shutdown
    dram := { d.dram with channels := d.dram.channels.map sleep }
    island := { d.island with buffer := { d.island.buffer with shutdown := true } }
    board := { d.board with alert := true, sample := { d.board.sample with flags := setBit d.board.sample.flags 0 } } }

/-- THERMAL_SAMPLE (R459): 24 readings in quarters of a degree. -/
def execThermalSample (temps : List Int) (s : State) : Host.Outcome State Fault Refusal :=
  running (fun d =>
    let hot := temps.mapIdx fun i t => if 460 ≤ t then d.gus.hot.getD i 0 + 1 else 0
    let d := { d with gus := { d.gus with temps := temps, hot := hot, tMax := maxEach d.gus.tMax temps } }
    if hot.any fun n => 3 ≤ n then d.thermalShutdown else d) s

/-- The unit of a monitor site (Tables 19-1, 19-2). The DRAM interface is no unit of Table 19-2: the model
numbers it channel 6. -/
def siteUnit (site : Nat) : Nat × Nat :=
  if site < 42 then (1, site / 6)
  else if site < 50 then (6, site)
  else if site < 56 then (7, site - 50)
  else if site < 61 then (2, site - 56)
  else if site = 61 then (8, site)
  else if site = 62 then (9, site)
  else (3, 6)

/-- The recommendation of Table 19-2 for a unit kind. -/
def recommendation (kind : Nat) : Nat := if kind ≤ 3 then 1 else if kind ≤ 5 then 2 else 3

/-- RING_OSC_SAMPLE (R458, R465): a site's ratio and slack; 60 s below 2.0 % at 850 mV is end of margin. -/
def execRingOscSample (site ratio : Nat) (slack : Int) (s : State) : Host.Outcome State Fault Refusal :=
  running (fun d =>
    if 64 ≤ site then d
    else
      let low := slack < 20 && d.gus.mv = 850
      let from' := match d.gus.lowSince.get? site with
        | some t => t
        | none => d.now
      let ls := if low then d.gus.lowSince.set site from' else d.gus.lowSince.del site
      let d := { d with gus := { d.gus with ratios := d.gus.ratios.set site ratio,
                                            slacks := d.gus.slacks.set site slack, lowSince := ls } }
      let d := if d.takesBaseline && (d.island.baseRatio.get? site).isNone then
          { d with island := { d.island with baseRatio := d.island.baseRatio.set site ratio } }
        else d
      let u := siteUnit site
      let other (c : Nat × Nat) : Bool := c.1 != site && siteUnit c.1 == u && c.2 + 60 * cyclesPerS ≤ d.now
      if !low then (if d.gus.lowSince.cells.any other then d else d.withinMargin u.1 u.2)
      else if from' + 60 * cyclesPerS ≤ d.now then d.endOfMargin u.1 u.2 1 (recommendation u.1)
      else d) s

/-- SRAM_VMIN_TEST (R460, R465). -/
def execSramVminTest (mv : Nat) (s : State) : Host.Outcome State Fault Refusal :=
  running (fun d =>
    let d := { d with gus := { d.gus with vminSram := mv } }
    if 850 < mv + 50 then d.endOfMargin 10 0 2 3 else d.withinMargin 10 0) s

/-- R462: whether a lane of port `p` stays below 50 % of its baseline eye with every step used. -/
def Dev.eyeLost (d : Dev) (p lane : Nat) : Bool :=
  let m := (d.port p).cfg.mode
  match d.gus.eyes.get? lane, d.island.baseEye.get? (lane * 8 + m) with
  | some e, some b => decide (e * 100 < b * 50) && decide (Config.adaptSteps m ≤ d.gus.adapt.get 0 lane)
  | _, _ => false

/-- SERDES_ADAPT_STEP (R462): once a second for a lane of a port that is UP. -/
def execSerdesAdaptStep (lane eye : Nat) (s : State) : Host.Outcome State Fault Refusal :=
  running (fun d =>
    match d.portOfLane lane with
    | none => d
    | some p =>
      let early := match d.gus.adaptAt.get? lane with
        | some t => decide (d.now < t + cyclesPerS)
        | none => false
      if !d.isUp p || early then d
      else
        let m := (d.port p).cfg.mode
        let key := lane * 8 + m
        let d := { d with gus := { d.gus with eyes := d.gus.eyes.set lane eye,
                                              adaptAt := d.gus.adaptAt.set lane d.now } }
        let d := if d.takesBaseline && (d.island.baseEye.get? key).isNone then
            { d with island := { d.island with baseEye := d.island.baseEye.set key eye } }
          else d
        match d.island.baseEye.get? key with
        | none => d
        | some b =>
          let n := d.gus.adapt.get 0 lane
          let all := decide (Config.adaptSteps m ≤ n)
          let d := if eye * 100 < b * 70 && !all then
              { d with gus := { d.gus with adapt := d.gus.adapt.set lane (n + 1) } }
            else d
          if eye * 100 < b * 50 && all then d.endOfMargin 5 p 3 2
          else if (List.range 96).any fun l => l != lane && d.portOfLane l == some p && d.eyeLost p l then d
          else d.withinMargin 5 p) s

/-- The programmed rd_dq of lane `m` of a channel (Table 14-4). -/
def rdDq (c : DramChannel) (m : Nat) : Int := (bits (c.activeSet.lanes.get 0 m) 24 10 : Nat)

/-- R463: whether a channel's windows or centres call for a re-centring, and whether urgently. -/
def needsRecentring (d : Dev) (p : Nat) (ws : List Nat) (cs : List Int) : Bool × Bool :=
  let bs := d.island.baseWindow.get ws p
  let pairs := ws.zip bs
  let moved := (List.range cs.length).any fun m =>
    let x := cs.getD m 0 - rdDq (d.chan p) m
    decide (8 < x) || decide (8 < -x)
  (moved || pairs.any fun x => x.1 * 100 < x.2 * 60, pairs.any fun x => x.1 * 100 < x.2 * 40)

/-- DRAM_WINDOW_CHECK (R463): the windows of an active channel, and the start of a
re-centring, which is tried again after 60 s where no spare is free or the DRAM is busy. -/
def execDramWindowCheck (channel : Nat) (windows : List Nat) (centre : List Int) (s : State) :
    Host.Outcome State Fault Refusal :=
  running (fun d =>
    let c := d.chan channel
    if c.logical.isNone then d
    else
      let d := d.setChan channel { c with windows := windows }
      let d := { d with gus := { d.gus with windows := d.gus.windows.set channel windows,
                                            centres := d.gus.centres.set channel centre } }
      let d := if d.takesBaseline && (d.island.baseWindow.get? channel).isNone then
          { d with island := { d.island with baseWindow := d.island.baseWindow.set channel windows,
                                             baseCentre := d.island.baseCentre.set channel centre } }
        else d
      let need := needsRecentring d channel windows centre
      let rested := match d.gus.recentreAt.get? channel with
        | some t => decide (t + 86400 * cyclesPerS ≤ d.now)
        | none => true
      let early := (d.gus.retryAt.get? channel).any (d.now < ·)
      if !need.1 || !(rested || need.2) || !d.island.config.flags.testBit 1 || !d.planning || early then d
      else
        match d.spareChan, d.dramBusy with
        | some sp, false =>
          let d := { d with gus := { d.gus with recentreAt := d.gus.recentreAt.set channel d.now,
                                                retryAt := d.gus.retryAt.del channel } }
          d.migrate channel sp (d.now + 10000 * cyclesPerMs) none true
        | _, _ =>
          { d with gus := { d.gus with retryAt := d.gus.retryAt.set channel (d.now + 60 * cyclesPerS) } }) s

/-- Match-line steps that bank `k` has lost against its baseline. -/
def Dev.marginLost (d : Dev) (k : Nat) : Nat :=
  match d.gus.margins.get? k with
  | some m => d.island.baseMargin.get m k - m
  | none => 0

/-- TCAM_MARGIN_TEST (R464). -/
def execTcamMarginTest (sleeve bank steps : Nat) (s : State) : Host.Outcome State Fault Refusal :=
  running (fun d =>
    if 7 ≤ sleeve || 16 ≤ bank then d
    else
      let k := sleeve * 16 + bank
      let d : Dev := { d with gus := { d.gus with margins := d.gus.margins.set k steps } }
      let d : Dev := if d.takesBaseline && (d.island.baseMargin.get? k).isNone then
          { d with island := { d.island with baseMargin := d.island.baseMargin.set k steps } }
        else d
      let worst : Nat := ((List.range 16).map fun b => d.marginLost (sleeve * 16 + b)).foldl max 0
      let n : Int := (min worst 10 : Nat)
      let t := d.tcam.sleeves.get .reset sleeve
      let t := { t with threshold1 := min t.threshold1 (95 - n), threshold2 := min t.threshold2 (105 - n) }
      let d : Dev := { d with tcam := { d.tcam with sleeves := d.tcam.sleeves.set sleeve t } }
      if 12 < d.marginLost k then d.endOfMargin 4 k 3 2 else d.withinMargin 4 k) s

/-! ### Flash (R466, R467) -/

/-- The worst case of an operation in ms (Table 19-3). -/
def FlashOp.ms : FlashOp → Nat
  | .pageProgram => 3
  | .sectorErase => 400
  | .blockErase => 2000
  | .statusWrite => 15
  | .postmortem => 192

/-- The order of Table 19-3. -/
def FlashOp.code : FlashOp → Nat
  | .pageProgram => 0
  | .sectorErase => 1
  | .blockErase => 2
  | .statusWrite => 3
  | .postmortem => 4

/-- The order of start of R467. -/
def FlashUse.rank : FlashUse → Nat
  | .postmortem => 0
  | .bootEpoch _ => 1
  | .ownerKey _ _ => 2
  | .tenantKey _ _ => 2
  | .history _ => 3
  | .historySector => 3
  | .eraseSlot _ => 4
  | .image _ => 4
  | .serviceRecord _ => 4
  | .directory _ _ _ => 4

/-- An operation that goes on through a fundamental reset: no message waits for it any more (R510). -/
def FlashUse.forget : FlashUse → FlashUse
  | .ownerKey k _ => .ownerKey k none
  | .tenantKey r _ => .tenantKey r none
  | .image _ => .image none
  | .directory c d _ => .directory c d none
  | u => u

/-- The message that waits for an operation. -/
def FlashUse.token : FlashUse → Option Token
  | .ownerKey _ t => t
  | .tenantKey _ t => t
  | .image t => t
  | .directory _ _ t => t
  | _ => none

/-- The scale of V_hold: a code `c` is `c · 12 · hold_div / 40,960,000` V. -/
def holdScale : Nat := 40960000

/-- Twice E_avail, scaled so that R466's comparison is exact; 0 below the cut-off. -/
def holdEnergy (g : GusConfigRec) (code : Nat) : Nat :=
  let n := code * 12 * g.holdDiv
  g.capUf * g.effPct * (n * n * 1000000 - g.vcutMv * g.vcutMv * (holdScale * holdScale))

/-- E_need on the same scale. -/
def needEnergy (g : GusConfigRec) (op : FlashOp) : Nat :=
  g.pHoldMw * (op.ms + 1) * 250 * (holdScale * holdScale) * 1000000

/-- R466: whether the hold-up energy at a code finishes an operation. -/
def mayStart (g : GusConfigRec) (code : Nat) (op : FlashOp) : Bool :=
  decide (g.vcutMv * holdScale < code * 12 * g.holdDiv * 1000) && decide (needEnergy g op ≤ holdEnergy g code)
    && decide (0 < g.capUf)

/-- E_avail and E_need in mJ. -/
def availMj (g : GusConfigRec) (code : Nat) : Nat := holdEnergy g code / (200000000000 * (holdScale * holdScale))
def needMj (g : GusConfigRec) (op : FlashOp) : Nat := g.pHoldMw * (op.ms + 1) * 125 / 100000

/-- The next pre-erased post-mortem slot, if one exists. -/
def Dev.freeSlot (d : Dev) : Option Nat :=
  (List.range 4).find? fun i => (d.island.slots.get? i).isNone &&
    !(d.island.waiting.any fun r => r.use == .eraseSlot i)

/-- The waiting operation that starts next, among those `p` picks. -/
def nextFlash (p : FlashReq → Bool) (w : List FlashReq) : Option FlashReq :=
  (List.range 5).findSome? fun k => w.find? fun r => r.use.rank = k && p r

/-- An operation starts; at the first erase of a FW_STORE its area holds no image any more, and its message completes
(R493). -/
def Dev.startFlash (d : Dev) (r : FlashReq) : Dev :=
  let d := { d with island := { d.island with waiting := d.island.waiting.erase r, busy := some r } }
  match r.use with
  | .image t =>
    let d : Dev := match d.boot.storing with
      | some w => { d with island := { d.island with images := d.island.images.del w.area } }
      | none => d
    match t with
    | some t => d.finish t .ok 0 []
    | none => d
  | _ => d

/-- A post-mortem sequence that writes nothing. -/
def Dev.losePostmortem (d : Dev) : Dev :=
  let w := d.island.waiting.filter fun r => r.use != .postmortem
  { d with island := { d.island with waiting := w } }.inc .postmortemLost 0 0

/-- The check of R466 on one waiting operation: it starts, or is deferred for 10 ms; a post-mortem write
that fails it is lost (R468). -/
def Dev.checkFlash (d : Dev) (code : Nat) (r : FlashReq) : Dev :=
  let g := d.island.config
  if r.use = .postmortem then
    if mayStart g code r.op && d.freeSlot.isSome then d.startFlash r else d.losePostmortem
  else if mayStart g code r.op then d.startFlash r
  else
    let put (x : FlashReq) : FlashReq := if x == r then { x with recheckAt := some (d.now + 10 * cyclesPerMs) } else x
    let d := { d with island := { d.island with waiting := d.island.waiting.map put } }
    (d.inc .flashDeferrals 0 0).raiseFirst 0x1303 0 0 ownerMaint [r.op.code, availMj g code, needMj g r.op]

/-- FLASH_OP_CHECK (R466): the first operation in order that is not deferred. -/
def execFlashOpCheck (code : Nat) (s : State) : Host.Outcome State Fault Refusal :=
  always (fun d =>
    if d.island.busy.isSome then d
    else
      match nextFlash (fun r => r.recheckAt.isNone) d.island.waiting with
      | some r => d.checkFlash code r
      | none => d) s

/-- FLASH_DEFER_RECHECK (R466): the first deferred operation whose 10 ms are over. -/
def execFlashDeferRecheck (code : Nat) (s : State) : Host.Outcome State Fault Refusal :=
  always (fun d =>
    let due (r : FlashReq) : Bool := match r.recheckAt with
      | some t => decide (t ≤ d.now)
      | none => false
    if d.island.busy.isSome then d
    else
      match nextFlash due d.island.waiting with
      | some r => d.checkFlash code r
      | none => d) s

/-- A tenant's key record as flash holds it. -/
def keyRecords (t : Tab Nat) (r : TenantEnrolRec) : Tab Nat :=
  if r.flags.testBit 0 then t.del r.tenancy else t.set r.tenancy r.key

/-- R469: the erase of one post-mortem slot whose record has been reported, the lowest first. -/
def Dev.eraseNext (d : Dev) : Dev :=
  match (List.range 4).find? fun k => (d.island.slots.get? k).any (·.reported) with
  | some k => d.flashWait .sectorErase (.eraseSlot k)
  | none => d

/-- What a finished operation has written. -/
def Dev.flashDone (d : Dev) (u : FlashUse) : Dev :=
  let i := d.island
  match u with
  | .postmortem =>
    match d.freeSlot with
    | some k =>
      let r : PmRecord := { bootEpoch := i.epoch, buffer := i.buffer, dip := !i.powerFail, reported := false }
      { d with island := { i with slots := i.slots.set k r } }.inc .postmortemWritten 0 0
    | none => d
  | .bootEpoch v => { d with island := { i with epoch := v } }
  | .ownerKey k t =>
    let d := { d with island := { i with ownerKey := some k } }
    match t with
    | some t => { d with ten := { d.ten with ownerKey := some k } }.finish t .ok 0 []
    | none => d
  | .tenantKey r t =>
    let d := { d with island := { i with tenantKeys := keyRecords i.tenantKeys r } }
    match t with
    | some t =>
      ({ d with ten := { d.ten with tenantKeys := keyRecords d.ten.tenantKeys r } }.finish t .ok 0 []).raise 0x1002
        [.owner] []
    | none => d
  | .history r =>
    let h := i.history ++ [r]
    if r.kind = 0 then { d with island := { i with baseline := some r } }
    else { d with island := { i with history := h.drop (h.length - 16384) } }.inc .historyRecords 0 0
  | .historySector => d
  | .eraseSlot k => { d with island := { i with slots := i.slots.del k } }.eraseNext
  | .image _ => d
  | .serviceRecord l => { d with island := { i with service := l } }
  | .directory c dir t =>
    let d := { d with island := if c = 0 then { i with dir0 := dir } else { i with dir1 := dir } }
    match t with
    | some t => d.finish t .ok 0 []
    | none => d

/-- FLASH_OP_COMPLETE (R466). -/
def execFlashOpComplete (s : State) : Host.Outcome State Fault Refusal :=
  always (fun d =>
    match d.island.busy with
    | some r => { d with island := { d.island with busy := none } }.flashDone r.use
    | none => d) s

/-- A waiting operation given up: its message completes with TIMEOUT, and a FW_STORE ends. -/
def Dev.abandonFlash (d : Dev) (r : FlashReq) : Dev :=
  let d := { d with island := { d.island with waiting := d.island.waiting.erase r } }
  let d : Dev := match r.use with
    | .image _ => { d with boot := { d.boot with storing := none } }
    | _ => d
  match r.use.token with
  | some t => d.finish t .timeout 0 []
  | none => d

/-- FLASH_WRITE_DEADLINE (R467): messages whose write has waited 10 s complete with TIMEOUT. -/
def execFlashWriteDeadline (s : State) : Host.Outcome State Fault Refusal :=
  running (fun d =>
    let late := d.island.waiting.filter fun r => r.use.token.isSome && r.since + 10 * cyclesPerS ≤ d.now
    late.foldl (fun d r => d.abandonFlash r) d) s

/-! ### Power failure (R468) -/

/-- POWER_FAIL_ASSERT (R468): after an operation in progress has finished, or now, the buffer is written
where the check with a fresh code passes. -/
def execPowerFailAssert (code : Nat) (s : State) : Host.Outcome State Fault Refusal :=
  always (fun d =>
    if d.island.powerFail then d
    else
      let r : FlashReq := { op := .postmortem, use := .postmortem, since := d.now, recheckAt := none }
      let d := { d with island := { d.island with powerFail := true,
                                                  waiting := d.island.waiting ++ [r] } }
      if d.island.busy.isSome then d else d.checkFlash code r) s

/-- POWER_FAIL_DEASSERT (R468): a record of this sequence that is written already is marked as a dip. -/
def execPowerFailDeassert (s : State) : Host.Outcome State Fault Refusal :=
  always (fun d =>
    if !d.island.powerFail then d
    else
      let mark (_ : Nat) (r : PmRecord) : PmRecord :=
        if !r.reported && r.bootEpoch = d.island.epoch then { r with dip := true } else r
      { d with island := { d.island with powerFail := false, slots := d.island.slots.map mark } }) s

/-- The messages in progress, oldest first. -/
def Dev.inProgress (d : Dev) : List Token :=
  allFns.flatMap fun f => (d.mbox f).busy.toList ++ (d.mbox f).asyncs

/-- POSTMORTEM_BUFFER_REFRESH (R468). -/
def execPostmortemBufferRefresh (s : State) : Host.Outcome State Fault Refusal :=
  running (fun d =>
    if !d.planning then d
    else
      let b : PmBuffer :=
        { time := d.stamp, events := d.gus.events, effects := d.inProgress.drop (d.inProgress.length - 8), voltage := d.gus.mv,
          temps := d.gus.temps, channels := (List.range 6).map fun p => (d.chan p).state.code,
          units := d.ten.units, shutdown := false }
      { d with island := { d.island with buffer := b } }) s

/-! ### The ageing history (R470) -/

/-- A site's ageing in 0.01 % (R458). -/
def Dev.ageing (d : Dev) (site : Nat) : Nat :=
  match d.gus.ratios.get? site, d.island.baseRatio.get? site with
  | some r, some b => if b = 0 then 0 else (b - r) * 10000 / b
  | _, _ => 0

/-- The lanes below 70 % of their baseline eye. -/
def Dev.weakLanes (d : Dev) : List Nat :=
  (List.range 96).filter fun l =>
    match d.portOfLane l with
    | none => false
    | some p =>
      match d.gus.eyes.get? l, d.island.baseEye.get? (l * 8 + (d.port p).cfg.mode) with
      | some e, some b => decide (e * 100 < b * 70)
      | _, _ => false

/-- A mask of bits. -/
def maskOf (l : List Nat) : Nat := l.foldl setBit 0

/-- Unit kinds at end of margin. -/
def Dev.eomMask (d : Dev) : Nat :=
  maskOf ((d.gus.eom.cells.filter fun c => c.2.at').map fun c => c.1 / 4096)

/-- SYS_UPTIME in microseconds. -/
def Dev.uptimeUs (d : Dev) : Nat := d.now / cyclesPerUs

/-- SYS_FW_BEAT: the milliseconds that Quesin firmware has run (32 bits). -/
def Dev.fwBeat (d : Dev) : Nat := (d.now - d.host.beatFrom.getD d.now) / cyclesPerMs % 2 ^ 32

/-- A history record now (Table 19-4). -/
def Dev.historyRec (d : Dev) (kind : Nat) : HistoryRec :=
  { bootEpoch := d.cipher.bootEpoch, kind := kind, voltage := d.gus.mv, uptimeUs := d.uptimeUs,
    seconds := if d.hem.mode = .freerun then 0 else d.stamp.sec, vminSram := d.gus.vminSram,
    ageing := (List.range 64).map d.ageing, tMax := d.gus.tMax,
    tcamMargin := (List.range 7).map fun s => ((List.range 16).map fun b => d.marginLost (s * 16 + b)).foldl max 0,
    dram := (List.range 6).map fun p => match (d.gus.windows.get [] p) with
      | [] => 0
      | w :: ws => ws.foldl min w
    serdes := maskOf d.weakLanes, eom := d.eomMask }

/-- HISTORY_APPEND (R458, R470): a periodic record every 6 h, and one for each of the other kinds when its row comes;
every sixteenth record erases the sector ahead. The baseline, which is taken once, stands outside the ring. -/
def execHistoryAppend (kind : Nat) (s : State) : Host.Outcome State Fault Refusal :=
  running (fun d =>
    if !d.planning || 3 < kind || (kind = 0 && (!d.takesBaseline || d.island.baseline.isSome)) || (kind = 1 && d.now < d.gus.historyAt + 21600 * cyclesPerS) then d
    else
      let r := d.historyRec kind
      let d := { d with gus := { d.gus with tMax := [], historyAt := if kind = 1 then d.now else d.gus.historyAt } }
      let d := if kind != 0 && d.island.history.length % 16 = 15 then d.flashWait .sectorErase .historySector else d
      d.flashWait .pageProgram (.history r)) s

/-! ### Messages (R471) -/

/-- What GUS_CONFIG_SET checks. -/
def gusConfigChecks (who : Sender) (r : GusConfigRec) : List (Bool × Status) :=
  [(!who.isOwner, .notPermitted),
   (r.pmbusAddr < 8 || 0x77 < r.pmbusAddr || r.capUf < 100 || 1000000 < r.capUf || r.vcutMv < 1000 ||
      20000 < r.vcutMv || r.holdDiv < 1000 || 50000 < r.holdDiv || r.pHoldMw < 50 || 5000 < r.pHoldMw ||
      r.effPct < 50 || 100 < r.effPct, .badField)]

/-- GUS_CONFIG_SET (R471). -/
def execGusConfigSet (h : Hdr) (r : GusConfigRec) (s : State) : Host.Outcome State Fault Refusal :=
  runMessage { code := 0x1301, lenOk := exactly 16, maxBody := 0 } h (fun who d =>
    setting (gusConfigChecks who r) d fun d => { d with island := { d.island with config := r } }) s

/-- A temperature as a number of quarters above -40 °C. -/
def tempCode (t : Int) : Nat := (t + 160).toNat

/-- The fields of a history record as a reading returns them. -/
def historyFields (r : HistoryRec) : List Nat :=
  [r.bootEpoch, r.kind, r.voltage, r.uptimeUs, r.seconds, r.vminSram] ++ r.ageing ++ r.tMax.map tempCode ++
    r.tcamMargin ++ r.dram ++ [r.serdes, r.eom]

/-- The junction temperature in quarters of a degree (R459), if it has been sampled. -/
def Dev.junction (d : Dev) : Option Int :=
  match d.gus.temps with
  | [] => none
  | t :: ts => some (ts.foldl max t)

/-- GUS_STATUS_GET (R471). E_avail needs a measurement of HOLDUP_SENSE, which no rule gives a value: its
code is free. -/
def execGusStatusGet (h : Hdr) (s : State) : Host.Outcome State Fault Refusal :=
  runMessage { code := 0x1302, lenOk := exactly 0, maxBody := 2048, changes := false } h (fun who d =>
    checked [(who.role == .tenant, .notPermitted)] d fun d =>
      let x := d.draw
      let d := x.2
      let tj := match d.junction with
        | some t => tempCode t
        | none => 0
      let bands := (List.range 7).map fun k => (d.tcam.sleeves.get .reset k).band
      let slacks := (List.range 64).map fun k => ((d.gus.slacks.get 0 k) + 1000).toNat
      let e := availMj d.island.config (Config.freeWord x.1 % 4096)
      (.list (historyFields (d.historyRec 1) ++ [tj] ++ bands ++ slacks ++ [e]), d)) s

/-- GUS_HISTORY_READ (R471): `count` records from index `first` on, oldest kept first. -/
def execGusHistoryRead (h : Hdr) (first count : Nat) (s : State) : Host.Outcome State Fault Refusal :=
  runMessage { code := 0x1303, lenOk := exactly 6, maxBody := 15360, changes := false } h (fun who d =>
    checked [(who.role == .tenant, .notPermitted), (count = 0 || 60 < count, .badField)] d fun d =>
      let rs := (d.island.history.drop first).take count
      (.done .ok (256 * rs.length) (rs.flatMap historyFields), d)) s

/-- GUS_POSTMORTEM_READ (R471). -/
def execGusPostmortemRead (h : Hdr) (slot : Nat) (s : State) : Host.Outcome State Fault Refusal :=
  runMessage { code := 0x1304, lenOk := exactly 1, maxBody := 16288, changes := false } h (fun who d =>
    checked [(who.role == .tenant, .notPermitted), (3 < slot, .badField)] d fun d =>
      match d.island.slots.get? slot with
      | some r =>
        let b := r.buffer
        let events := (List.range 3).flatMap fun k => (b.events.get [] k).flatMap fun e => e.code :: e.body
        (.list ([r.bootEpoch, b.time.sec, b.time.ns, b2n r.dip, b2n b.shutdown, b.voltage] ++ b.temps.map tempCode ++
          b.channels ++ b.effects.map (·.seq) ++ events), d)
      | none => (.list [], d)) s

end Sys2Proof.Machine
end

