-- ==== Sys2Proof/Machine/EndOps.lean ====
section
/-! DEFINITION. What other chapters ask of the host endpoint (18): reads of host memory and their tags. -/

namespace Sys2Proof.Machine

/-- R445: the timeout in cycles that a Completion Timeout Value selects; reserved encodings never stand in
the field. -/
def ctoCycles : Nat → Nat
  | 0 => 50 * cyclesPerMs
  | 1 => 100 * cyclesPerUs
  | 2 => 10 * cyclesPerMs
  | 5 => 55 * cyclesPerMs
  | 6 => 210 * cyclesPerMs
  | 9 => 900 * cyclesPerMs
  | 10 => 3500 * cyclesPerMs
  | 13 => 13 * cyclesPerS
  | 14 => 64 * cyclesPerS
  | _ => 50 * cyclesPerMs

/-- The encodings of the Completion Timeout Value (R445). -/
def ctoKnown (v : Nat) : Bool := [0, 1, 2, 5, 6, 9, 10, 13, 14].contains v

/-- Whether function `f` may issue requests (R449). -/
def Dev.mayRequest (d : Dev) (f : Nat) : Bool :=
  (d.fend f).busMaster && !(d.fend f).d3hot && !(d.fend f).teardown && !(d.mbox f).hostLost

/-- A tag that is neither outstanding nor in quarantine; 512 in all (Table 18-1, R446). -/
def Dev.freeTag (d : Dev) : Option Nat :=
  (List.range 512).find? fun t => !(d.host.reads.any fun r => r.tag = t) && !(d.host.quarantine.any fun q => q.1 = t)

/-- A DMA read of function `f` for a unit (0 request rings, 1 messages, 2 the bulk cipher): it takes a tag,
or waits for one. -/
def Dev.dmaRead (d : Dev) (f unit : Nat) (use : DmaUse) : Dev :=
  let r : DmaRead := { tag := 0, fn := f, unit := unit, issued := d.now, timeout := ctoCycles (d.fend f).ctoValue, use := use, arrived := none, discard := false }
  match d.freeTag with
  | some t =>
    { d with host := { d.host with reads := d.host.reads ++ [{ r with tag := t }] } }.inc .dmaReads f 0
  | none => { d with host := { d.host with waitingReads := d.host.waitingReads ++ [r] } }

/-- Reads that wait take the tags that have become free. -/
def Dev.issueWaiting (d : Dev) : Dev :=
  match d.host.waitingReads, d.freeTag with
  | r :: rs, some t =>
    let r' : DmaRead := { r with tag := t, issued := d.now, timeout := ctoCycles (d.fend r.fn).ctoValue }
    { d with host := { d.host with waitingReads := rs, reads := d.host.reads ++ [r'] } }.inc .dmaReads r.fn 0
  | _, _ => d

/-- A message that goes on when the data it reads from host memory has come. -/
def fetching (who : Sender) (unit : Nat) (work : Deferred) (d : Dev) : Reply × Dev :=
  if d.mayRequest who.fn then (.wait, d.dmaRead who.fn unit (.message who.tok work))
  else (.say .busMasterOff, d)

end Sys2Proof.Machine
end

