-- ==== Sys2Proof/Machine/Micro.lean ====
section
/-! DEFINITION. Stage engines (08): loading, accepting and activating customer images, customer memory,
the scrub walker, and the drain of the overlays. -/

namespace Sys2Proof.Machine

/-! ### The word checks of R219 -/

/-- The destination registers of an ALU slot. -/
def aluDsts (slot : Nat) : List Nat :=
  let op := bits slot 26 6
  if op = 0 || op = 13 || op = 14 then [] else [bits slot 22 4]

/-- The destination registers of a context slot. -/
def ctxDsts (slot : Nat) : List Nat :=
  if [1, 2, 4, 5].contains (bits slot 29 3) then [bits slot 25 4] else []

/-- The destination registers of a table slot. -/
def tblDsts (slot : Nat) : List Nat :=
  let res := bits slot 14 4
  match bits slot 28 4 with
  | 1 => [res]
  | 2 => [res]
  | 3 => (List.range (bits slot 12 2 + 1)).map fun i => (res + i) % 16
  | 5 => (List.range (bits slot 12 2 + 1)).map fun i => (res + i) % 16
  | _ => []

/-- R205: no destination twice, and at most one slot that sets the flags. -/
def slotsAgree (w : BitVec 256) : Bool :=
  let a0 := wordBits w 200 32
  let a1 := wordBits w 168 32
  let ds := aluDsts a0 ++ aluDsts a1 ++ ctxDsts (wordBits w 136 32) ++ tblDsts (wordBits w 104 32)
  ds.eraseDups.length = ds.length &&
    !(bits a0 26 6 != 0 && bit a0 0 && bits a1 26 6 != 0 && bit a1 0)

/-- The context slots open to customer words, as far as the word fixes them (Tables 8-7, 8-10). -/
def ctxOpen (stage slot : Nat) : Bool :=
  let pos := bits slot 16 9
  let n := bits slot 10 6 + 1
  let b := bits slot 6 4
  bits slot 0 6 = 0 &&
  (match bits slot 29 3 with
   | 1 => b = 0
   | 2 => b = 0
   | 3 => b = 0 && 64 ≤ pos && pos + n ≤ 192
   | 4 => b ≤ 6
   | 5 => b = 0 && 12 ≤ stage
   | 6 => b = 0 && 14 ≤ stage && stage ≤ 16
   | 7 => false
   | _ => b = 0)

/-- The table slots open to customer words (Tables 8-8, 8-10). -/
def tblOpen (stage slot : Nat) : Bool :=
  let table := bits slot 24 4
  bits slot 0 3 = 0 && table ≤ 10 &&
  (match bits slot 28 4 with
   | 0 => true
   | 1 => true
   | 2 => true
   | 3 => (table = 1 && stage = 6) || (table = 2 && stage = 7)
   | 5 => table = 0 || (table = 6 && stage = 12)
   | 6 => table = 0
   | 7 => table = 0
   | 8 => table = 0
   | _ => false)

/-- One word of a customer image at its address of a stage: region, encodings, directions and accesses. -/
def wordOk (stage addr : Nat) (w : BitVec 256) : Bool :=
  let ctl := wordBits w 250 6
  let target := wordBits w 234 12
  stage < 20 && 2560 ≤ addr && addr < 4096 && wordBits w 0 8 = 0 &&
  [0, 1, 2, 4, 5, 6].contains ctl &&
  (ctl != 1 || (addr < target && 2560 ≤ target)) &&
  (ctl != 5 || (2560 ≤ target && target % 2 = 0)) &&
  bits (wordBits w 200 32) 26 6 ≤ 20 && bits (wordBits w 168 32) 26 6 ≤ 20 &&
  ctxOpen stage (wordBits w 136 32) && tblOpen stage (wordBits w 104 32) && slotsAgree w

/-- The word of an image at an address of a stage. -/
def imageWord (img : UcodeImage) (stage addr : Nat) : Option (BitVec 256) :=
  (img.words.find? fun w => w.1 = stage && w.2.1 = addr).map fun w => w.2.2

/-- Where a word may send its routine: the words after it, `next` standing for the one in order. -/
def wordExits (w : BitVec 256) (next : List Nat) : List Nat :=
  let cond := wordBits w 246 4
  let taken : List Nat := if wordBits w 250 6 = 1 then [wordBits w 234 12] else []
  let ctl := wordBits w 250 6
  if cond = 15 || ctl = 0 then next
  else if cond = 0 then taken
  else taken ++ next

/-- The longest path in word cycles from an address, or more than any stage has room for where it leaves
the image's words: one word a cycle, or a pair. -/
def longestPath (img : UcodeImage) (stage : Nat) (deep : Bool) : Nat → Nat → Nat
  | 0, _ => 100
  | fuel + 1, a =>
    let a := if deep then a - a % 2 else a
    let exits : Option (List Nat) :=
      match imageWord img stage a with
      | none => none
      | some w =>
        if deep then
          match imageWord img stage (a + 1) with
          | none => none
          | some v => some (wordExits w (wordExits v [a + 2]))
        else some (wordExits w [a + 1])
    match exits with
    | none => 100
    | some l => 1 + (l.map (longestPath img stage deep fuel)).foldl max 0

/-- The residence of a bound path (R199): transfer, vendor words and the longest customer path. -/
def residenceOf (img : UcodeImage) (b : Binding) : Nat :=
  let v := vendorCycles.getD b.stage (8, 8)
  let deep := b.profile = 1
  1 + (if deep then v.2 else v.1) + longestPath img b.stage deep 9 b.word

/-- A binding that the manifest may hold. -/
def bindingOk (img : UcodeImage) (b : Binding) : Bool :=
  b.tenancy < 16 && b.stage < 20 && b.profile < 2 && 2560 ≤ b.word && b.word < 4096 &&
    (b.profile = 0 || b.word % 2 = 0) && residenceOf img b ≤ 9

/-- The tail that a continuation resumes at, in pair form, fits its stage. -/
def contOk (img : UcodeImage) (stage : Nat) (w : BitVec 256) : Bool :=
  wordBits w 250 6 != 5 ||
    longestPath img stage true 9 (wordBits w 234 12) ≤ custRoom stage true

/-- R219: the first word or binding that fails, as stage and address. -/
def imageFault (img : UcodeImage) : Option (Nat × Nat) :=
  match img.words.find? fun w => !(wordOk w.1 w.2.1 w.2.2 && contOk img w.1 w.2.2) with
  | some w => some (w.1, w.2.1)
  | none => (img.bindings.find? fun b => !bindingOk img b).map fun b => (b.stage, b.word)

/-! ### UCODE_LOAD -/

/-- The digests whose words are in use: those of the active generation and, while one drains, of the
other. -/
def Dev.digestsInUse (d : Dev) : List Nat :=
  let m := d.micro
  m.genDigest.get 0 m.generation ::
    (match m.activation with
     | some a => [m.genDigest.get 0 a.old]
     | none => [])

/-- Whether two images share a word's place. -/
def imagesOverlap (a b : List (Nat × Nat × BitVec 256)) : Bool :=
  a.any fun x => b.any fun y => x.1 = y.1 && x.2.1 = y.2.1

/-- Whether an image fits beside the words in use (R221). -/
def Dev.imageFits (d : Dev) (img : UcodeImage) : Bool :=
  !(d.micro.images.any fun i => d.digestsInUse.contains i.digest && imagesOverlap i.words img.words)

/-- The verdict on an image whose data has come, up to the last check of R223. -/
def Dev.imageVerdict (d : Dev) (img : UcodeImage) : Option (Status × List Nat) :=
  if !img.sigOk then some (.badSeal, [])
  else
    match imageFault img with
    | some (st, a) => some (.badField, [st, a])
    | none => if !d.imageFits img then some (.noSpace, []) else none

/-- The image written into the stores of all Sleeves; images that it overwrites are no longer loaded. -/
def Dev.storeImage (d : Dev) (img : UcodeImage) : Dev :=
  let l : LoadedImage := { digest := img.digest, words := img.words, bindings := img.bindings,
                           residences := img.bindings.map (residenceOf img), accepted := [] }
  let keep := d.micro.images.filter fun i => !(i.digest = img.digest || imagesOverlap i.words img.words)
  let stores := img.words.foldl (fun t w => t.set (w.1 * 4096 + w.2.1) w.2.2) d.micro.stores
  { d with micro := { d.micro with stores := stores, images := keep ++ [l] } }

/-- UCODE_LOAD once its image has come (R219): the digest and the residence of every bound path. -/
def Dev.loadImage (d : Dev) (tok : Token) (img : UcodeImage) : Dev :=
  let d := { d with micro := { d.micro with loading := false } }
  match d.imageVerdict img with
  | some (st, l) => d.finish tok st (8 * l.length) l
  | none =>
    let rs := img.bindings.map (residenceOf img)
    (d.storeImage img).finish tok .ok (min (48 + 8 * rs.length) 2048) (img.digest :: rs)

/-- R223: what UCODE_LOAD checks before it reads its image. -/
def ucodeLoadChecks (who : Sender) (d : Dev) (r : UcodeLoadRec) (img : UcodeImage) : List (Bool × Status) :=
  let verdict := d.imageVerdict img
  [(!who.isOwner, .notPermitted), (r.imageLen < 64 || 4194304 < r.imageLen, .badField),
   (d.micro.loading && verdict.isSome, (verdict.getD (.slotBusy, [])).1),
   (d.micro.loading, .slotBusy)]

/-- UCODE_LOAD. -/
def execUcodeLoad (h : Hdr) (r : UcodeLoadRec) (img : UcodeImage) (s : State) :
    Host.Outcome State Fault Refusal :=
  runMessage { code := 0x0801, lenOk := exactly 16, maxBody := 2048, canAsync := true } h (fun who d =>
    checked (ucodeLoadChecks who d r img) d fun d =>
      match fetching who 1 (.ucodeLoad r img) d with
      | (.wait, d) => (.wait, { d with micro := { d.micro with loading := true } })
      | x => x) s

/-! ### UCODE_ACCEPT and UCODE_ACTIVATE (R221, R222) -/

/-- A loaded image by its digest. -/
def Dev.image (d : Dev) (digest : Nat) : Option LoadedImage :=
  d.micro.images.find? fun i => i.digest = digest

/-- The hook tables of generation `g` without those entries that `p` picks (tenancy). -/
def hooksWithout (h : Tab Nat) (g : Nat) (p : Nat → Bool) : Tab Nat :=
  h.filter fun k _ => !(k / 640 = g && p (k / 40 % 16))

/-- R222: the entries of tenancy `t` of the active generation set to none, through a switch of generations,
or in place while an earlier generation still drains. -/
def Dev.revoke (d : Dev) (t : Nat) : Dev :=
  let m := d.micro
  let g := m.generation
  if m.activation.isSome then
    { d with micro := { m with hooks := hooksWithout m.hooks g (· = t) } }
  else
    let n := 1 - g
    let own := (m.hooks.filter fun k _ => k / 640 = g && k / 40 % 16 != t).cells.map fun c =>
      (c.1 % 640 + n * 640, c.2)
    let rest := (hooksWithout m.hooks n fun _ => true).cells
    { d with micro := { m with
        hooks := ⟨own ++ rest⟩, generation := n, genDigest := m.genDigest.set n (m.genDigest.get 0 g),
        activation := some { token := none, old := g, deadline := d.now } } }

/-- Tenancy `t`'s acceptance of a loaded image given or taken back. -/
def LoadedImage.accept (i : LoadedImage) (t : Nat) (on : Bool) : LoadedImage :=
  { i with accepted := if on then (if i.accepted.contains t then i.accepted else t :: i.accepted)
                       else i.accepted.filter (· != t) }

/-- The customer-memory epoch of a tenancy. -/
def Dev.custEpoch (d : Dev) (t : Nat) : Nat :=
  match d.held t 10 with
  | b :: _ => (d.unit 10 b).epoch
  | [] => 0

/-- R223: what UCODE_ACCEPT checks. -/
def ucodeAcceptChecks (who : Sender) (d : Dev) (r : UcodeAcceptRec) : List (Bool × Status) :=
  [(who.tenancy = 0, .notPermitted), (!(d.held who.tenancy 10).isEmpty && who.stale (d.custEpoch who.tenancy), .staleEpoch),
   ((d.image r.digest).isNone, .badState)]

/-- UCODE_ACCEPT (R222); the acceptance stands in flash (Table 20-3). -/
def execUcodeAccept (h : Hdr) (r : UcodeAcceptRec) (s : State) : Host.Outcome State Fault Refusal :=
  runMessage { code := 0x0802, lenOk := exactly 52, maxBody := 0 } h (fun who d =>
    setting (ucodeAcceptChecks who d r) d fun d =>
      let on := !r.flags.testBit 0
      let images := d.micro.images.map fun i =>
        if i.digest = r.digest then i.accept who.tenancy on else i
      let others := d.island.accepts.filter (· != (who.tenancy, r.digest))
      let d := { d with
        micro := { d.micro with images := images }
        island := { d.island with accepts := if on then (who.tenancy, r.digest) :: others else others } }
      if !on && d.activeDigest = r.digest then d.revoke who.tenancy else d) s

/-- R223: what UCODE_ACTIVATE checks. -/
def ucodeActivateChecks (who : Sender) (d : Dev) (r : UcodeActivateRec) : List (Bool × Status) :=
  let bad : Bool := match d.image r.digest with
    | some i => i.bindings.any fun b => b.tenancy != 0 && !i.accepted.contains b.tenancy
    | none => r.digest != 0
  [(!who.isOwner, .notPermitted), (r.deadlineMs < 1 || 10000 < r.deadlineMs, .badField),
   (d.micro.activation.isSome, .slotBusy), (bad, .badState)]

/-- The hook entries of an image in generation `g`. -/
def imageHooks (g : Nat) (i : Option LoadedImage) : List (Nat × Nat) :=
  match i with
  | some i => i.bindings.map fun b => (hookKey g b.tenancy b.stage (b.profile = 1), b.word)
  | none => []

/-- UCODE_ACTIVATE (R221): the generation that every arbiter stamps switches; the response waits until the
old one has drained. -/
def execUcodeActivate (h : Hdr) (r : UcodeActivateRec) (s : State) : Host.Outcome State Fault Refusal :=
  runMessage { code := 0x0803, lenOk := exactly 52, maxBody := 0, canAsync := true } h (fun who d =>
    checked (ucodeActivateChecks who d r) d fun d =>
      let m := d.micro
      let n := 1 - m.generation
      let rest := (hooksWithout m.hooks n fun _ => true).cells
      let a : Activation := { token := some who.tok, old := m.generation,
                              deadline := d.now + r.deadlineMs * cyclesPerMs }
      let d := { d with micro := { m with
        hooks := ⟨imageHooks n (d.image r.digest) ++ rest⟩, generation := n,
        genDigest := m.genDigest.set n r.digest, activation := some a } }
      let d := (List.range 7).foldl
        (fun d s => d.mark s .slot (fun _ _ => true) (.hook r.digest)) d
      (.wait, d)) s

/-- Whether a packet of hook generation `g` is in flight. -/
def Dev.hookInFlight (d : Dev) (g : Nat) : Bool :=
  d.ports.frames.cells.any fun c =>
    let f := c.2
    (0 < phaseRank f.phase || 0 < f.pass) && phaseRank f.phase ≤ phaseRank .recirc &&
      fld f.side sHookGen = g

/-- HOOK_GEN_DRAINED (R221). -/
def execHookGenDrained (s : State) : Host.Outcome State Fault Refusal :=
  running (fun d =>
    match d.micro.activation with
    | none => d
    | some a =>
      if d.hookInFlight a.old then d
      else
        let m := d.micro
        let d := { d with micro := { m with hooks := hooksWithout m.hooks a.old fun _ => true,
                                            genDigest := m.genDigest.del a.old, activation := none } }
        d.answer a.token .ok 0 []) s

/-- UCODE_ACTIVATE_TIMEOUT (R223 item 9); the switch that was made stands. -/
def execUcodeActivateTimeout (s : State) : Host.Outcome State Fault Refusal :=
  running (fun d =>
    match d.micro.activation with
    | none => d
    | some a =>
      if a.token.isNone || d.now < a.deadline then d
      else ({ d with micro := { d.micro with activation := some { a with token := none } } }).answer
        a.token .timeout 0 []) s

/-! ### Customer memory -/

/-- R223: what CUST_MEM_WRITE and CUST_MEM_READ check. -/
def custMemChecks (who : Sender) (d : Dev) (r : CustMemRec) : List (Bool × Status) :=
  [((d.absIndex who.tenancy 10 256 r.index).isNone ||
      (d.absIndex who.tenancy 10 256 (r.index + r.count - 1)).isNone, .notPermitted),
   ((match d.block who.tenancy 10 (r.index / 256) with
     | some b => who.stale (d.unit 10 b).epoch
     | none => false), .staleEpoch),
   (19 < r.stage || r.count = 0 || 64 < r.count, .badField)]

/-- A word of data to a tenancy-relative address, among the housekeeping work of Sleeve `s`. -/
def Dev.queueCust (d : Dev) (t s stage index v : Nat) : Dev :=
  match d.absIndex t 10 256 index with
  | some a =>
    let x := d.sleeve s
    d.setSleeve s { x with hk := x.hk ++ [.custWrite stage a (BitVec.ofNat 64 v)] }
  | none => d

/-- CUST_MEM_WRITE: every word is a housekeeping step that commits; the response follows the last. -/
def execCustMemWrite (h : Hdr) (r : CustMemRec) (s : State) : Host.Outcome State Fault Refusal :=
  runMessage { code := 0x0804, lenOk := fun l => l = 8 + 8 * r.count, maxBody := 0 } h (fun who d =>
    checked (custMemChecks who d r) d fun d =>
      let ss := onesOf 7 r.sleeves
      if ss.isEmpty then (.say .ok, d)
      else
        let d := ss.foldl (fun d s => (List.range r.count).foldl
          (fun d i => d.queueCust who.tenancy s r.stage (r.index + i) (r.data.getD i 0)) d) d
        let left := (List.range 7).map fun s => if ss.contains s then r.count else 0
        (.wait, { d with micro := { d.micro with memOps := d.micro.memOps ++ [(who.tok, left, 0)] } })) s

/-- A Collar write of customer memory in Sleeve `s` done: the oldest message with words left there counts
it, and answers when none is left. -/
def Dev.custWritten (d : Dev) (s : Nat) : Dev :=
  match d.micro.memOps.find? fun m => 0 < m.2.1.getD s 0 with
  | none => d
  | some m =>
    let left := m.2.1.set s (m.2.1.getD s 0 - 1)
    let done := left.all (· = 0)
    let ops := if done then d.micro.memOps.erase m
      else d.micro.memOps.map fun x => if x = m then (m.1, left, m.2.2) else x
    let d := { d with micro := { d.micro with memOps := ops } }
    if done then d.finish m.1 .ok 0 [] else d

/-- CUST_MEM_READ: the words of each named Sleeve. -/
def execCustMemRead (h : Hdr) (r : CustMemRec) (s : State) : Host.Outcome State Fault Refusal :=
  runMessage { code := 0x0805, lenOk := exactly 8, maxBody := 3584, changes := false } h (fun who d =>
    checked (custMemChecks who d r) d fun d =>
      (.values ((onesOf 7 r.sleeves).flatMap fun s => (List.range r.count).map fun i =>
        match d.absIndex who.tenancy 10 256 (r.index + i) with
        | some a => d.custRead s r.stage a
        | none => 0), d)) s

/-! ### UCODE_STATUS_GET (R224) -/

/-- The residences of the bindings of the loaded images that `p` picks. -/
def Dev.residences (d : Dev) (p : Binding → Bool) : List Nat :=
  d.micro.images.flatMap fun i =>
    ((i.bindings.zip i.residences).filter fun b => p b.1).flatMap fun b =>
      [b.1.tenancy, b.1.stage, b.1.profile, b.1.word, b.2]

/-- Every stage engine: Sleeve·32 + stage. -/
def allEngines : List Nat := (List.range 7).flatMap fun s => (List.range 20).map fun st => s * 32 + st

/-- A tenancy's faults by cause and its continuation passes, in every Sleeve. -/
def ucodeCounters (d : Dev) (t : Nat) : List Nat :=
  (List.range 7).flatMap fun s =>
    (List.range 8).map (fun c => d.ctr .ucodeFaults (s * 16 + t) c) ++ [d.ctr .contPasses (s * 16 + t) 0]

/-- UCODE_STATUS_GET. -/
def execUcodeStatusGet (h : Hdr) (s : State) : Host.Outcome State Fault Refusal :=
  runMessage { code := 0x0806, lenOk := exactly 0, maxBody := 2048, changes := false } h (fun who d =>
    let walker := allEngines.flatMap fun k =>
      [d.ctr .csEccCorrected k 0, d.ctr .csEccUncorrectable k 0, d.ctr .hkRollbacks k 0,
       d.ctr .overlayFull k 0] ++
      [1, 2, 8].flatMap fun t => [d.ctr .tableEccCorrected k t, d.ctr .tableEccUncorrectable k t]
    let vendor := vendorCycles.flatMap fun v => [1 + v.1, 1 + v.2]
    match who.role with
    | .maint => (.list walker, d)
    | .tenant =>
      (.list (d.activeDigest :: ucodeCounters d who.tenancy ++ d.residences fun b => b.tenancy = who.tenancy), d)
    | .owner =>
      (.list (d.activeDigest :: walker ++ (List.range 16).flatMap (ucodeCounters d) ++ vendor ++
        d.residences fun _ => true), d)) s

/-! ### The scrub walker, repairs and the overlay (R216, R220) -/

/-- CS_SCRUB_READ: the next word of a stage engine's store. -/
def execCsScrubRead (sleeve stage : Nat) (ecc : Ecc) (s : State) : Host.Outcome State Fault Refusal :=
  running (fun d =>
    if 7 ≤ sleeve || 20 ≤ stage then d
    else
      let k := sleeve * 32 + stage
      let g := d.engine sleeve stage
      let a := g.scrubAt
      let g := { g with scrubAt := (a + 1) % 4096 }
      match ecc with
      | .clean => d.setEngine sleeve stage g
      | .corrected => (d.setEngine sleeve stage g).inc .csEccCorrected k 0
      | .uncorrectable =>
        if g.bad.contains a then d.setEngine sleeve stage g
        else
          ((d.setEngine sleeve stage { g with bad := a :: g.bad }).inc .csEccUncorrectable k 0).raise
            0x0802 ownerMaint []) s

/-- CS_WORD_REPAIR. -/
def execCsWordRepair (sleeve stage addr : Nat) (s : State) : Host.Outcome State Fault Refusal :=
  running (fun d =>
    let g := d.engine sleeve stage
    if g.bad.contains addr then d.setEngine sleeve stage { g with bad := g.bad.filter (· != addr) }
    else d) s

/-- OVERLAY_DRAIN: the oldest committed entry goes into the array. -/
def execOverlayDrain (sleeve stage : Nat) (s : State) : Host.Outcome State Fault Refusal :=
  running (fun d =>
    let g := d.engine sleeve stage
    match g.overlay.find? fun o => o.committed with
    | some o => (d.setEngine sleeve stage { g with overlay := g.overlay.erase o }).custWrite sleeve stage
        o.addr o.value.toNat
    | none => d) s

end Sys2Proof.Machine
end

