-- ==== Sys2Proof/Machine/Arch.lean ====
section
/-! DEFINITION. The slot arbiters of the Sleeves (01): the grant of a slot, shares and credits, and the
messages of slots. -/

namespace Sys2Proof.Machine

/-! ### A packet's first slot (R17, R98, R173, R203) -/

/-- The ingress timestamp as the context carries it (R50). -/
def stamp64 (s : Stamp) : Nat := s.sec % 2 ^ 16 * 2 ^ 48 + s.ns * 2 ^ 16 + s.frac

/-- The context at the start of a pass, with its version slot and epoch (Table 4-4). A frame longer than
its slice has no valid length yet. -/
def startContext (f : Frame) (v e : Nat) (injected : Bool) : BitVec 512 :=
  let whole := decide (f.len ≤ f.slice)
  putAll (0 : BitVec 512)
    [(fIngressTs, stamp64 f.stamp), (fVersion, v), (fEpoch, e), (fTenancy, f.tenancy.getD 0),
     (fPort, f.port), (fDeep, b2n f.deep), (fUrgent, b2n f.urgent), (fPass, f.pass),
     (fInjected, b2n injected), (fFrameLen, if whole then f.len else 0),
     (fSliceLen, min f.slice f.len), (fIncomplete, b2n !whole)]

/-- The sidecar at a packet's first slot (R203): the hook generation stamped, no continuation. -/
def startSidecar (g : Nat) : BitVec 192 := putAll (0 : BitVec 192) [(sHookGen, g), (sContStage, 31)]

/-- A packet takes its first slot in Sleeve `s`: stamped with version slot `v` and epoch `e` and counted in
flight (R173, R175). -/
def Dev.firstSlot (d : Dev) (s fid : Nat) (f : Frame) (v e : Nat) (injected : Bool) : Dev :=
  let f := { f with sleeve := s, phase := .parse }
  let f := { f with ctx := startContext f v e injected, side := startSidecar d.micro.generation, desc := 0 }
  (d.setInflight v s (d.inflight v s + 1)).setFrame fid f

/-- The CURRENT slot stamped, and the packet numbered among those that the Sleeve has issued (R366). -/
def Dev.issuePacket (d : Dev) (s fid : Nat) (f : Frame) (injected : Bool) : Dev :=
  let x := d.sleeve s
  let d := d.setSleeve s { x with issued := x.issued + 1 }
  d.firstSlot s fid { f with seq := x.issued + 1 } d.current (d.vslot d.current).epoch injected

/-! ### Candidates (R25) -/

/-- What a slot may go to. -/
inductive Pick where
  | bubble (b : Bubble)
  | slice (fid : Nat) (urgent : Bool)
  | recirc (fid : Nat)
  | inject (i : InjectRec)
  | hk (w : HkWork)
  | replay
  deriving DecidableEq

/-- A list turned so that it starts at position `n`. -/
def rotate {α : Type} (l : List α) (n : Nat) : List α := l.drop n ++ l.take n

/-- The Cuffs that offer slices to Sleeve `s`, from `ptr` on: those attached and not fenced (R83). -/
def Dev.offering (d : Dev) (s ptr : Nat) : List Nat :=
  (rotate (List.range 24) ptr).filter fun c => (d.cuff c).sleeve = s && (d.cuff c).move.isNone

/-- The first waiting slice of each port of a Cuff, in arrival order: a port's frames keep their order. -/
def Dev.heads (d : Dev) (c : Nat) : List (Nat × Frame) :=
  (d.cuff c).slices.foldl (fun acc fid =>
    match d.frame fid with
    | some f => if acc.any fun x => x.2.port = f.port then acc else acc ++ [(fid, f)]
    | none => acc) []

/-- Urgent slices in the order of step 2. -/
def Dev.urgentPicks (d : Dev) (s : Nat) : List Pick :=
  (d.offering s (d.sleeve s).urgentPtr).flatMap fun c =>
    let hs := (d.heads c).filter (·.2.urgent)
    (List.range 4).filterMap fun l =>
      (hs.find? fun x => x.2.port = c * 4 + l).map fun x => Pick.slice x.1 true

/-- The other slices in the order of step 4. -/
def Dev.slicePicks (d : Dev) (s : Nat) : List Pick :=
  (d.offering s (d.sleeve s).otherPtr).flatMap fun c =>
    ((d.heads c).filter fun x => !x.2.urgent).map fun x => Pick.slice x.1 false

/-- Whether a packet of `len` bytes would find its Pockets in a pool. -/
def Dev.placeable (d : Dev) (s k len : Nat) : Bool := (d.placePacket (8 + s) k len).1.isSome

/-- The work of a share holder: 0 recirculation, 1 injection, 2 housekeeping, 3 replay. A packet that
finds no Pockets waits. -/
def Dev.holderPick (d : Dev) (s h : Nat) : Option Pick :=
  let x := d.sleeve s
  match h with
  | 0 =>
    (x.recirc.find? fun r => match r.readyAt, d.frame r.fid with
      | some t, some f => decide (t ≤ d.now) && f.ended
      | _, _ => false).map fun r => Pick.recirc r.fid
  | 1 =>
    match x.injects with
    | i :: _ =>
      match d.yoke.inPool.get? i.tenancy with
      | some k => if d.placeable s k (i.bytes.length + 4) then some (.inject i) else none
      | none => none
    | [] => none
  | 2 => x.hk.head?.map Pick.hk
  | _ =>
    match d.replayNext s with
    | some (r, i, y) =>
      if d.placeable s r.data.pool (replayPacket s i y r.data.pool).len then some .replay else none
    | none => none

/-- Whether a pick is a header slice. -/
def Pick.isSlice : Pick → Bool
  | .slice _ _ => true
  | _ => false

/-- The candidates of a Sleeve's slot in the order of R25, each with its step. A Sleeve that is not enabled
gives its slots to bubbles and housekeeping only (R43), and during an ejection none grants a slice (R496). -/
def Dev.candidates (d : Dev) (s : Nat) : List (Nat × Pick) :=
  let x := d.sleeve s
  let due := match x.lastBubble with
    | some t => decide (t + x.shares.updateGap ≤ d.now)
    | none => true
  let bubbles : List Pick :=
    if due then
      match x.updates.find? (d.bubbleReady s) with
      | some b => [.bubble b]
      | none => []
    else []
  let owed := (List.range 4).filterMap fun h =>
    if 1024 ≤ x.credit.getD h 0 then d.holderPick s h else none
  let beyond := (rotate (List.range 4) x.beyondPtr).filterMap (d.holderPick s)
  let all := bubbles.map (1, ·) ++ (d.urgentPicks s).map (2, ·) ++ owed.map (3, ·) ++
    (d.slicePicks s).map (4, ·) ++ beyond.map (5, ·)
  if x.enabled && d.ejecting then all.filter fun c => !c.2.isSlice
  else if x.enabled then all
  else all.filter fun c => match c.2 with
    | .bubble _ => true
    | .hk _ => true
    | _ => false

/-- Whether a candidate may take the slot under the search allowance (R164). -/
def Pick.allowed (t : TcamSleeve) : Pick → Bool
  | .bubble _ => true
  | .hk _ => true
  | .slice _ u => t.allows u
  | _ => t.allows false

/-- The holder of a pick. -/
def Pick.holder : Pick → Nat
  | .recirc _ => 0
  | .inject _ => 1
  | .hk _ => 2
  | _ => 3

/-! ### The grant -/

/-- The shares of the four holders. -/
def Shares.each (h : Shares) : List Nat := [h.recirc, h.inject, h.housekeeping, h.replay]

/-- R27: the credits at cycle `now`, capped at 1,024 × 64. -/
def SleeveState.accrue (x : SleeveState) (now : Nat) : SleeveState :=
  { x with credit := (List.range 4).map (fun h =>
             min (x.credit.getD h 0 + x.shares.each.getD h 0 * (now - x.creditAt)) 65536),
           creditAt := now }

/-- A credit that falls by 1,024. -/
def SleeveState.charge (x : SleeveState) (h : Nat) : SleeveState :=
  { x with credit := x.credit.set h (x.credit.getD h 0 - 1024) }

/-- The slot counter of a packet's holder: 0 a Cuff, 1 recirculation, 2 injection, 3 replay. -/
def slotCtr : Nat → Ctr
  | 0 => .slotsIngress
  | 1 => .slotsRecirc
  | 2 => .slotsInject
  | _ => .slotsReplay

/-- A search slot counted, and a deep packet's second slot made due in the next cycle (R24, R164). -/
def Dev.searchSlot (d : Dev) (s fid kind : Nat) (urgent deep : Bool) : Dev :=
  let d := d.inc (slotCtr kind) s 0
  let d := d.setTcamSleeve s ((d.tcamSleeve s).counted urgent (if deep then 2 else 1))
  if deep then d.setSleeve s { d.sleeve s with owed := some (fid, kind) } else d

/-- A header slice issued. -/
def Dev.grantSlice (d : Dev) (s fid : Nat) (urgent : Bool) : Dev :=
  d.withFrame fid fun f =>
    let c := f.port / 4
    let cuff := d.cuff c
    let d := d.setCuff c { cuff with slices := cuff.slices.erase fid }
    let x := d.sleeve s
    let wait := min (d.now - f.offered.getD d.now) 65535
    let d := d.setSleeve s (if urgent then { x with urgentWait := max x.urgentWait wait } else x)
    (d.issuePacket s fid f false).searchSlot s fid 0 urgent f.deep

/-- Pockets for a frame that the recirculation rewrite engine has changed to `len` bytes: those it needs more
come from its tenancy's internal pool through the internal cache, and a frame that finds none is incomplete;
those it no longer needs are freed. -/
def Dev.refit (d : Dev) (f : Frame) (len : Nat) : Frame × Dev :=
  let need := pocketsOf len
  let have' := f.pockets.length
  if need ≤ have' then
    let d := d.freeAll f.ownUnit (f.pockets.drop need)
    ({ f with pockets := f.pockets.take need }, d.chain len (f.pockets.take need))
  else
    match d.yoke.inPool.get? (f.tenancy.getD 0) with
    | none => ({ f with noMore := true }, d)
    | some k =>
      let (ps, d) := Dev.allocateMany (8 + f.sleeve) k (need - have') d
      let d := d.handOver (8 + f.sleeve) f.ownUnit ps
      let all := f.pockets ++ ps
      ({ f with pockets := all, noMore := f.noMore || decide (all.length < need) }, d.chain len all)

/-- A frame after the recirculation rewrite engine (R186, R522). -/
def Dev.recircRewrite (d : Dev) (f : Frame) : Frame × Dev :=
  let bs := (d.rewrite f (programOf f.desc)).bytes
  let (g, d) := d.refit f (bs.length + 4)
  ({ g with bytes := bs, len := bs.length + 4,
            first := some (f.first.getD (f.bytes, f.len, f.deep, f.slice)) }, d)

/-- A recirculation pass: the program applied to the frame in its Pockets, its place in the queue released
(R522), the context begun anew under the stamp of pass 0 with its metering fields kept (R174, R256). -/
def Dev.grantRecirc (d : Dev) (s fid : Nat) : Dev :=
  d.withFrame fid fun f =>
    let d := d.leavePlace fid f
    let (f, d) := d.recircRewrite f
    let f := { f with place := false, phase := .parse, deep := true, slice := 512, urgent := flag f.ctx fUrgent }
    let c := startContext f (fld f.ctx fVersion) (fld f.ctx fEpoch) (flag f.ctx fInjected)
    let f := { f with ctx := putBits c 15 22 (getBits f.ctx 15 22), desc := 0, cont := false, rel := none }
    ((d.inc .recircPasses (s * 16 + f.tenancy.getD 0) 0).setFrame fid f).searchSlot s fid 1 false true

/-- A Collar-injected packet: placed in Pockets of its tenancy's internal pool and issued. -/
def Dev.grantInject (d : Dev) (s : Nat) (i : InjectRec) : Dev :=
  let len := i.bytes.length + 4
  let k := (d.yoke.inPool.get? i.tenancy).getD 0
  match d.placePacket (8 + s) k len with
  | (none, d) => d
  | (some ps, d) =>
    let x := d.sleeve s
    let fid := d.ports.nextFid
    let d := d.setSleeve s { x with injects := x.injects.drop 1 }
    let d := { d with ports := { d.ports with nextFid := fid + 1 } }
    let f := { Frame.make (.inject i) 127 s i.bytes len with
               tenancy := some i.tenancy, pool := k, pockets := ps, stamp := d.stamp }
    (d.issuePacket s fid f true).searchSlot s fid 2 false true

/-- A replayed packet under its recorded stamp (steps 3 and 4 of R369). -/
def Dev.grantReplay (d : Dev) (s : Nat) : Dev :=
  match d.replayNext s with
  | none => d
  | some (r, i, y) =>
    let f := replayPacket s i y r.data.pool
    match d.placePacket (8 + s) r.data.pool f.len with
    | (none, d) => d
    | (some ps, d) =>
      let d := d.setReplay s { r with todo := r.todo.drop 1, issued := r.issued + 1 }
      let d := d.inc .replayIssued r.tenancy 0
      let fid := d.ports.nextFid
      let d := { d with ports := { d.ports with nextFid := fid + 1 } }
      let ve : Nat × Nat := match y.body with
        | .frame _ _ _ _ _ _ _ _ _ v e _ _ _ _ _ _ => (v, e)
        | _ => (0, 0)
      (d.firstSlot s fid { f with pockets := ps, noMore := false } ve.1 ve.2 f.noMore).searchSlot s fid 3
        false f.deep

/-- One housekeeping step. -/
def Dev.hkWork (d : Dev) (s : Nat) : HkWork → Dev
  | .meterRefresh c => d.meterRefresh s c
  | .custWrite st a v => (d.custWrite s st a v.toNat).custWritten s
  | .routine st c => d.hkStep s st c
  | .flowRewrite i =>
    { d with tables := { d.tables with flowBad := d.tables.flowBad.filter (· != s * 2 ^ 19 + i) } }

/-- The slot of this cycle given to a pick. -/
def Dev.give (d : Dev) (s : Nat) : Pick → Dev
  | .bubble b =>
    let x := d.sleeve s
    let d := d.setSleeve s { x with updates := x.updates.erase b, lastBubble := some d.now }
    (d.inc .slotsBubble s 0).bubble s b
  | .slice fid u => d.grantSlice s fid u
  | .recirc fid => d.grantRecirc s fid
  | .inject i => d.grantInject s i
  | .hk w =>
    let x := d.sleeve s
    let d := d.setSleeve s { x with hk := x.hk.drop 1 }
    (d.inc .slotsHousekeeping s 0).hkWork s w
  | .replay => d.grantReplay s

/-- The rotations and the credit after a grant under a step of R25. -/
def SleeveState.after (x : SleeveState) (step cuff : Nat) (p : Pick) : SleeveState :=
  match step with
  | 2 => { x with urgentPtr := (cuff + 1) % 24 }
  | 3 => x.charge p.holder
  | 4 => { x with otherPtr := (cuff + 1) % 24 }
  | 5 => { x with beyondPtr := (p.holder + 1) % 4 }
  | _ => x

/-- The Cuff of a pick. -/
def Dev.pickCuff (d : Dev) : Pick → Nat
  | .slice fid _ => (match d.frame fid with
      | some f => f.port / 4
      | none => 0)
  | _ => 0

/-- The grant of one cycle (R25): the first candidate that the search allowance admits; a cycle in which
one is refused counts (R165). -/
def Dev.grantSlot (d : Dev) (s : Nat) : Dev :=
  let n := match d.replayOn s with
    | some r => r.todo.length + 1
    | none => 0
  let d := Dev.replayAdvance s n d
  let t := d.tcamSleeve s
  let cs := d.candidates s
  let free := (cs.takeWhile fun c => !c.2.allowed t).isEmpty
  let d := if free then d else d.inc .throttleDeferrals s 0
  match cs.find? fun c => c.2.allowed t with
  | some (step, p) => (d.setSleeve s ((d.sleeve s).after step (d.pickCuff p) p)).give s p
  | none => d.inc .slotsIdle s 0

/-- Work that the Collar gives the arbiter: a packet to inject, a routine to start, or an interrupt, taken
at once where no routine of the engine runs (R215, R217). A second interrupt does not join one that
waits. -/
def Dev.queueWork (d : Dev) (s : Nat) : SlotWork → Dev
  | .inject i =>
    let x := d.sleeve s
    d.setSleeve s { x with injects := x.injects ++ [i] }
  | .routine st k w =>
    if 20 ≤ st || 4 ≤ k || ((d.engine s st).routines.get .reset k).running then d
    else
      let r : Routine := { running := true, regs := zeroRegs, pc := w % 4096, snapRegs := zeroRegs, snapPc := w % 4096 }
      let d := d.setEngine s st ((d.engine s st).setRoutine k r)
      let x := d.sleeve s
      d.setSleeve s { x with hk := x.hk ++ [.routine st k] }
  | .interrupt st w =>
    let g := d.engine s st
    if 20 ≤ st || g.interrupt.isSome then d
    else if (List.range 5).any fun k => (g.routines.get .reset k).running then
      d.setEngine s st { g with interrupt := some (w % 4096) }
    else
      let r : Routine := { running := true, regs := zeroRegs, pc := w % 4096, snapRegs := zeroRegs, snapPc := w % 4096 }
      let d := d.setEngine s st (g.setRoutine 4 r)
      let x := d.sleeve s
      d.setSleeve s { x with hk := .routine st 4 :: x.hk }

/-- The second slot of a deep packet, in the cycle after its first. -/
def Dev.secondSlot (d : Dev) (s kind : Nat) : Dev :=
  (d.inc (slotCtr kind) s 0).setSleeve s { d.sleeve s with owed := none }

/-- SLOT_GRANT: the slot of this cycle; the cycles since the last grant are the second slot of a deep
packet, if one was due, and idle slots. -/
def execSlotGrant (sleeve : Nat) (work : List SlotWork) (s : State) : Host.Outcome State Fault Refusal :=
  running (fun d =>
    let x := d.sleeve sleeve
    let since := x.lastGrant.getD 0
    if 7 ≤ sleeve || d.now ≤ since then d
    else
      let d := d.setSleeve sleeve { x.accrue d.now with lastGrant := some d.now }
      let gap := d.now - since - 1
      let d := match x.owed with
        | some (_, kind) => (d.bump .slotsIdle sleeve 0 (gap - 1)).secondSlot sleeve kind
        | none => d.bump .slotsIdle sleeve 0 gap
      let d := if x.owed.isSome && gap = 0 then d else d.grantSlot sleeve
      work.foldl (fun d w => d.queueWork sleeve w) d) s

/-! ### Messages (R41, R42) -/

/-- The shares of a record. -/
def sharesOf (r : SlotShareRec) : Shares :=
  { oversubscribe := r.flags.testBit 0, recirc := r.recirc, inject := r.inject,
    housekeeping := r.housekeeping, replay := r.replay, updateGap := r.updateGap }

/-- What SLOT_SHARE_SET checks. -/
def slotShareChecks (who : Sender) (d : Dev) (r : SlotShareRec) : List (Bool × Status) :=
  [(!who.isOwner, .notPermitted),
   (6 < r.sleeve || 256 < r.recirc || 256 < r.inject || 256 < r.housekeeping || r.replay < 1 ||
      1024 < r.replay || 256 < r.recirc + r.inject + r.housekeeping || r.updateGap < 16 ||
      65535 < r.updateGap, .badField),
   (!r.flags.testBit 0 && !withinBudget (d.portsOf r.sleeve) (sharesOf r), .noSpace)]

/-- SLOT_SHARE_SET. -/
def execSlotShareSet (h : Hdr) (r : SlotShareRec) (s : State) : Host.Outcome State Fault Refusal :=
  runMessage { code := 0x0101, lenOk := exactly 16, maxBody := 0 } h (fun who d =>
    setting (slotShareChecks who d r) d fun d =>
      d.setSleeve r.sleeve { (d.sleeve r.sleeve).accrue d.now with shares := sharesOf r }) s

/-- The seven slot counters of a Sleeve, whose sum is the cycles since its reset (R42). -/
def slotCounters (d : Dev) (s : Nat) : List Nat :=
  let busy := [d.ctr .slotsIngress s 0, d.ctr .slotsRecirc s 0, d.ctr .slotsInject s 0, d.ctr .slotsReplay s 0,
    d.ctr .slotsHousekeeping s 0, d.ctr .slotsBubble s 0]
  busy ++ [d.sleeveCycles s - busy.sum]

/-- The settings of Table 1-5. -/
def shareFields (h : Shares) : List Nat :=
  [b2n h.oversubscribe, h.recirc, h.inject, h.housekeeping, h.replay, h.updateGap]

/-- SLOT_STATUS_GET: counters and settings; the longest urgent wait starts again. -/
def execSlotStatusGet (h : Hdr) (sleeve : Nat) (s : State) : Host.Outcome State Fault Refusal :=
  runMessage { code := 0x0102, lenOk := fun _ => true, maxBody := 256, changes := false } h (fun who d =>
    checked [(who.role == .tenant, .notPermitted), (6 < sleeve, .badField)] d fun d =>
      let x := d.sleeve sleeve
      (.values (slotCounters d sleeve ++ [x.urgentWait] ++ shareFields x.shares),
       d.setSleeve sleeve { x with urgentWait := 0 })) s

end Sys2Proof.Machine
end

