-- ==== Sys2Proof/Machine/Aes.lean ====
section
/-! DEFINITION. The cipher of chapter 13, as its standards define it: AES with keys of 128 and 256 bits, counter
mode, and GCM (FIPS 197, SP 800-38D), which the spec names and does not repeat. -/

namespace Sys2Proof.Machine

/-! ### The field of AES -/

/-- A byte times two in the field of AES. -/
def gfTwice (a : Nat) : Nat := if 128 ≤ a then Nat.xor (2 * a) 0x11B else 2 * a

/-- A byte times a byte, over the bits of the second from `n` left. -/
def gfTimes (a b : Nat) : Nat → Nat
  | 0 => 0
  | n + 1 => Nat.xor (if b % 2 = 1 then a else 0) (gfTimes (gfTwice a) (b / 2) n)

/-- The inverse of a byte, zero for zero: its 254th power. -/
def gfInverse (a : Nat) : Nat :=
  ((List.range 7).foldl (fun (x : Nat × Nat) _ =>
    let s := gfTimes x.1 x.1 8
    (s, gfTimes x.2 s 8)) (a, 1)).2

/-- A byte turned left by `n` bits. -/
def turnLeft (a n : Nat) : Nat := (a <<< n) % 256 + a >>> (8 - n)

/-- The substitution of a byte. -/
def subByte (a : Nat) : Nat :=
  let b := gfInverse a
  (List.range 4).foldl (fun x n => Nat.xor x (turnLeft b (n + 1))) (Nat.xor b 0x63)

/-- The substitution as a table. -/
def subTable : List Nat := (List.range 256).map subByte

/-- A byte looked up in the table. -/
def substituted (a : Nat) : Nat := subTable.getD a 0

/-! ### The key schedule -/

/-- Two lists of bytes added. -/
def xorBytes (a b : List Nat) : List Nat := List.zipWith Nat.xor a b

/-- The word `i` of a schedule whose key has `nk` words, from the word before it. -/
def scheduleStep (nk i rcon : Nat) (w : List Nat) : List Nat :=
  if i % nk = 0 then xorBytes ((w.drop 1 ++ w.take 1).map substituted) [rcon, 0, 0, 0]
  else if nk = 8 && i % nk = 4 then w.map substituted
  else w

/-- The words of a schedule, latest first, `n` more after `ws`. -/
def schedule (nk : Nat) : Nat → Nat → Nat → List (List Nat) → List (List Nat)
  | 0, _, _, ws => ws
  | n + 1, i, rcon, ws =>
    let w := xorBytes (ws.getD (nk - 1) []) (scheduleStep nk i rcon (ws.getD 0 []))
    schedule nk n (i + 1) (if i % nk = 0 then gfTwice rcon else rcon) (w :: ws)

/-- The round keys under a key of a slot: 256 bits, of which a 128-bit key takes the upper half. -/
def roundKeys (long : Bool) (key : Nat) : List (List Nat) :=
  let nk := if long then 8 else 4
  let bs := (beBytes 32 key).take (4 * nk)
  let ws := (List.range nk).map fun i => (bs.drop (4 * i)).take 4
  let all := (schedule nk (4 * (nk + 7) - nk) nk 1 ws.reverse).reverse
  (List.range (nk + 7)).map fun r => ((all.drop (4 * r)).take 4).flatten

/-! ### A block -/

/-- The rows of a block turned. -/
def shiftRows (b : List Nat) : List Nat := (List.range 16).map fun i => b.getD ((i + 4 * (i % 4)) % 16) 0

/-- The columns of a block mixed. -/
def mixColumns (b : List Nat) : List Nat :=
  (List.range 16).map fun i =>
    let at' (k : Nat) : Nat := b.getD (i / 4 * 4 + (i + k) % 4) 0
    let two := gfTwice (at' 0)
    Nat.xor (Nat.xor two (Nat.xor (gfTwice (at' 1)) (at' 1))) (Nat.xor (at' 2) (at' 3))

/-- The rounds of a block after the first key; the last one mixes no columns. -/
def rounds : List (List Nat) → List Nat → List Nat
  | [], b => b
  | [k], b => xorBytes (shiftRows (b.map substituted)) k
  | k :: ks, b => rounds ks (xorBytes (mixColumns (shiftRows (b.map substituted))) k)

/-- One block encrypted, as 128-bit values, under round keys. -/
def aesBlock (ks : List (List Nat)) (x : Nat) : Nat :=
  match ks with
  | [] => x
  | k :: ks => beNat (rounds ks (xorBytes (beBytes 16 x) k))

/-! ### Counter mode and GCM -/

/-- Bytes added to the key stream of a nonce from block counter `c` on. -/
def ctrBytes (ks : List (List Nat)) (nonce c : Nat) (bs : List Nat) : List Nat :=
  (List.range ((bs.length + 15) / 16)).flatMap fun i =>
    xorBytes ((bs.drop (16 * i)).take 16) (beBytes 16 (aesBlock ks (nonce * 2 ^ 32 + (c + i) % 2 ^ 32)))

/-- The product of GHASH, over the bits of the first factor from bit `n - 1` down. -/
def ghashTimes (x : Nat) : Nat → Nat → Nat
  | 0, _ => 0
  | n + 1, v =>
    Nat.xor (if x.testBit n then v else 0)
      (ghashTimes x n (if v % 2 = 1 then Nat.xor (v / 2) (0xE1 * 2 ^ 120) else v / 2))

/-- The accumulator of GHASH after one block. -/
def ghashBlock (h acc x : Nat) : Nat := ghashTimes (Nat.xor acc x) 128 h

/-- The accumulator of GHASH after bytes, the last block filled with zeros. -/
def ghashBytes (ks : List (List Nat)) (acc : Nat) (bs : List Nat) : Nat :=
  let h := aesBlock ks 0
  (List.range ((bs.length + 15) / 16)).foldl (fun a i =>
    let b := (bs.drop (16 * i)).take 16
    ghashBlock h a (beNat (b ++ List.replicate (16 - b.length) 0))) acc

/-- The tag of a GCM message from its accumulator and the bytes of its additional data and data. -/
def gcmTag (ks : List (List Nat)) (nonce acc aad data : Nat) : Nat :=
  Nat.xor (ghashBlock (aesBlock ks 0) acc (aad * 8 * 2 ^ 64 + data * 8)) (aesBlock ks (nonce * 2 ^ 32 + 1))

/-- The tag over additional data and a text. -/
def gcmTagOf (ks : List (List Nat)) (nonce : Nat) (aad text : List Nat) : Nat :=
  gcmTag ks nonce (ghashBytes ks (ghashBytes ks 0 aad) text) aad.length text.length

/-- The key check value of R317: the first 8 bytes of AES_K(0). -/
def keyCheck (long : Bool) (key : Nat) : Nat := aesBlock (roundKeys long key) 0 / 2 ^ 64

end Sys2Proof.Machine
end

