-- ==== Sys2Proof/Machine/PortOps.lean ====
section
/-! DEFINITION. What several chapters ask of ports and frames: link states and their events, frames that leave
the Cuff or the queue manager, Seam reservations, and a transmission that is cut. -/

namespace Sys2Proof.Machine

/-! ### Audiences -/

/-- The tenancy that holds port `p` wholly, as an audience beside the owner. -/
def Dev.holderAud (d : Dev) (p : Nat) : List Aud :=
  match d.wholly p with
  | some t => if t = 0 then [] else [.tenancy t]
  | none => []

/-- R69: who receives the time events. -/
def timeAud : List Aud := [.owner, .maint, .tenants]

/-! ### Locks (R78) -/

/-- Whether a lane holds every lock its port needs. -/
def Lane.locked (l : Lane) (fec : Bool) : Bool := l.signal && l.cdr && l.pcs && (!fec || l.fec)

/-- Whether every lane of port `p` holds its locks. -/
def Dev.allLocks (d : Dev) (p : Nat) : Bool :=
  (d.lanesOf p).all fun l => (d.lane l).locked ((d.port p).cfg.fec != 0)

/-- Whether nothing keeps port `p` out of UP: its locks, and no remote fault (R79). -/
def Dev.linkGood (d : Dev) (p : Nat) : Bool := d.allLocks p && !(d.port p).remoteFault

/-- A lane's locks replaced. -/
def Dev.setLane (d : Dev) (l : Nat) (x : Lane) : Dev :=
  { d with ports := { d.ports with lanes := d.ports.lanes.set l x } }

/-- Port `p` enters a link state. -/
def Dev.setLink (d : Dev) (p : Nat) (st : LinkState) : Dev :=
  d.setPort p { d.port p with link := st, since := d.now, changed := d.stamp }

/-- The bring-up of port `p` after a change of its locks, and the loss condition of R79 while it is UP. -/
def Dev.advanceLink (d : Dev) (p : Nat) : Dev :=
  let x := d.port p
  match x.link with
  | .align => if d.linkGood p then d.setLink p .lockedWait else d
  | .lockedWait => if d.linkGood p then d else d.setLink p .align
  | .up =>
    if d.linkGood p then d.setPort p { x with lossSince := none }
    else if x.lossSince.isSome then d
    else d.setPort p { x with lossSince := some d.now }
  | _ => d

/-- ALIGN, and LOCKED_WAIT at once where every lock is held. -/
def Dev.enterAlign (d : Dev) (p : Nat) : Dev := (d.setLink p .align).advanceLink p

/-- Bring-up of an enabled port from its start (Table 3-6). -/
def Dev.bringUp (d : Dev) (p : Nat) : Dev :=
  let r := (d.port p).cfg
  if r.mode = 0 then d.setLink p .disabled
  else if r.flags.testBit 0 then d.setLink p .an
  else if r.flags.testBit 1 then d.setLink p .train
  else d.enterAlign p

/-! ### Seam reservations (R241, R242) -/

/-- The port that a frame's descriptor names. -/
def Frame.target (f : Frame) : Nat := fld f.desc dTarget % 128

/-- The granted claims of port `p` that have not launched: frame, launch cycle, transmission cycles. -/
def Dev.grantsOn (d : Dev) (p : Nat) : List (Nat × Nat × Nat) :=
  d.ports.frames.cells.filterMap fun c =>
    match c.2.seam with
    | .granted launch tx => if c.2.target = p then some (c.1, launch, tx) else none
    | _ => none

/-- A grant withdrawn: the frame becomes an ordinary enqueue; `miss` counts it in seam_miss. -/
def Dev.withdraw (d : Dev) (fid : Nat) (miss : Bool) : Dev :=
  d.withFrame fid fun f =>
    let d := d.setFrame fid { f with seam := .none }
    if miss then d.inc .seamMiss f.target 0 else d

/-! ### Hand-over to the queue manager (R227) -/

/-- Whether the queue manager owns a frame's Pockets. -/
def Dev.managed (d : Dev) (f : Frame) : Bool :=
  match f.pockets with
  | p :: _ => (d.pocket p).unit = 16
  | [] => false

/-- The owning cache hands a frame's Pockets to the queue manager, if it has not yet. -/
def Dev.toManager (d : Dev) (f : Frame) : Dev :=
  if d.managed f then d else d.handOver f.ownUnit 16 f.pockets

/-- A frame that takes no further part in a queue: its references are its copies, mirrors and captures. -/
def Dev.retire (d : Dev) (fid : Nat) : Dev :=
  (d.withFrame fid fun f => (d.toManager f).setFrame fid { f with phase := .done, seam := .none }).settle fid

/-- The Cuff drops a frame: its Pockets are freed, and once it has ended it is gone. -/
def Dev.cuffDrop (d : Dev) (fid : Nat) : Dev :=
  (d.withFrame fid fun f =>
    (d.freeAll f.ownUnit f.pockets).setFrame fid { f with pockets := [], phase := .done }).settle fid

/-! ### Transmission -/

/-- R81, R243: the frame in transmission on port `p` ends with an error control character. -/
def Dev.abortTx (d : Dev) (p : Nat) : Dev :=
  let x := d.port p
  match x.txFrame with
  | none => d
  | some fid =>
    let d := d.setPort p { x with txFrame := none, txEnds := d.now, txDone := d.now }
    let sent := d.cipher.lastSent.map fun k s => if k = p then { s with aborted := true } else s
    let d := { d with cipher := { d.cipher with lastSent := sent },
                      queues := { d.queues with sending := d.queues.sending.del p } }
    (d.inc .txAborted p 0).unref fid

/-- Port `p` leaves UP (R79, R81, R82, R242): the event, the transmission cut, its Seam grants withdrawn,
and its link-down action begun. -/
def Dev.leaveUp (d : Dev) (p : Nat) : Dev :=
  let d := (d.inc .linkDownEvents p 0).raise 0x0301 (ownerMaint ++ d.holderAud p) []
  let d := d.abortTx p
  let d := (d.grantsOn p).foldl (fun d g => d.withdraw g.1 true) d
  let x := d.port p
  d.setPort p { x with downAt := d.now, flushing := !x.txCfg.flags.testBit 3, lossSince := none }

end Sys2Proof.Machine
end

