-- ==== Sys2Proof/Machine/CipherOps.lean ====
section
/-! DEFINITION. What the MACsec lanes read of a frame: its SecTAG, secure channel and key slot (13). -/

namespace Sys2Proof.Machine

/-- Secure channel `i`, absolute, if it exists. -/
def Dev.sc (d : Dev) (i : Nat) : Option Sc := d.cipher.scs.get? i

/-- Secure channel `i` replaced. -/
def Dev.setSc (d : Dev) (i : Nat) (x : Sc) : Dev :=
  { d with cipher := { d.cipher with scs := d.cipher.scs.set i x } }

/-- SA key slot `i`, absolute. -/
def Dev.saKey (d : Dev) (i : Nat) : SaKey := d.cipher.keys.get .empty i

/-- SA key slot `i` replaced. -/
def Dev.setSaKey (d : Dev) (i : Nat) (x : SaKey) : Dev :=
  { d with cipher := { d.cipher with keys := d.cipher.keys.set i x } }

/-- Whether a SC is a transmit SC. -/
def Sc.transmit (x : Sc) : Bool := x.data.flags.testBit 1

/-- A suite's XPN bit and its last packet number (R314). -/
def isXpn (suite : Nat) : Bool := 2 ≤ suite
def lastPn (suite : Nat) : Nat := if isXpn suite then 2 ^ 64 - 1 else 2 ^ 32 - 1

/-- R316: the threshold of a SC for a suite. -/
def Sc.threshold (x : Sc) (suite : Nat) : Nat :=
  if x.data.pnThreshold != 0 then x.data.pnThreshold
  else if isXpn suite then 0xC000000000000000 else 0xC0000000

/-- R314: the IV of packet number `pn` on a SC under a key. -/
def ivOf (sci : Nat) (k : SaKey) (pn : Nat) : Nat :=
  if isXpn k.suite then Nat.xor (k.ssci * 2 ^ 64 + pn) k.salt else sci * 2 ^ 32 + pn

/-! ### SecTAG (Table 13-1) -/

/-- A received SecTAG: its length, whether Table 13-3 calls it invalid, AN, E bit, the 32 bits of the PN, the
SCI it carries or implies, and where the secure data lies. -/
structure SecTag where
  len : Nat
  bad : Bool
  an : Nat
  encrypted : Bool
  pn : Nat
  sci : Option Nat
  dataLen : Nat
  deriving DecidableEq, Repr

/-- The SecTAG of a frame without frame check sequence, if it has one. -/
def secTagOf (bs : List Nat) : Option SecTag :=
  if beAt bs 12 2 != 0x88E5 then none
  else
    let tci := byteAt bs 14
    let sl := byteAt bs 15
    let withSci := tci.testBit 5
    let es := tci.testBit 6
    let len := if withSci then 16 else 8
    let room := bs.length - (28 + len)
    let wrong := 48 ≤ sl || (sl = 0 && room < 48) || room < sl
    some {
      len := len
      bad := tci.testBit 7 || (withSci && (es || tci.testBit 4)) || wrong || decide (bs.length < 28 + len)
      an := tci % 4
      encrypted := tci.testBit 3
      pn := beAt bs 16 4
      sci := if withSci then some (beAt bs 20 8) else if es then some (beAt bs 6 6 * 65536 + 1) else none
      dataLen := if sl = 0 then room else sl }

/-- The receive SC of port `p` that a SecTAG names; `m` gives the default SC. -/
def Dev.rxScOf (d : Dev) (p : Nat) (m : MacsecPortRec) (t : SecTag) : Option Nat :=
  match t.sci with
  | some sci =>
    (d.cipher.scs.cells.find? fun c => c.2.data.port = p && !c.2.transmit && c.2.data.sci = sci).map (·.1)
  | none =>
    if m.defaultRxSc = 0xFFFF then none else (d.sc m.defaultRxSc).map fun _ => m.defaultRxSc

/-- The key slot that an AN of a SC refers to, while it is ACTIVE. -/
def Dev.activeSa (d : Dev) (sc an : Nat) : Option (Nat × SaKey) :=
  match d.sc sc with
  | none => none
  | some x =>
    match x.ans.get? an with
    | some k => if (d.saKey k).state == .active then some (k, d.saKey k) else none
    | none => none

/-- What a frame's SecTAG meets when it is read (R321): its SC and its key slot. -/
def Dev.secRead (d : Dev) (p : Nat) (m : MacsecPortRec) (bs : List Nat) :
    Option Nat × Option (Nat × SaKey) :=
  match secTagOf bs with
  | none => (none, none)
  | some t =>
    match d.rxScOf p m t with
    | none => (none, none)
    | some sc => (some sc, d.activeSa sc t.an)

/-- The full packet number of a received SecTAG (R320): in XPN suites the upper half comes from the lowest
acceptable one (802.1AE, 10.6.2). -/
def fullPn (suite lowest pn32 : Nat) : Nat :=
  if !isXpn suite then pn32
  else
    let hi := lowest / 2 ^ 32
    let hi := if 2 ^ 31 ≤ lowest % 2 ^ 32 && pn32 < 2 ^ 31 then hi + 1 else hi
    hi % 2 ^ 32 * 2 ^ 32 + pn32

/-- The round keys of an SA key. -/
def SaKey.schedule (k : SaKey) : List (List Nat) := roundKeys (k.suite % 2 = 1) k.key

/-- The bytes of user data that stay in clear text before the encryption of a port's frames (Table 13-1). -/
def secOffset (flags : Nat) : Nat := [0, 30, 50].getD (bits flags 2 2) 0

/-- The secure data of a received frame: what stands in clear, and what is encrypted. -/
def secData (bs : List Nat) (t : SecTag) (offset : Nat) : List Nat × List Nat :=
  let body := bytesAt bs (12 + t.len) t.dataLen
  let n := if t.encrypted then offset else t.dataLen
  (body.take n, body.drop n)

/-- Whether the ICV of a received frame verifies under a key and an IV. -/
def icvOk (bs : List Nat) (t : SecTag) (offset : Nat) (k : SaKey) (iv : Nat) : Bool :=
  let x := secData bs t offset
  gcmTagOf k.schedule iv (bs.take (12 + t.len) ++ x.1) x.2 = beAt bs (12 + t.len + t.dataLen) 16

/-- A frame without SecTAG and ICV, decrypted where its E bit says so and a key is at hand. -/
def stripped (bs : List Nat) (t : SecTag) (offset : Nat) (sa : Option (SaKey × Nat)) : List Nat :=
  let x := secData bs t offset
  bs.take 12 ++ x.1 ++
    (match sa with
     | some (k, iv) => ctrBytes k.schedule iv 2 x.2
     | none => x.2)

/-- A frame under SecTAG and ICV (Tables 13-1, 13-4): `flags` are the port's, `an` and `pn` those of the key. -/
def secured (bs : List Nat) (flags sci an pn : Nat) (k : SaKey) : List Nat :=
  let user := bs.drop 12
  let hide := flags.testBit 1
  let n := if hide then secOffset flags else user.length
  let tag := beBytes 2 0x88E5 ++ [0x20 + (if hide then 0x0C else 0) + an, if user.length < 48 then user.length else 0] ++
    beBytes 4 (pn % 2 ^ 32) ++ beBytes 8 sci
  let iv := ivOf sci k pn
  let aad := bs.take 12 ++ tag ++ user.take n
  let text := ctrBytes k.schedule iv 2 (user.drop n)
  aad ++ text ++ beBytes 16 (gcmTagOf k.schedule iv aad text)

end Sys2Proof.Machine
end

