-- ==== Sys2Proof/Machine/Ports.lean ====
section
/-! DEFINITION. Cuffs and ports (03): reception up to the offer of a slice, links and their locks, the
Cuff-to-Sleeve switch, and the messages of ports. -/

namespace Sys2Proof.Machine

/-! ### Reception (R18, R19, R88, R237, R378) -/

/-- R48, R49: the ingress timestamp of a frame that crosses the PCS boundary of port `p` now: 125 ps
resolution, less the fixed receive delay and the ingress asymmetry. -/
def Dev.ingressStamp (d : Dev) (p : Nat) : Stamp :=
  let r := (d.port p).rxCfg
  let raw : Int := ((d.hem.acc / 2 ^ 45 : Nat) : Int) - ((fixedDelays r.mode r.fec).1 : Int)
  let t : Int := (raw * 8192 - (d.hem.ptpRx.get .reset p).ingressAsym) % wrap16
  stampOf (t.toNat * 2 ^ 32) d.hem.stepGen

/-- Slices that Cuff `c` holds, frames in reception among them (R19). -/
def Dev.sliceCount (d : Dev) (c : Nat) : Nat :=
  (d.ports.frames.cells.filter fun x =>
    x.2.origin == .cuff && x.2.port / 4 = c && x.2.phase == .slot && x.2.pass = 0).length

/-- R26: the urgency of a frame from the map of its port. -/
def urgentMark (r : PortConfigRec) (bs : List Nat) : Bool :=
  if isTpid (beAt bs 12 2) then r.urgentPcp.testBit (byteAt bs 14 / 32) else r.urgentUntagged.testBit 0

/-- A frame that starts on port `p`, under the settings in force. -/
def Dev.newFrame (d : Dev) (p lag : Nat) (bytes : List Nat) : Frame :=
  let r := (d.port p).rxCfg
  let mac := d.cipher.rxPorts.get (macsecPortReset p) p
  let held := mac.validate != 0
  let read := if held then d.secRead p mac bytes else (none, none)
  { Frame.make .cuff p (d.sleeveOf p) bytes (bytes.length + 4) with
    start := d.now, sof := d.now + lag, stamp := d.ingressStamp p, ptp := d.hem.ptpRx.get .reset p,
    maxFrame := r.maxFrame, deep := cfgDeep r, slice := cfgSlice r, ended := false,
    urgent := urgentMark r bytes, map := d.portMap p, macsecHeld := held, rxMac := mac,
    rxSc := read.1, sa := read.2 }

/-- FRAME_RX_START: a frame's first bit crosses the PCS boundary of a port that is UP, `lag` cycles before
its start of frame at the receive MAC boundary. A full slice buffer, or a Sleeve that is not enabled (R43),
drops it whole. -/
def execFrameRxStart (port fid lag : Nat) (bytes : List Nat) (s : State) : Host.Outcome State Fault Refusal :=
  running (fun d =>
    let x := d.port port
    if 96 ≤ port || 2 ^ 32 ≤ fid || !d.isUp port || d.companion port || !d.allLocks port ||
        x.rxFrame.isSome || (d.frame fid).isSome then d
    else
      let f := d.newFrame port lag bytes
      let full := decide (64 ≤ d.sliceCount (port / 4)) || !(d.sleeve (d.sleeveOf port)).enabled
      let f := if full then { f with rxDrop := 1, phase := .done } else f
      (d.setPort port { x with rxFrame := some fid }).setFrame fid f) s

/-- R378: the tenancy that a port tenancy map gives a frame. -/
def PortMap.tenancyOf (m : PortMap) (bs : List Nat) : Option Nat :=
  let e := if m.mode = 1 && isTpid (beAt bs 12 2) && beAt bs 14 2 % 4096 != 0
    then m.vids.get 0xFF (beAt bs 14 2 % 4096) else m.tenancy
  if e < 16 then some e else none

/-- The length of a frame on the wire, SecTAG and ICV included. -/
def Frame.wireLen (f : Frame) : Nat := f.len + f.macsecSaved

/-- A frame that the Cuff drops before its slice, with the cause. -/
def Frame.dropped (f : Frame) (cause : Nat) : Frame := { f with rxDrop := cause, phase := .done }

/-- Whether a frame is in the receive path of its Cuff, before its slice is offered. -/
def Frame.receiving (f : Frame) : Bool :=
  f.origin == .cuff && f.phase == .slot && f.pass = 0 && f.offered.isNone && !f.macsecHeld

/-- TENANCY_MAP_LOOKUP. A MAC control frame (R88) and a frame of an unmapped entry take no Pocket; a frame
shorter than 64 bytes is dropped at its end whatever its mapping. -/
def execTenancyMapLookup (fid : Nat) (s : State) : Host.Outcome State Fault Refusal :=
  running (fun d => d.withFrame fid fun f =>
    if !f.receiving || f.tenancy.isSome || f.ended || f.bytes.length < 16 then d
    else if beAt f.bytes 12 2 = 0x8808 then d.setFrame fid (f.dropped 5)
    else
      let whole := decide (64 ≤ f.wireLen)
      match f.map.tenancyOf f.bytes with
      | none => if whole then (d.inc .tenancyUnmapped f.port 0).setFrame fid (f.dropped 2) else d
      | some t =>
        match d.yoke.rxPool.get? t with
        | none => if whole then (d.inc .poolRxDrop 0 0).setFrame fid (f.dropped 3) else d
        | some k =>
          match d.allocate f.sleeve k with
          | (some n, d) => d.setFrame fid { f with tenancy := some t, pool := k, pockets := [n] }
          | (none, d) => if whole then (d.inc .poolRxDrop k 0).setFrame fid (f.dropped 3) else d) s

/-- RX_NEXT_POCKET: a Pocket that the queue manager is owed already goes to it at once (R227). -/
def execRxNextPocket (fid : Nat) (s : State) : Host.Outcome State Fault Refusal :=
  running (fun d => d.withFrame fid fun f =>
    if !(f.origin == .cuff) || f.ended || f.noMore || f.pockets.isEmpty ||
        pocketsOf f.len ≤ f.pockets.length then d
    else
      let given := d.managed f
      match d.allocate f.sleeve f.pool with
      | (some n, d) =>
        let d := d.setFrame fid { f with pockets := f.pockets ++ [n] }
        if given then d.handOver f.sleeve 16 [n] else d
      | (none, d) => d.setFrame fid { f with noMore := true }) s

/-- SLICE_OFFER: the slice becomes a candidate from this cycle. -/
def execSliceOffer (fid : Nat) (s : State) : Host.Outcome State Fault Refusal :=
  running (fun d => d.withFrame fid fun f =>
    if !f.receiving || f.pockets.isEmpty || f.wireLen < 64 || (f.ended && f.bad) then d
    else
      let c := f.port / 4
      let x := d.cuff c
      (d.setCuff c { x with slices := x.slices ++ [fid] }).setFrame fid { f with offered := some d.now }) s

/-- R88: the receive outcome of a frame. -/
def rxOutcome (f : Frame) (fcsOk : Bool) : Ctr :=
  if f.wireLen < 64 then (if fcsOk then .rxUndersize else .rxRunt)
  else if !fcsOk then .rxFcsErr
  else if f.truncated then .rxTruncated
  else if beAt f.bytes 12 2 = 0x8808 then .rxMacControl
  else if f.rxDrop = 4 then .rxMacsecDiscard
  else if f.maxFrame < f.len then .rxOversize
  else if f.rxDrop = 2 then .rxUnmapped
  else if f.rxDrop = 1 then .rxSlotOverflow
  else if f.rxDrop = 3 then .rxPoolDropPort
  else .rxFramesOk

/-- The receive outcome counted, the octets of a good frame at its wire length. -/
def Dev.countRx (d : Dev) (f : Frame) (c : Ctr) : Dev :=
  let d := d.inc c f.port 0
  if c = .rxFramesOk then d.bump .rxOctetsOk f.port 0 f.wireLen else d

/-- The copies of a frame that turns out bad are not made (R188). -/
def Dev.dropCopies (d : Dev) (fid : Nat) : Dev :=
  d.withFrame fid fun f => d.setRefs fid { f with copies := [] } (f.refs - f.copies.length)

/-- A frame that failed on reception after its slice was offered: a Seam grant is withdrawn (R242), a Seam
transmission cut (R243), and copies of a frame that stage 18 has dropped are not made. -/
def Dev.rxFailed (d : Dev) (fid : Nat) : Dev :=
  d.withFrame fid fun f =>
    match f.seam with
    | .granted _ _ => d.withdraw fid false
    | .launched =>
      if (d.port f.target).txFrame = some fid then (d.inc .seamAborted f.target 0).abortTx f.target else d
    | _ => if f.phase = .done then d.dropCopies fid else d

/-- The end of a frame's reception with an outcome: a bad frame whose slice has not been offered is dropped
by the Cuff, one that has been offered goes on to be discarded by the Yoke (R18, R80). -/
def Dev.rxEnd (d : Dev) (fid : Nat) (f : Frame) (c : Ctr) : Dev :=
  let d := d.countRx f c
  let bad := !(c = .rxFramesOk)
  let d := (d.chain f.len f.pockets).setFrame fid { f with ended := true, bad := bad }
  if bad && f.offered.isNone then d.cuffDrop fid
  else if bad || f.noMore then (d.rxFailed fid).settle fid
  else d.settle fid

/-- Whether every Pocket of a frame has been asked for. -/
def Frame.allAsked (f : Frame) : Bool :=
  f.rxDrop != 0 || f.wireLen < 64 || f.noMore || f.pockets.length = pocketsOf f.len

/-- FRAME_RX_END. The first end of a frame in the MACsec hold buffer is its end on the wire: a frame with a
good FCS then waits for MACSEC_RX_VERIFY, and ends a second time once it has been delivered, its FCS
recomputed (R318). -/
def execFrameRxEnd (fid : Nat) (fcsOk : Bool) (s : State) : Host.Outcome State Fault Refusal :=
  running (fun d => d.withFrame fid fun f =>
    if !(f.origin == .cuff) || f.ended then d
    else
      let x := d.port f.port
      let free (d : Dev) : Dev := if x.rxFrame = some fid then d.setPort f.port { x with rxFrame := none } else d
      if f.macsecHeld then
        if f.wireEnd.isSome then d
        else
          let c := rxOutcome f fcsOk
          let good := c = .rxFramesOk || c = .rxOversize
          if good && f.rxDrop = 0 then (free d).setFrame fid { f with wireEnd := some d.now }
          else (free d).rxEnd fid f c
      else
        let ok := fcsOk || f.wireEnd.isSome
        if ok && !f.allAsked then d else (free d).rxEnd fid f (rxOutcome f ok)) s

/-! ### FEC (R74, Table 3-9) -/

/-- FEC_CODEWORD_DECODE. More than 16 uncorrectable codewords within 1 s raise FEC_DEGRADED, and the count
begins anew. -/
def execFecCodewordDecode (lane : Nat) (result : FecResult) (s : State) : Host.Outcome State Fault Refusal :=
  running (fun d =>
    match d.portOfLane lane with
    | none => d
    | some p =>
      if (d.port p).cfg.fec = 0 then d
      else match result with
        | .clean => d
        | .corrected n => (d.inc .fecCorrected lane 0).bump .fecSymbolErr lane 0 n
        | .uncorrectable =>
          let x := d.lane lane
          let l := d.now :: x.uncorrectable.filter fun t => decide (d.now < t + cyclesPerS)
          let d := d.inc .fecUncorrectable lane 0
          if 16 < l.length then (d.setLane lane { x with uncorrectable := [] }).raise 0x0304 ownerMaint []
          else d.setLane lane { x with uncorrectable := l }) s

/-! ### Links (R78 to R82) -/

/-- LINK_DOWN_FLUSH: the head frame of the lowest queue that holds one is discarded. -/
def execLinkDownFlush (port : Nat) (s : State) : Host.Outcome State Fault Refusal :=
  running (fun d =>
    if !d.flushes port then d
    else
      match (List.range 16).find? fun q => !(d.queue port q).isEmpty with
      | none => d
      | some q =>
        match d.queue port q with
        | e :: es => ((d.leaveQueue port q es).inc .txLinkDownDiscard port 0).discardEntry e
        | [] => d) s

/-- LINK_HOLD_EXPIRY. -/
def execLinkHoldExpiry (port : Nat) (s : State) : Host.Outcome State Fault Refusal :=
  running (fun d =>
    let x := d.port port
    if d.isUp port || !x.txCfg.flags.testBit 3 || x.flushing || d.now < x.downAt + x.txCfg.linkHold * cyclesPerMs
    then d
    else (d.setPort port { x with flushing := true }).raise 0x0302 (.owner :: d.holderAud port) []) s

/-- A lock of a lane set or lost. -/
def Lane.withLock (l : Lane) (k : LockKind) (on : Bool) : Lane :=
  match k with
  | .signal => { l with signal := on }
  | .cdr => { l with cdr := on }
  | .pcs => { l with pcs := on }
  | .fec => { l with fec := on }

/-- Whether a lane holds a lock. -/
def Lane.hasLock (l : Lane) : LockKind → Bool
  | .signal => l.signal
  | .cdr => l.cdr
  | .pcs => l.pcs
  | .fec => l.fec

/-- Whether a SyncE output selects lane `l`, the lane of its port's number. -/
def syncSelects (port l : Nat) : Bool := port = l && decide (l < 96)

/-- R59: the outputs whose lane has regained lock run again 100 ms later. -/
def Dev.syncRelock (d : Dev) (l : Nat) : Dev :=
  let h := d.hem
  let on (port : Nat) (o : SyncOut) : SyncOut :=
    if syncSelects port l && !o.running && o.relockAt.isNone then { o with relockAt := some d.now } else o
  { d with hem := { h with sync0 := on h.io.synce0Port h.sync0, sync1 := on h.io.synce1Port h.sync1 } }

/-- R59: an output whose lane loses lock is held low, with an event. -/
def Dev.syncSquelch (d : Dev) (l : Nat) : Dev :=
  let h := d.hem
  let off (port : Nat) (o : SyncOut) : SyncOut := if syncSelects port l then .reset else o
  let hit (port : Nat) (o : SyncOut) : Bool := syncSelects port l && o.running
  let d' := { d with hem := { h with sync0 := off h.io.synce0Port h.sync0, sync1 := off h.io.synce1Port h.sync1 } }
  let d' := if hit h.io.synce0Port h.sync0 then d'.raise 0x0204 timeAud [0] else d'
  if hit h.io.synce1Port h.sync1 then d'.raise 0x0204 timeAud [1] else d'

/-- LANE_LOCK_ACQUIRE. -/
def execLaneLockAcquire (lane : Nat) (kind : LockKind) (s : State) : Host.Outcome State Fault Refusal :=
  running (fun d =>
    if 96 ≤ lane then d
    else
      let l := (d.lane lane).withLock kind true
      let d := d.setLane lane l
      match d.portOfLane lane with
      | none => d
      | some p =>
        let d := if l.locked ((d.port p).cfg.fec != 0) then d.syncRelock lane else d
        d.advanceLink p) s

/-- R80: a frame in reception on port `p` is truncated. -/
def Dev.truncateRx (d : Dev) (p : Nat) : Dev :=
  let x := d.port p
  match x.rxFrame with
  | none => d
  | some fid =>
    let d := d.setPort p { x with rxFrame := none }
    d.withFrame fid fun f => d.rxEnd fid { f with truncated := true, macsecHeld := false } .rxTruncated

/-- A lane loses a lock: the loss counted, its SyncE outputs squelched, the frame in reception truncated. -/
def Dev.loseLock (d : Dev) (lane : Nat) (kind : LockKind) : Dev :=
  let l := d.lane lane
  if !l.hasLock kind then d
  else
    let d := d.setLane lane (l.withLock kind false)
    let d := if kind = .pcs || kind = .fec then d.inc .pcsLockLoss lane 0 else d
    match d.portOfLane lane with
    | none => d.syncSquelch lane
    | some p =>
      if kind = .fec && (d.port p).cfg.fec = 0 then d
      else ((d.syncSquelch lane).truncateRx p).advanceLink p

/-- LANE_LOCK_LOSS. -/
def execLaneLockLoss (lane : Nat) (kind : LockKind) (s : State) : Host.Outcome State Fault Refusal :=
  running (fun d => if 96 ≤ lane then d else d.loseLock lane kind) s

/-- REMOTE_FAULT_RX: remote fault received, or no longer received. -/
def execRemoteFaultRx (port : Nat) (present : Bool) (s : State) : Host.Outcome State Fault Refusal :=
  running (fun d =>
    if 96 ≤ port || d.companion port then d
    else (d.setPort port { d.port port with remoteFault := present }).advanceLink port) s

/-- DOWN_HOLD_EXPIRY: the port goes down and enters ALIGN. -/
def execDownHoldExpiry (port : Nat) (s : State) : Host.Outcome State Fault Refusal :=
  running (fun d =>
    let x := d.port port
    match x.lossSince with
    | none => d
    | some t =>
      if !d.isUp port || d.now < t + x.cfg.downHold * cyclesPerUs then d
      else (d.leaveUp port).enterAlign port) s

/-- AN_RESOLVED: agreement leads to TRAIN; disagreement leaves the port in AN. -/
def execAnResolved (port mode fec : Nat) (s : State) : Host.Outcome State Fault Refusal :=
  running (fun d =>
    let x := d.port port
    if x.link != .an then d
    else
      let d := d.setPort port { x with anResult := some (mode, fec) }
      if mode = x.cfg.mode && fec = x.cfg.fec then d.setLink port .train
      else d.raise 0x0301 (ownerMaint ++ d.holderAud port) [Config.anMismatch]) s

/-- TRAINING_COMPLETE. -/
def execTrainingComplete (port : Nat) (s : State) : Host.Outcome State Fault Refusal :=
  running (fun d => if (d.port port).link != .train then d else d.enterAlign port) s

/-- TRAINING_TIMEOUT: 500 ms in TRAIN lead back to AN, or TRAIN restarts. -/
def execTrainingTimeout (port : Nat) (s : State) : Host.Outcome State Fault Refusal :=
  running (fun d =>
    let x := d.port port
    if x.link != .train || d.now < x.since + 500 * cyclesPerMs then d
    else if x.cfg.flags.testBit 0 then d.setLink port .an
    else d.setPort port { x with since := d.now }) s

/-- UP_HOLD_EXPIRY: the port enters UP. -/
def execUpHoldExpiry (port : Nat) (s : State) : Host.Outcome State Fault Refusal :=
  running (fun d =>
    let x := d.port port
    if x.link != .lockedWait || d.now < x.since + x.cfg.upHold * cyclesPerMs then d
    else
      let d := d.setLink port .up
      (d.setPort port { d.port port with flushing := false, lossSince := none }).raise 0x0301
        (ownerMaint ++ d.holderAud port) []) s

/-! ### The Cuff-to-Sleeve switch (R83) -/

/-- Whether packets of Cuff `c` are in flight in its Sleeve, recirculation passes included. -/
def Dev.cuffBusy (d : Dev) (c : Nat) : Bool :=
  d.ports.frames.cells.any fun x => x.2.origin == .cuff && x.2.port / 4 = c && x.2.flying

/-- Whether tenancy `t` has an entry of port `p`'s map. -/
def PortMap.maps (m : PortMap) (t : Nat) : Bool :=
  m.tenancy = t || (m.mode = 1 && m.vids.cells.any fun v => v.2 = t)

/-- The tenants that hold a port of Cuff `c`. -/
def Dev.cuffTenants (d : Dev) (c : Nat) : List Aud :=
  ((List.range 16).filter fun t => t != 0 && (List.range 4).any fun l => (d.portMap (c * 4 + l)).maps t).map .tenancy

/-- The frames of a Cuff that no slot has taken move to another Sleeve, with their Pockets. -/
def Dev.moveSlices (d : Dev) (c s : Nat) : Dev :=
  d.ports.frames.cells.foldl (fun d x =>
    let f := x.2
    if f.origin == .cuff && f.port / 4 = c && f.phase == .slot && f.pass = 0 then
      (d.handOver f.sleeve s f.pockets).setFrame x.1 { f with sleeve := s }
    else d) d

/-- CUFF_FENCE_DRAINED: the switch connects the Cuff to the new Sleeve. -/
def execCuffFenceDrained (cuff : Nat) (s : State) : Host.Outcome State Fault Refusal :=
  running (fun d =>
    let x := d.cuff cuff
    match x.move with
    | none => d
    | some m =>
      if d.cuffBusy cuff then d
      else
        let d := (d.setCuff cuff { x with sleeve := m.target, move := none }).moveSlices cuff m.target
        (d.finish m.token .ok 0 []).raise 0x0303 (.owner :: d.cuffTenants cuff) [d.now - m.started]) s

/-- CUFF_MOVE_TIMEOUT: the Cuff stays on its Sleeve. -/
def execCuffMoveTimeout (cuff : Nat) (s : State) : Host.Outcome State Fault Refusal :=
  running (fun d =>
    let x := d.cuff cuff
    match x.move with
    | none => d
    | some m =>
      if !d.cuffBusy cuff || d.now < m.started + m.timeoutUs * cyclesPerUs then d
      else (d.setCuff cuff { x with move := none }).finish m.token .timeout 0 []) s

/-- Whether a Sleeve is source or target of a move. -/
def Dev.moving (d : Dev) (s : Nat) : Bool :=
  (List.range 24).any fun c => match (d.cuff c).move with
    | some m => m.target = s || (d.cuff c).sleeve = s
    | none => false

/-- The port configurations that a Sleeve would serve with Cuff `c` attached. -/
def Dev.portsWith (d : Dev) (s c : Nat) : List PortConfigRec :=
  ((List.range 96).filter fun p => (p / 4 = c || d.sleeveOf p = s) && !d.companion p).map fun p => (d.port p).cfg

/-- R484: a Sleeve out of service, under test or failed takes no Cuff, nor does one with such a bank that a tenancy
holds. -/
def Dev.barred (d : Dev) (s : Nat) : Bool :=
  d.outOfService s ||
    (List.range 16).any fun b => d.outOfService (32 + 16 * s + b) && (d.unit 3 b).tenancy.isSome

/-- R84's checks. -/
def cuffAttachChecks (who : Sender) (d : Dev) (r : CuffAttachRec) : List (Bool × Status) :=
  let x := d.sleeve r.sleeve
  [(!who.isOwner, .notPermitted),
   (23 < r.cuff || 6 < r.sleeve || r.moveTimeout < 1 || 1000 < r.moveTimeout, .badField),
   (!x.enabled || (d.replayOn r.sleeve).isSome || d.moving r.sleeve || (d.cuff r.cuff).move.isSome ||
      d.barred r.sleeve, .badState),
   (!x.shares.oversubscribe && !withinBudget (d.portsWith r.sleeve r.cuff) x.shares, .noSpace)]

/-- CUFF_ATTACH. -/
def execCuffAttach (h : Hdr) (r : CuffAttachRec) (s : State) : Host.Outcome State Fault Refusal :=
  runMessage { code := 0x0301, lenOk := exactly 8, maxBody := 0, canAsync := true, early := false } h (fun who d =>
    checked (cuffAttachChecks who d r) d fun d =>
      let x := d.cuff r.cuff
      if x.sleeve = r.sleeve then (.say .ok, d)
      else
        let m : CuffMove := { target := r.sleeve, started := d.now, timeoutUs := r.moveTimeout, token := who.tok }
        (.wait, d.setCuff r.cuff { x with move := some m })) s

/-! ### Port configuration (R86, R87) -/

/-- Table 3-2: the FEC encodings that a mode permits. -/
def fecPermitted (mode fec : Nat) : Bool :=
  match mode with
  | 0 => decide (fec ≤ 3)
  | 1 => decide (fec ≤ 1)
  | 2 => decide (fec ≤ 2)
  | _ => fec = 3

/-- Table 3-1: whether a mode may stand on the lane of a port. -/
def lanePermitted (port mode : Nat) : Bool :=
  match mode with
  | 5 => port % 2 = 0
  | 6 => port % 4 = 0
  | _ => true

/-- Whether a record has a value out of range (Table 3-8). -/
def portConfigBad (r : PortConfigRec) : Bool :=
  95 < r.port || 6 < r.mode || !fecPermitted r.mode r.fec || !lanePermitted r.port r.mode ||
    r.maxFrame < 1518 || 9216 < r.maxFrame ||
    (!cfgDeep r && !([64, 128, 256, 384].contains r.sliceLen)) ||
    (r.flags.testBit 3 && (r.linkHold < 1 || 100 < r.linkHold)) ||
    1000 < r.downHold || 10000 < r.upHold

/-- The configurations of a Sleeve's ports with port `p`'s replaced, without the companions it makes. -/
def Dev.portsAfter (d : Dev) (r : PortConfigRec) : List PortConfigRec :=
  let s := d.sleeveOf r.port
  ((List.range 96).filter fun p =>
    d.sleeveOf p = s && !d.companion p && !(r.port ≤ p && p < r.port + max 1 (modeLanes r.mode))).map
      (fun p => (d.port p).cfg) ++ [r]

/-- R86's checks; before SYS_READY a record with a mode other than 0 is refused first (R481). -/
def portConfigChecks (who : Sender) (d : Dev) (r : PortConfigRec) : List (Bool × Status) :=
  let s := d.sleeve (d.sleeveOf r.port)
  let others := (List.range 96).filter fun p => p != r.port && cfgDeep (d.port p).cfg
  [(r.mode != 0 && !d.boot.ready, .badState),
   (!who.isOwner, .notPermitted),
   (portConfigBad r, .badField),
   (d.companion r.port || ((List.range (modeLanes r.mode - 1)).any fun i => (d.port (r.port + 1 + i)).cfg.mode != 0),
     .badState),
   ((cfgDeep r && 8 ≤ others.length) || (!s.shares.oversubscribe && !withinBudget (d.portsAfter r) s.shares),
     .noSpace)]

/-- Whether a change restarts bring-up (R87). -/
def restarts (old new : PortConfigRec) : Bool :=
  old.mode != new.mode || old.fec != new.fec || old.flags % 4 != new.flags % 4

/-- R87: a port taken to DISABLED with new settings, and brought up anew. Its lanes, old and new, hold no lock
of the new mode. -/
def Dev.restartPort (d : Dev) (r : PortConfigRec) : Dev :=
  let p := r.port
  let lanes := List.range (max (modeLanes (d.port p).cfg.mode) (modeLanes r.mode))
  let d := d.truncateRx p
  let d := if d.isUp p then d.leaveUp p else d
  let d := d.setPort p { d.port p with
    cfg := r, rxCfg := r, txCfg := r, anResult := none, remoteFault := false, lossSince := none }
  let d := lanes.foldl (fun d i => (d.setLane (p + i) .reset).syncSquelch (p + i)) d
  (d.setLink p .disabled).bringUp p

/-- PORT_CONFIG_SET. -/
def execPortConfigSet (h : Hdr) (r : PortConfigRec) (s : State) : Host.Outcome State Fault Refusal :=
  runMessage { code := 0x0302, lenOk := exactly 16, maxBody := 0 } h (fun who d =>
    setting (portConfigChecks who d r) d fun d =>
      let r := { r with flags := r.flags % 16, urgentPcp := r.urgentPcp % 256, urgentUntagged := r.urgentUntagged % 2 }
      let x := d.port r.port
      if restarts x.cfg r then d.restartPort r else d.setPort r.port { x with cfg := r }) s

/-- PORT_SETTING_EFFECT: at a frame boundary of a direction, the accepted settings come into force there. -/
def execPortSettingEffect (port : Nat) (dir : Dir) (s : State) : Host.Outcome State Fault Refusal :=
  running (fun d =>
    let x := d.port port
    if 96 ≤ port then d
    else match dir with
    | .rx => if x.rxFrame.isSome then d else d.setPort port { x with rxCfg := x.cfg }
    | .tx => if x.txFrame.isSome then d else d.setPort port { x with txCfg := x.cfg }) s

/-! ### Status and statistics (R88, R89) -/

/-- The code of a link state. -/
def LinkState.code : LinkState → Nat
  | .disabled => 0
  | .an => 1
  | .train => 2
  | .align => 3
  | .lockedWait => 4
  | .up => 5

/-- The lock bits of a lane. -/
def Lane.bits (l : Lane) : Nat := b2n l.signal + 2 * b2n l.cdr + 4 * b2n l.pcs + 8 * b2n l.fec

/-- R89: who may read of port `p`. -/
def portReadChecks (who : Sender) (d : Dev) (p : Nat) : List (Bool × Status) :=
  [(who.role == .tenant && d.wholly p != some who.tenancy, .notPermitted), (95 < p, .badField)]

/-- The lanes of which a port's status and counters tell. -/
def Dev.ownLanes (d : Dev) (p : Nat) : List Nat := if (d.lanesOf p).isEmpty then [p] else d.lanesOf p

/-- PORT_STATUS_GET. -/
def execPortStatusGet (h : Hdr) (port : Nat) (s : State) : Host.Outcome State Fault Refusal :=
  runMessage { code := 0x0303, lenOk := fun _ => true, maxBody := 2048, changes := false } h (fun who d =>
    checked (portReadChecks who d port) d fun d =>
      let x := d.port port
      let an := match x.anResult with
        | some (m, f) => [1, m, f]
        | none => [0, 0, 0]
      (.list ([x.link.code] ++ an ++ [x.rxCfg.fec, d.sleeveOf port, x.changed.sec, x.changed.ns, x.changed.frac] ++
        (d.ownLanes port).map fun l => (d.lane l).bits), d)) s

/-- The counters of the Traffic class of Table 3-9. -/
def trafficCtrs : List Ctr :=
  [.rxFramesOk, .rxOctetsOk, .rxFcsErr, .rxUndersize, .rxRunt, .rxOversize, .rxMacControl, .rxSlotOverflow,
   .rxMacsecDiscard, .rxUnmapped, .rxPoolDropPort, .txFrames, .txOctets, .txLinkDownDiscard, .txOversizeDiscard]

/-- The counters of the Link class, of the port and of each of its lanes. -/
def linkCounters (d : Dev) (p : Nat) : List Nat :=
  [d.ctr .rxTruncated p 0, d.ctr .txAborted p 0, d.ctr .linkDownEvents p 0] ++
    (d.ownLanes p).flatMap fun l =>
      [d.ctr .fecCorrected l 0, d.ctr .fecUncorrectable l 0, d.ctr .fecSymbolErr l 0, d.ctr .pcsLockLoss l 0]

/-- MAC_STATS_GET: maintenance receives the Link class only. -/
def execMacStatsGet (h : Hdr) (port : Nat) (s : State) : Host.Outcome State Fault Refusal :=
  runMessage { code := 0x0304, lenOk := fun _ => true, maxBody := 2048, changes := false } h (fun who d =>
    checked (portReadChecks who d port) d fun d =>
      let traffic := if who.isMaint then [] else trafficCtrs.map fun c => d.ctr c port 0
      (.list (traffic ++ linkCounters d port), d)) s

end Sys2Proof.Machine
end

