-- ==== Sys2Proof/Machine/SchedOps.lean ====
section
/-! DEFINITION. What the egress schedulers compute (11): shaper credit, the walk of a gate control list and the
open runs it gives, the eligibility of a head frame, and deficit round robin. -/

namespace Sys2Proof.Machine

/-! ### Settings and credit (R275, R280) -/

/-- The selection settings of port `p`. -/
def Dev.schedPort (d : Dev) (p : Nat) : SchedPort := d.queues.ports.get .reset p

/-- Queue `q` of port `p`. -/
def Dev.schedQueue (d : Dev) (p q : Nat) : SchedQueue := d.queues.queues.get .reset (qKey p q)

/-- Queue `q` of port `p` replaced. -/
def Dev.setSchedQueue (d : Dev) (p q : Nat) (x : SchedQueue) : Dev :=
  { d with queues := { d.queues with queues := d.queues.queues.set (qKey p q) x } }

/-- The shaper credit at cycle `now`, in 2^-32 byte. -/
def SchedQueue.creditNow (x : SchedQueue) (now : Nat) : Int :=
  min (x.credit + ((rateInc x.rate * (now - x.creditAt) : Nat) : Int)) ((x.burst * 2 ^ 32 : Nat) : Int)

/-- Whether the shaper permits a frame at cycle `now`. -/
def SchedQueue.permits (x : SchedQueue) (now : Nat) : Bool := !x.shaper || decide (0 ≤ x.creditNow now)

/-- The credit after a debit of `len` bytes at cycle `now`. -/
def SchedQueue.debit (x : SchedQueue) (now len : Nat) : SchedQueue :=
  { x with credit := x.creditNow now - ((len * 2 ^ 32 : Nat) : Int), creditAt := now }

/-! ### Gate control lists (R281 to R285) -/

/-- The gates of port `p`. -/
def Dev.gatePort (d : Dev) (p : Nat) : GatePort := d.queues.gates.get .reset p

/-- The gates of port `p` replaced. -/
def Dev.setGatePort (d : Dev) (p : Nat) (x : GatePort) : Dev :=
  { d with queues := { d.queues with gates := d.queues.gates.set p x } }

/-- The gate of a queue. -/
def Dev.gateOf (d : Dev) (p q : Nat) : Nat := bits (d.schedPort p).gateMap (3 * q) 3

/-- The length of the longest run of open segments, of a list of segments read in order; the second number is
the run that stands. -/
def longestRun (g : Nat) : List (Nat × Nat) → Nat → Nat → Nat
  | [], best, _ => best
  | (n, st) :: l, best, run =>
    let r := if st.testBit g then run + n else 0
    longestRun g l (max best r) r

/-- The segments of one cycle of a list, `total` cycles long: entries cut at the boundary, the last held to
it. -/
def cycleSegments : List GateEntry → Nat → List (Nat × Nat)
  | [], _ => []
  | [e], left => [(left, e.gateStates)]
  | e :: f :: l, left =>
    (min (e.durationM1 + 1) left, e.gateStates) ::
      (if left ≤ e.durationM1 + 1 then [] else cycleSegments (f :: l) (left - (e.durationM1 + 1)))

/-- R285: the longest open run of each gate, hold and wrap counted; none for a gate open throughout. The cycle
time counts three core cycles a nanosecond. -/
def longestRuns (es : List GateEntry) (cycleNs : Nat) : List (Option Nat) :=
  let segs := cycleSegments es (3 * cycleNs)
  (List.range 8).map fun g =>
    if segs.all fun s => s.2.testBit g then none else some (longestRun g (segs ++ segs) 0 0)

/-- R282: the operational list that a configuration change installs. -/
def GatePort.installs (x : GatePort) : GateList :=
  let es := (List.range x.admin.entryCount).map fun i => x.adminEntries.get { durationM1 := 0, gateStates := 0 } i
  { entries := es, baseNs := x.admin.baseSeconds * 1000000000 + x.admin.baseNs, cycleNs := x.admin.cycleNs,
    extNs := x.admin.cycleExtNs, longest := longestRuns es x.admin.cycleNs }

/-- Network time `ns` less the present time, in units of 2^-48 ns (R47). -/
def Dev.untilNs (d : Dev) (ns : Nat) : Int := timeDiff (ns * unitNs % unitWrap) d.hem.acc

/-- R283: the cycle of a network-time instant at the present HEM_INCR, the earlier one when it falls between
two; an instant that has passed is now. -/
def Dev.cycleAt (d : Dev) (ns : Nat) : Nat := d.now + (d.untilNs ns / (d.hem.incr : Int)).toNat

/-- The modulus of network time in ns. -/
def wrapNs : Nat := 2 ^ 48 * 1000000000

/-- R65: the earliest of `base + N · cycle` not before the network time `at'` (2^-48 ns); with `nonneg`, `N` is
not below zero (R282). -/
def firstBoundary (base cycle at' : Nat) (nonneg : Bool) : Nat :=
  let δ := timeDiff at' (base * unitNs % unitWrap)
  let c : Int := ((cycle * unitNs : Nat) : Int)
  let n := -((-δ) / c)
  let n := if nonneg then max n 0 else n
  (((base : Int) + n * cycle) % (wrapNs : Int)).toNat

/-- R282: whether the old list does not restart at the boundary `b`, because the change at `c` follows within
its cycle extension. -/
def extends' (l : GateList) (b : Nat) : Option Nat → Bool
  | none => false
  | some c =>
    let n := (c + wrapNs - b) % wrapNs
    decide (n < l.extNs)

/-- A place in the projection of a port's gates: the list, its entry and the cycle that began, the next
boundary, the change that is pending, and the list it installs. -/
structure GateWalk where
  list : Option GateList
  entry : Nat
  since : Nat
  nextNs : Nat
  change : Option Nat
  next : GateList

/-- The gate states at a place; `st` with no operational list. -/
def GateWalk.states (w : GateWalk) (st : Nat) : Nat :=
  match w.list with
  | none => st
  | some l =>
    match l.entries[w.entry]? with
    | some e => e.gateStates
    | none => 0

/-- The cycle in which the entry of a place ends, unless it is held. -/
def GateWalk.entryEnd (w : GateWalk) : Option Nat :=
  match w.list with
  | none => none
  | some l =>
    if w.entry + 1 < l.entries.length then (l.entries[w.entry]?).map fun e => w.since + e.durationM1 + 1
    else none

/-- What comes next at a place from cycle `t` on, in the order of a tie: a change, a boundary, the end of an
entry. -/
def Dev.gateEvent (d : Dev) (w : GateWalk) (t : Nat) : Option (Nat × Nat) :=
  let change := w.change.map fun c => (max t (d.cycleAt c), 0)
  let bound := match w.list with
    | some _ => some (max t (d.cycleAt w.nextNs), 1)
    | none => none
  let ent := w.entryEnd.map fun e => (max t e, 2)
  [change, bound, ent].foldl (fun a b =>
    match a, b with
    | some x, some y => if y.1 < x.1 then some y else some x
    | some x, none => some x
    | none, y => y) none

/-- The place after an event at cycle `t`. -/
def GateWalk.after (w : GateWalk) (t kind : Nat) : GateWalk :=
  match kind with
  | 0 =>
    let c := w.change.getD 0
    { w with list := some w.next, entry := 0, since := t, nextNs := (c + w.next.cycleNs) % wrapNs, change := none }
  | 1 =>
    match w.list with
    | none => w
    | some l =>
      let n := (w.nextNs + l.cycleNs) % wrapNs
      if extends' l w.nextNs w.change then { w with nextNs := n }
      else { w with entry := 0, since := t, nextNs := n }
  | _ => { w with entry := w.entry + 1, since := t }

/-- Whether gate `g` is open in every cycle of `[start, stop)` of a projection that stands at cycle `t`. -/
def Dev.openRun (d : Dev) (st g start stop : Nat) : Nat → GateWalk → Nat → Bool
  | 0, _, _ => false
  | fuel + 1, w, t =>
    if stop ≤ t then true
    else
      let on := (w.states st).testBit g
      match d.gateEvent w t with
      | none => on
      | some (e, k) =>
        if start < e && t < e && !on then false
        else d.openRun st g start stop fuel (w.after e k) e

/-- The place of port `p`'s gates now. -/
def GatePort.walk (x : GatePort) : GateWalk :=
  { list := x.oper, entry := x.entry, since := x.entryAt, nextNs := x.nextNs, change := x.change,
    next := x.installs }

/-- R283: whether the gate of queue `q` is open in every cycle of `[start, stop)`, no cycle of which has
passed. -/
def Dev.gateOpen (d : Dev) (p q start stop : Nat) : Bool :=
  let x := d.gatePort p
  !x.enabled || d.openRun x.adminStates (d.gateOf p q) start stop (4 * (stop - d.now) + 16) x.walk d.now

/-- R285: whether a frame of `tx` cycles can never pass the gate of queue `q`. -/
def Dev.neverFits (d : Dev) (p q tx : Nat) : Bool :=
  let x := d.gatePort p
  match x.enabled, x.oper with
  | true, some l =>
    match l.longest.getD (d.gateOf p q) none with
    | some n => decide (n < tx)
    | none => false
  | _, _ => false

/-- R284: the selections and the frame on the line of port `p` whose gate has been closed on them by a time
step or a configuration change count once. -/
def Dev.overruns (d : Dev) (p : Nat) : Dev :=
  let hit (x : Selection) : Bool :=
    !x.overran && decide (d.now < x.start + x.tx) && !d.gateOpen p x.queue (max d.now x.start) (x.start + x.tx)
  let note (x : Selection) : Selection := { x with overran := x.overran || hit x }
  let all := d.queues.selected.get [] p ++ (d.queues.sending.get? p).toList
  let d' := { d with queues := { d.queues with
    selected := d.queues.selected.set p ((d.queues.selected.get [] p).map note),
    sending := match d.queues.sending.get? p with
      | some x => d.queues.sending.set p (note x)
      | none => d.queues.sending } }
  all.foldl (fun e x => if hit x then e.inc .gateOverrun (qKey p x.queue) 0 else e) d'

/-! ### Eligibility (R276) -/

/-- The length on the wire of a queue entry, and its transmission cycles. -/
def Dev.entryLen (d : Dev) (p : Nat) (e : QEntry) : Nat := d.lenTx p e.len
def Dev.entryTx (d : Dev) (p : Nat) (e : QEntry) : Nat := d.txCycles p (d.entryLen p e)

/-- Whether the sojourn of an entry has reached its queue's limit (R286). -/
def Dev.expired (d : Dev) (p q : Nat) (e : QEntry) : Bool :=
  decide (e.since + (d.schedQueue p q).sojournUs * cyclesPerUs ≤ d.now)

/-- R241: whether a frame of `tx` cycles that starts at `t` stays clear of the reservations of port `p`. -/
def Dev.clearOfGrants (d : Dev) (p t tx : Nat) : Bool :=
  (d.grantsOn p).all fun g => decide (t + tx ≤ g.2.1 ∨ g.2.1 + g.2.2 ≤ t)

/-- What R276 asks of the head of a queue for a start at `t`, its gate apart; a queue that is being scrubbed
sends nothing (Table 16-4). -/
def Dev.readyHead (d : Dev) (p q t : Nat) (e : QEntry) : Bool :=
  d.isUp p && !(d.unit 1 (qKey p q)).scrubbing && decide (e.since < d.now) && decide (e.spill ≤ 1) && d.clearOfGrants p t (d.entryTx p e) &&
    (d.schedQueue p q).permits d.now && !d.expired p q e

/-- Whether the head of queue `q` of port `p` is eligible for a start 72 cycles from now. -/
def Dev.eligible (d : Dev) (p q : Nat) : Bool :=
  match d.queue p q with
  | e :: _ =>
    let t := d.now + 72
    d.readyHead p q t e && d.gateOpen p q t (t + d.entryTx p e)
  | [] => false

/-! ### Deficit round robin (R278) -/

/-- A queue of the weighted group as R278 visits it: number, deficit, quantum, and the length of its head on
the wire. -/
structure Visit where
  q : Nat
  deficit : Nat
  quantum : Nat
  len : Nat
  deriving DecidableEq, Repr

/-- The visits that a queue needs before its deficit reaches its head's length. -/
def Visit.rounds (v : Visit) : Nat := max 1 (ceilDiv (v.len - v.deficit) v.quantum)

/-- The first of the least rounds. -/
def leastRounds : List Visit → Option Visit
  | [] => none
  | v :: vs =>
    match leastRounds vs with
    | some w => if w.rounds < v.rounds then some w else some v
    | none => some v

/-- The deficits of an order after the visits up to `w`. -/
def visited (w k : Nat) : List Visit → List (Nat × Nat)
  | [] => []
  | v :: vs =>
    (v.q, v.deficit + v.quantum * k) ::
      (if v.q = w then vs.map fun x => (x.q, x.deficit + x.quantum * (k - 1)) else visited w k vs)

/-- A choice of the weighted group among the eligible queues `es` (ascending) with pointer `ptr`: the queue,
and the deficits before its debit. -/
def drr (es : List Visit) (ptr : Nat) : Option (Visit × List (Nat × Nat)) :=
  match es.find? fun v => v.q = ptr && decide (v.len ≤ v.deficit) with
  | some v => some (v, [])
  | none =>
    let order := es.filter (fun v => decide (ptr < v.q)) ++ es.filter fun v => decide (v.q ≤ ptr)
    (leastRounds order).map fun w => (w, visited w.q w.rounds order)

end Sys2Proof.Machine
end

