-- ==== Sys2Proof/Machine/Enqueue.lean ====
section
/-! DEFINITION. From stage 18 to the queues (07, 09, 12): the decision, the hand-off, Seam-path claims, and the
ordinary enqueue. -/

namespace Sys2Proof.Machine

/-! ### Stage 18 (R186, R213, R214, R240) -/

/-- The frame bytes that the egress rewrite engine makes of a frame. -/
def Dev.egressBytes (d : Dev) (f : Frame) : List Nat := (d.rewrite f (programOf f.desc)).bytes

/-- The length after rewrite, FCS included (R240): that of a frame longer than its slice follows from the claimed
end, or from max_frame. -/
def Dev.egressLen (d : Dev) (f : Frame) : Nat :=
  let now := (d.egressBytes f).length + 4
  (now + meteredLength f false) - f.len

/-- The launch cycle of a frame (R23). -/
def Frame.launch (f : Frame) : Nat := f.sof + 147

/-- Whether queue `q` of port `p` is time-critical, and whether it is elastic (R238). -/
def Dev.timeCritical (d : Dev) (p q : Nat) : Bool := (d.buf p q).flags.testBit 0
def Dev.elastic (d : Dev) (p q : Nat) : Bool := (d.buf p q).flags.testBit 1

/-- Network time in 2^-16 ns at cycle `c` at the present HEM_INCR. -/
def Dev.time16At (d : Dev) (c : Nat) : Int :=
  (((d.hem.acc : Int) + ((c : Int) - d.now) * d.hem.incr) / 2 ^ 32) % wrap16

/-- Whether the release window of a bound frame holds cycle `c` (R302). -/
def Dev.inWindow (d : Dev) (f : Frame) (c : Nat) : Bool :=
  match f.rel with
  | some r =>
    r.state = 0 || (decide (0 ≤ diff16 (d.time16At c) r.openAt) && decide (0 ≤ diff16 r.latest (d.time16At c)))
  | none => true

/-- Conditions 1 to 8 of Table 9-4 as stage 18 tests them. -/
def Dev.mayClaim (d : Dev) (f : Frame) : Bool :=
  let p := f.target
  let q := fld f.desc dQueue
  d.timeCritical p q && f.isLive && f.pass = 0 && !f.cont && fld f.ctx fRelState != 2 &&
    f.rxMac.validate = 0 && decide (modeGbps (d.port p).cfg.mode ≤ modeGbps (d.port f.port).cfg.mode) &&
    decide (d.egressLen f ≤ (d.port p).txCfg.maxFrame) && d.isUp p && !d.flushes p && (d.queue p q).isEmpty

/-- Whether stage 18 claims the Seam path for a packet that forwards. A packet that has missed its launch cycle
claims still, for the queue manager to count it (R23). -/
def Dev.claims (d : Dev) (f : Frame) : Bool :=
  let p := f.target
  let q := fld f.desc dQueue
  let tx := d.txCycles p (d.lenTx p (d.egressLen f))
  d.mayClaim f &&
    (decide (f.launch < d.now) ||
      (decide ((d.port p).txEnds ≤ f.launch) && (d.grantsOn p).all (fun g => decide (g.2.1 + g.2.2 ≤ f.launch)) &&
        d.gateOpen p q d.now (f.launch + tx) && (d.schedQueue p q).permits d.now))

/-- The place in the recirculation queue given up by a packet that does not recirculate. -/
def Dev.freePlace (d : Dev) (fid : Nat) (f : Frame) : Dev := if f.place then d.leavePlace fid f else d

/-- R107: the decision of a first fragment, sent to stage 4 when its last pass leaves stage 18. -/
def Dev.writeBack (d : Dev) (fid : Nat) (f : Frame) (dec : Nat) : Dev :=
  match f.fragIndex with
  | some i =>
    { d with parse := { d.parse with
        writeBacks := d.parse.writeBacks ++ [(fid, f.sleeve * 4096 + i, dec, fld f.ctx fFlowCtx)] } }
  | none => d

/-- What a packet's last pass leaves behind at stage 18, whatever its disposition: the fragment write-back, the
offer to the captures, or the comparison of a replayed packet. -/
def Dev.decided (d : Dev) (fid : Nat) (f : Frame) : Dev :=
  let dec := fld f.desc dDecision
  let d := (d.freePlace fid f).setFrame fid { f with place := false }
  let d := d.writeBack fid f dec
  if f.isReplay then d.compareReplay f dec else d.offerFrame fid dec

/-- R135: the learn request of a good frame. -/
def Dev.passLearn (d : Dev) (f : Frame) : Dev :=
  match f.learn with
  | none => d
  | some r =>
    let x := d.learner f.sleeve
    if x.queue.length < 256 then d.setLearner f.sleeve { x with queue := x.queue ++ [r] }
    else d.inc .learnQueueDrop f.sleeve 0

/-- Whether a replayed packet teaches: its record is of a frame that was whole and good (R135, R144, R362). -/
def Dev.replayTeaches (d : Dev) (f : Frame) : Bool :=
  match d.replayRecord f with
  | some r => r.body.wasWhole
  | none => false

/-- The end of a replayed packet (step 6 of R369): nothing leaves the Sleeve but its learn request. -/
def Dev.endReplayed (d : Dev) (fid : Nat) : Dev :=
  d.withFrame fid fun f =>
    let d := if d.replayTeaches f then d.passLearn f else d
    let d := (d.land f).setRefs fid { f with copies := [], learn := none } f.refs
    (d.retire fid).outcome fid 0 false

/-- The first cycle in which the next pass of a packet may be granted: the next one, and for the pass of R109 the
one that brings it through stages 0 to 3 of the deep profile (19 cycles, Table 8-1) no sooner than it may reach
stage 4. -/
def Dev.roundAt (d : Dev) (f : Frame) : Nat :=
  match f.fragWaits with
  | some c => max (d.now + 1) (c - 19)
  | none => d.now + 1

/-- A packet that makes another pass: behind the other packets of the queue. -/
def Dev.sendAround (d : Dev) (fid : Nat) (f : Frame) : Dev :=
  let x := d.sleeve f.sleeve
  let d := d.setSleeve f.sleeve { x with
    recirc := (x.recirc.filter fun r => r.fid != fid) ++ [{ fid := fid, readyAt := some (d.roundAt f) }] }
  d.setFrame fid { f with place := true, phase := .slot, pass := f.pass + 1 }

/-- A packet dropped at stage 18: out of its version slot (R175), and at the Yoke, which makes its copies (R188) and
passes its learn request (R135). -/
def Dev.dropAt18 (d : Dev) (fid : Nat) (f : Frame) : Dev :=
  let d := d.inc .drops (f.sleeve * 16 + fld f.ctx fTenancy) (fld f.desc dReason)
  let d := d.decided fid f
  d.withFrame fid fun x => (d.land x).setFrame fid { x with phase := .yoke }

/-- The descriptor of stage 18: a fault, a red packet (R266) and a release outcome (R300, R301) turn it into a
drop. -/
def decidedDesc (f : Frame) : BitVec 256 :=
  let disp := fld f.desc dDisp
  let live := disp = dispForward || disp = dispFlood || disp = dispRecirc
  if fld f.side sFaultCause != 0 then dropDesc f.desc 31
  else if f.cont then putAll f.desc [(dDisp, dispRecirc)]
  else if flag f.ctx fRedDrop && live then dropDesc f.desc 12
  else
    match f.rel with
    | some r =>
      if disp != dispForward then f.desc
      else if flag f.ctx fRelError && !r.errFwd then dropDesc f.desc 14
      else if r.state = 3 && !r.lateFwd then dropDesc f.desc 13
      else f.desc
    | none => f.desc

/-- The descriptor that leaves stage 18: only a forward or a flood has a target (Table 7-6). -/
def settledDesc (f : Frame) : BitVec 256 :=
  let x := decidedDesc f
  if fld x dDisp = dispForward || fld x dDisp = dispFlood then x else putAll x [(dTarget, 0)]

/-- A packet leaves stage 18 on its last pass: dropped, with its descriptor, or at the end of its replay. -/
def Dev.leave18 (d : Dev) (fid : Nat) (f : Frame) : Dev :=
  let disp := fld f.desc dDisp
  if f.isReplay then (d.decided fid f).endReplayed fid
  else if disp = dispForward || disp = dispFlood || disp = dispCopyOnly then
    let d := d.decided fid f
    let g := { f with place := false, phase := .handoff }
    d.withFrame fid fun x =>
      let seam := if disp = dispForward && d.claims f then Seam.claimed else .none
      d.setFrame fid { g with refs := x.refs, seam := seam }
  else d.dropAt18 fid f

/-- Stage 18 for a packet whose hook has run. -/
def Dev.decide18 (d : Dev) (fid : Nat) (f : Frame) : Dev :=
  let f := { f with desc := settledDesc f }
  let t := fld f.ctx fTenancy
  let d := if fld f.side sFaultCause != 0 then d.raiseFirst 0x0801 t 0 (ownerAnd t) [] else d
  let disp := fld f.desc dDisp
  if disp = dispRecirc then
    match d.takePlace fid f with
    | some d => d.sendAround fid f
    | none => d.leave18 fid { f with desc := dropDesc f.desc 7 }
  else d.leave18 fid f

/-- ENQUEUE_DECISION: the hook of stage 18, then its decision. -/
def execEnqueueDecision (fid : Nat) (s : State) : Host.Outcome State Fault Refusal :=
  running (fun d => d.atPhase fid .enqueue fun f =>
    let d := d.inWorld f fun d => d.hook fid 18
    d.withFrame fid fun f => d.decide18 fid f) s

/-- EGRESS_HANDOFF (stage 19): the descriptor leaves the Sleeve, and the packet its version slot (R175,
R176). -/
def execEgressHandoff (fid : Nat) (s : State) : Host.Outcome State Fault Refusal :=
  running (fun d => d.atPhase fid .handoff fun _ =>
    let d := d.hook fid 19
    d.withFrame fid fun f => (d.land f).setFrame fid { f with phase := .yoke }) s

/-! ### The Seam path (R21 to R23, R240 to R243) -/

/-- The claims that stand at port `p`, with their frames. -/
def Dev.claimsOn (d : Dev) (p : Nat) : List (Nat × Frame) :=
  d.ports.frames.cells.filter fun c => c.2.phase = .yoke && c.2.seam = .claimed && c.2.target = p

/-- Whether claim `a` goes before claim `b`: the earlier ingress timestamp, then the lower Sleeve. -/
def claimBefore (a b : Frame) : Bool :=
  let δ := diff16 a.stamp.time16 b.stamp.time16
  decide (δ < 0) || (δ = 0 && decide (a.sleeve ≤ b.sleeve))

/-- The claim that R22 puts first. -/
def firstClaim : List (Nat × Frame) → Option (Nat × Frame)
  | [] => none
  | c :: cs =>
    match firstClaim cs with
    | some b => if claimBefore c.2 b.2 then some c else some b
    | none => some c

/-- How a claim ends at the queue manager. -/
inductive Verdict where
  | grant
  | contention
  | miss
  | ordinary
  deriving DecidableEq

/-- The queue manager's test of a claim (Table 9-4, R77, R302). -/
def Dev.judge (d : Dev) (f : Frame) : Verdict :=
  let p := f.target
  let q := fld f.desc dQueue
  let tx := d.txCycles p (d.lenTx p (d.egressLen f))
  if !d.timeCritical p q || (d.unit 1 (qKey p q)).scrubbing || !d.isUp p || d.flushes p || !(d.queue p q).isEmpty || (f.ended && f.bad) || f.noMore
  then .ordinary
  else if 62 < arrivalCycles f.slice f.len (modeGbps (d.port f.port).cfg.mode) || f.sof + 136 < d.now then .miss
  else if f.launch < (d.port p).txEnds || !d.clearOfGrants p f.launch tx then .contention
  else if !d.gateOpen p q f.launch (f.launch + tx) || !(d.schedQueue p q).permits d.now || !d.inWindow f f.launch
  then .ordinary
  else .grant

/-- A claim granted: the transmitter reserved, the shaper debited, the Pockets the queue manager's. -/
def Dev.grantClaim (d : Dev) (fid : Nat) (f : Frame) : Dev :=
  let p := f.target
  let q := fld f.desc dQueue
  let len := d.lenTx p (d.egressLen f)
  let x := d.schedQueue p q
  let d := d.setSchedQueue p q (if x.shaper then x.debit d.now len else x)
  (d.toManager f).setFrame fid { f with seam := .granted f.launch (d.txCycles p len) }

/-- SEAM_CLAIM: the first claim of the port is tested, every other one becomes an ordinary enqueue. -/
def execSeamClaim (port : Nat) (s : State) : Host.Outcome State Fault Refusal :=
  running (fun d =>
    let cs := d.claimsOn port
    match firstClaim cs with
    | none => d
    | some (fid, f) =>
      let v := d.judge f
      let d := (cs.filter fun c => c.1 != fid).foldl (fun d c =>
        (d.inc .seamContention port 0).setFrame c.1 { c.2 with seam := .none }) d
      match v with
      | .grant => d.grantClaim fid f
      | .contention => (d.inc .seamContention port 0).setFrame fid { f with seam := .none }
      | .miss => (d.inc .seamMiss port 0).setFrame fid { f with seam := .none }
      | .ordinary => d.setFrame fid { f with seam := .none }) s

/-! ### Queue entries -/

/-- The lowest `n` units from `u` on that are neither used nor on a channel that nothing serves. -/
def Dev.unitsFrom (d : Dev) (top : Nat) : Nat → Nat → Nat → List Nat
  | 0, _, _ => []
  | fuel + 1, u, n =>
    if n = 0 || top ≤ u then []
    else if d.yoke.spillUnits.contains u || !d.unitServed u then d.unitsFrom top fuel (u + 1) n
    else u :: d.unitsFrom top fuel (u + 1) (n - 1)

/-- Units of the region for `n` Pockets, if they fit. -/
def Dev.spillRoom (d : Dev) (n : Nat) : Option (List Nat) :=
  let us := d.unitsFrom (d.yoke.regionMib * 4096) (d.yoke.spillUnits.length + 48 * (n + 1)) 0 n
  if us.length = n then some us else none

/-- R247: the units of a frame of `n` Pockets that meets the spill test of a queue. -/
def Dev.spillTest (d : Dev) (p q n : Nat) : Option (List Nat) :=
  let b := d.buf p q
  let es := d.queue p q
  let spilled := (es.map fun e => e.units.length).sum
  if d.elastic p q && decide (b.spillMark ≤ queuePockets es) && decide (spilled + n ≤ b.spillMax) then d.spillRoom n
  else none

/-- An entry appended to its queue. -/
def Dev.append (d : Dev) (p q : Nat) (e : QEntry) : Dev := (d.addDesc 1).setQueue p q (d.queue p q ++ [e])

/-- The entry of a frame for a port. -/
def Dev.entryFor (d : Dev) (fid : Nat) (f : Frame) (late : Bool) : QEntry :=
  { fid := fid, since := d.now, pockets := f.pockets.length, spill := 0, units := [], late := late, trunc := 0,
    isMirror := false, len := (d.egressBytes f).length + 4 }

/-- Lines 5 and 6 of R239: whether the entry was made. -/
def Dev.lineFive (d : Dev) (p q : Nat) (e : QEntry) : Bool × Dev :=
  if (d.buf p q).limit < queuePockets (d.queue p q) + e.pockets then (false, (d.queueDrop p q 24).fateDrop e.fid 24)
  else (true, d.append p q e)

/-- What an ordinary enqueue on a queue came to: an entry, or a drop with its reason (0: none to give). -/
structure Placed where
  made : Bool
  reason : Nat

/-- A late action taken in the Yoke (R300, R302, R303). -/
def Dev.lateAction (d : Dev) (p q fid : Nat) (f : Frame) (r : RelData) : Placed × Dev :=
  let t := fld f.ctx fTenancy
  let d := d.raiseFirst 0x0C01 t 0 [.tenancy t] []
  if r.lateFwd then
    let (ok, d) := (d.inc .calLateFwd p t).lineFive p q (d.entryFor fid f true)
    ({ made := ok, reason := if ok then 0 else 24 }, d)
  else ({ made := false, reason := 13 }, (d.inc .calLateDrop p t).fateDrop fid 13)

/-- The calendar of port `p`: frames with the cycle of their entry, in order of entry. -/
def Dev.calendar (d : Dev) (p : Nat) : List (Nat × Nat) := d.yoke.calendars.get [] p

/-- The calendar of port `p` replaced; `n` entries of the store come free or are taken. -/
def Dev.setCalendar (d : Dev) (p : Nat) (c : List (Nat × Nat)) : Dev :=
  let old := (d.calendar p).length
  { d with yoke := { d.yoke with calendars := d.yoke.calendars.set p c,
                                 calEntries := d.yoke.calEntries + c.length - old } }

/-- The limit of port `p`'s calendar (R308). -/
def Dev.calLimit (d : Dev) (p : Nat) : Nat := d.rel.limits.get 1024 p

/-- R302 for a bound frame, lines 1 to 3 of R239 passed. -/
def Dev.enqueueBound (d : Dev) (p q fid : Nat) (f : Frame) (r : RelData) : Placed × Dev :=
  let t := fld f.ctx fTenancy
  if 0 < diff16 d.time16 r.latest then d.lateAction p q fid f r
  else if r.state = 1 || 0 ≤ diff16 d.time16 r.openAt then
    let (ok, d) := d.lineFive p q (d.entryFor fid f false)
    ({ made := ok, reason := if ok then 0 else 24 }, d)
  else if d.calLimit p ≤ (d.calendar p).length || 65536 ≤ d.yoke.calEntries then
    ({ made := false, reason := 15 },
     ((d.inc .calFull p t).fateDrop fid 15).raiseFirst 0x0C02 p 0 (ownerMaint ++ [.tenancy t]) [])
  else
    ({ made := true, reason := 0 },
     (((d.addDesc 1).setCalendar p (d.calendar p ++ [(fid, d.now)])).inc .calEntered p t))

/-- Lines 2 to 6 of R239 for one queue. -/
def Dev.enqueueOn (d : Dev) (p q fid : Nat) (f : Frame) : Placed × Dev :=
  if d.flushes p then ({ made := false, reason := 0 }, d.inc .txLinkDownDiscard p 0)
  else if descTotal ≤ d.yoke.descUsed then ({ made := false, reason := 26 }, (d.queueDrop p q 26).fateDrop fid 26)
  else
    let plain (d : Dev) : Placed × Dev :=
      let (ok, d) := d.lineFive p q (d.entryFor fid f false)
      ({ made := ok, reason := if ok then 0 else 24 }, d)
    match f.rel with
    | some r => if r.state = 0 then plain d else d.enqueueBound p q fid f r
    | none =>
      match d.spillTest p q f.pockets.length with
      | some us =>
        let e := { d.entryFor fid f false with spill := 1, units := us }
        let d := { d with yoke := { d.yoke with spillUnits := d.yoke.spillUnits ++ us } }
        let d := (d.append p q e).requestUnits (.spillWrite fid) true us
        ({ made := true, reason := 0 }, d.inc .spillFrames (qKey p q) 0)
      | none => plain d

/-- The queues that a frame's descriptor names: one, or those of the members of a flood. -/
def targetsOf (f : Frame) : List (Nat × Nat) :=
  let q := fld f.desc dQueue
  if fld f.desc dDisp = dispFlood then f.members.map fun p => (p, q) else [(f.target, q)]

/-! ### ENQUEUE (R97, R135, R239) -/

/-- R97: whether a frame claims more than it has received, and whether its port's action drops it. -/
def lateMalformed (f : Frame) : Bool := decide (f.len - 4 < fld f.side sClaimed)

/-- The end of a frame's enqueue: `n` descriptors made, its copies counted. -/
def Dev.enqueued (d : Dev) (fid : Nat) (jobs : List CopyJob) (n o : Nat) (seam : Bool) : Dev :=
  let d := d.withFrame fid fun f => d.setRefs fid { f with copies := jobs } (f.refs + n + jobs.length)
  (d.retire fid).outcome fid o seam

/-- An ordinary enqueue of a good frame. -/
def Dev.enqueueAll (d : Dev) (fid : Nat) (f : Frame) : Dev :=
  let ts := targetsOf f
  let (n, why, d) := ts.foldl (fun (a : Nat × Nat × Dev) t =>
    let (x, e) := a.2.2.enqueueOn t.1 t.2 fid f
    (a.1 + b2n x.made, if a.2.1 = 0 then x.reason else a.2.1, e)) (0, 0, d)
  let d := if fld f.desc dDisp = dispFlood
    then d.bump .floodReplicas (f.sleeve * 16 + fld f.ctx fTenancy) 0 n else d
  d.enqueued fid f.copies n (if n = 0 then why else 0) false

/-- A frame at the Yoke with its last byte in Pockets: one that no queue takes (R188), then line 1 of R239 and the
others. -/
def Dev.enqueueFrame (d : Dev) (fid : Nat) (f : Frame) : Dev :=
  let disp := fld f.desc dDisp
  if f.bad then d.enqueued fid [] 0 63 false
  else if disp != dispForward && disp != dispFlood then
    (if f.noMore then d else d.passLearn f).enqueued fid f.copies 0 0 false
  else if f.noMore then
    let d := (targetsOf f).foldl (fun d t => d.queueDrop t.1 t.2 25) d
    (d.fateDrop fid 25).enqueued fid f.copies 0 25 false
  else if lateMalformed f then
    let d := d.inc .parseMalformedLate f.port 0
    if (d.parsePort f.port).malformedAction = 2 then (d.passLearn f).enqueueAll fid f
    else (d.passLearn f).enqueued fid [] 0 63 false
  else (d.passLearn f).enqueueAll fid f

/-- ENQUEUE: a frame that has ended meets the queue manager; one that has launched on the Seam path leaves its
learn request and its copies. -/
def execEnqueue (fid : Nat) (s : State) : Host.Outcome State Fault Refusal :=
  running (fun d => d.atPhase fid .yoke fun f =>
    if !f.ended then d
    else
      match f.seam with
      | .none => d.enqueueFrame fid f
      | .launched =>
        if f.bad then d.enqueued fid [] 0 63 true
        else (d.passLearn f).enqueued fid f.copies 0 0 true
      | _ => d) s

end Sys2Proof.Machine
end

