-- ==== Sys2Proof/Machine/Transmit.lean ====
section
/-! DEFINITION. A frame on its way out of an egress Cuff (02, 03, 07, 13): its rewrite, the max_frame check, the
MACsec transmit lane, the egress timestamp and the PTP updates. -/

namespace Sys2Proof.Machine

/-! ### Bytes -/

/-- The frame check sequence of a frame, in wire order. -/
def fcsOf (bs : List Nat) : List Nat := leBytes 4 (hash1 bs)

/-- What the Pockets of a frame hold, frame check sequence included (R226). -/
def Frame.held (f : Frame) : List Nat := (f.bytes ++ fcsOf f.bytes).take (256 * f.pockets.length)

/-- The bytes of a mirror that a port sends, cut to `n` bytes if `n` is not 0 and then padded to 60 (R381). -/
def Frame.mirrored (f : Frame) (n : Nat) : List Nat :=
  if n = 0 then f.bytes else f.held.take n ++ List.replicate (60 - n) 0

/-! ### Egress timestamps (R48, R49, R75) -/

/-- The least Cuff transmit latency of a mode and FEC, and the values of its range (Table 3-3). -/
def txLatency : Nat → Nat → Nat × Nat
  | 1, 0 => (60, 1)
  | 1, _ => (72, 1)
  | 2, 0 => (51, 1)
  | 2, 1 => (60, 1)
  | 2, _ => (66, 3)
  | 3, _ => (75, 3)
  | 4, _ => (75, 3)
  | _, _ => (80, 4)

/-- The egress timestamp of a frame that starts at the transmit MAC boundary of port `p` in cycle `start`: its
first bit reaches the ball after the Cuff's transmit latency, whose place in its range is a free value. -/
def Dev.egressStamp (d : Dev) (p start : Nat) : Stamp × Dev :=
  let r := (d.port p).txCfg
  let lat := txLatency r.mode r.fec
  let x := d.draw
  let mac := (d.cipher.txPorts.get (macsecPortReset p) p).flags.testBit 0
  let l := lat.1 + Config.freeDraw x.1 % lat.2 + (if mac then 24 else 0)
  let raw : Int := ((d.hem.acc : Int) + ((start + l : Nat) - (d.now : Int)) * (d.hem.incr : Int)) / 2 ^ 45
  let t : Int := (raw * 8192 + (d.hem.ptpTx.get .reset p).egressAsym) % wrap16
  (stampOf (t.toNat * 2 ^ 32) d.hem.stepGen, x.2)

/-! ### PTP in injected messages (R52 to R54) -/

/-- Where the PTP header of a message lies, over Ethernet or UDP. -/
def ptpAt (w : Rewriting) : Option Nat :=
  if w.l3Type = 5 then some w.l3Off
  else if w.l4Type = 1 && (beAt w.bytes (w.l4Off + 2) 2 = 319 || beAt w.bytes (w.l4Off + 2) 2 = 320) then
    some (w.l4Off + 8)
  else none

/-- R53: the UDP checksum of a message whose 16-bit words at the offsets `os` have become those of `new`. -/
def udpFix (w : Rewriting) (os new : List Nat) : List Nat :=
  let c := w.l4Off + 6
  let sum := beAt w.bytes c 2
  if w.l4Type != 1 || (w.l3Type = 1 && sum = 0) then new
  else
    let s := os.foldl (fun s o => onesAdd (onesAdd s (65535 - beAt w.bytes o 2)) (beAt new o 2)) (65535 - sum)
    patch new c (beBytes 2 (if s = 65535 then 65535 else 65535 - s))

/-- A message with `n` (2^-16 ns) added to the correctionField of the PTP header at `o`. -/
def corrected (bs : List Nat) (o : Nat) (n : Int) : List Nat :=
  patch bs (o + 8) (beBytes 8 (wrap 64 (signed 64 (beAt bs (o + 8) 8) + n)))

/-- R52: the one-step update of a Sync or a Pdelay_Resp. -/
def oneStepped (i : InjectRec) (w : Rewriting) (st : Stamp) : Option (List Nat) :=
  match ptpAt w with
  | none => none
  | some o =>
    let type := byteAt w.bytes o % 16
    let corr := (List.range 4).map fun k => o + 8 + 2 * k
    if !i.oneStep then none
    else if type = 0 then
      let bs := patch (corrected w.bytes o st.frac) (o + 34) (beBytes 6 st.sec ++ beBytes 4 st.ns)
      some (udpFix w (corr ++ (List.range 5).map fun k => o + 34 + 2 * k) bs)
    else if type = 3 then
      some (udpFix w corr (corrected w.bytes o (diff16 st.time16 (i.requestTime : Int))))
    else none

/-- R54: the egress timestamp of a two-step event message, in the FIFO of port `p` or lost. -/
def Dev.twoStep (d : Dev) (p : Nat) (i : InjectRec) (w : Rewriting) (st : Stamp) : Dev :=
  match ptpAt w with
  | none => d
  | some o =>
    let q := d.hem.fifos.get [] p
    if !i.twoStep || 3 < byteAt w.bytes o % 16 then d
    else if 16 ≤ q.length then d.inc .tsFifoOverflow p 0
    else
      let e : TxStamp := { stamp := st, messageType := byteAt w.bytes o % 16, domain := byteAt w.bytes (o + 4),
                           sequenceId := beAt w.bytes (o + 30) 2 }
      { d with hem := { d.hem with fifos := d.hem.fifos.set p (q ++ [e]) } }.inc .ptpTwoStep p 0

/-- The updates of an injected message that leaves port `p` with an egress timestamp, and its bytes. -/
def Dev.ptpOut (d : Dev) (p : Nat) (f : Frame) (w : Rewriting) (st : Stamp) : List Nat × Dev :=
  match f.origin with
  | .inject i =>
    let d := d.twoStep p i w st
    match oneStepped i w st with
    | some bs => (bs, d.inc .ptpOneStep p 0)
    | none => (w.bytes, d)
  | _ => (w.bytes, d)

/-! ### The MACsec transmit lane (R311 to R316) -/

/-- The packet number of a transmit slot taken, with what follows from it. -/
def Dev.takePn (d : Dev) (sc slot : Nat) (x : Sc) (k : SaKey) : Dev :=
  let n := k.pn + 1
  let past := !k.raised && decide (x.threshold k.suite ≤ n)
  let spent := decide (k.pn = lastPn k.suite)
  let k := { k with pn := n, raised := k.raised || past, state := if spent then .retired else k.state }
  let d := d.setSaKey slot k
  let d := if past then d.raise 0x0D01 [.tenancy x.tenancy] [] else d
  let d := if spent then d.raise 0x0D02 [.tenancy x.tenancy] [] else d
  d.inc .txPktsProtected sc 0

/-- What the transmit lane of port `p` makes of a frame: none when it is discarded, otherwise the key slot and
packet number that protect it, if any. -/
def Dev.protect (d : Dev) (p : Nat) (bs : List Nat) : Option (Option (Nat × Nat)) × Dev :=
  let m := d.cipher.txPorts.get (macsecPortReset p) p
  if !m.flags.testBit 0 || beAt bs 12 2 = 0x888E then (some none, d)
  else
    match d.sc m.txSc with
    | none => (none, d)
    | some x =>
      match x.ans.get? x.txAn with
      | none => (none, d.inc .txSaRetiredDrop m.txSc 0)
      | some slot =>
        let k := d.saKey slot
        if k.state != .active || !k.transmit then (none, d.inc .txSaRetiredDrop m.txSc 0)
        else
          let d := (d.takePn m.txSc slot x k).bump .txScOctets m.txSc 0 (bs.length + 4)
          (some (some (slot, k.pn)), if m.flags.testBit 1 then d.inc .txPktsEncrypted m.txSc 0 else d)

/-- The bytes of a frame on the line of port `p`, without frame check sequence: those that its protection makes of
them. -/
def Dev.wire (d : Dev) (p : Nat) (bs : List Nat) (prot : Option (Nat × Nat)) : List Nat :=
  let m := d.cipher.txPorts.get (macsecPortReset p) p
  match prot, d.sc m.txSc with
  | some (slot, pn), some x => secured bs m.flags x.data.sci x.txAn pn (d.saKey slot)
  | _, _ => bs

/-! ### The start of a transmission -/

/-- R304: a bound frame that starts later than its latest start. -/
def Dev.startLate (d : Dev) (p start : Nat) (f : Frame) : Dev :=
  match f.rel with
  | some r =>
    if r.state != 0 && decide (0 < diff16 (d.time16At start) r.latest) then
      d.inc .relStartLate p (fld f.ctx fTenancy)
    else d
  | none => d

/-- What starts on the line of a port. -/
structure Outgoing where
  start : Nat
  sel : Selection
  frame : Frame
  isSeam : Bool

/-- The egress source mirrors of a frame that starts on port `p` (R193), each with a reference; those of a
Seam-path frame are counted with its other copies. -/
def Dev.egressMirrors (d : Dev) (p : Nat) (o : Outgoing) : Dev :=
  let jobs := if o.sel.entry.isMirror then [] else d.sourceMirrors p 1
  d.withFrame o.sel.entry.fid fun f =>
    if jobs.isEmpty then d
    else
      d.setRefs o.sel.entry.fid { f with copies := f.copies ++ jobs }
        (f.refs + (if o.isSeam then 0 else jobs.length))

/-- A frame on the line of port `p` with its bytes, protection and timestamp. -/
def Dev.onLine (d : Dev) (p : Nat) (o : Outgoing) (bs : List Nat) (prot : Option (Nat × Nat)) (st : Stamp) : Dev :=
  let x := d.port p
  let bs := d.wire p bs prot
  let n := bs.length + 4
  let d := d.setPort p { x with txFrame := some o.sel.entry.fid, txDone := o.start + ceilDiv (n * 24) (modeGbps x.cfg.mode) }
  let k := qKey p o.sel.queue
  let sent : Sent := { bytes := bs, protect := prot, stamp := st, aborted := false }
  let d := { d with queues := { d.queues with sending := d.queues.sending.set p o.sel },
                    cipher := { d.cipher with lastSent := d.cipher.lastSent.set p sent } }
  (((d.inc .txQFrames k 0).bump .txQOctets k 0 (d.entryLen p o.sel.entry)).startLate p o.start o.frame).egressMirrors p o

/-- The egress Cuff starts a frame on port `p`, or discards and counts it; whether it has started it. -/
def Dev.sendFrame (d : Dev) (p : Nat) (o : Outgoing) : Bool × Dev :=
  let f := o.frame
  let e := o.sel.entry
  let w := if e.isMirror then { rewritingOf f with bytes := f.mirrored e.trunc } else d.rewrite f (programOf f.desc)
  let d := if e.isMirror then d else d.bump .rewriteSkipped p (fld f.ctx fTenancy) w.skipped
  if (d.port p).txCfg.maxFrame < w.bytes.length + 4 then (false, d.inc .txOversizeDiscard p 0)
  else
    match d.protect p w.bytes with
    | (none, d) => (false, d)
    | (some prot, d) =>
      let (st, d) := d.egressStamp p o.start
      let (bs, d) := if e.isMirror then (w.bytes, d) else d.ptpOut p f w st
      (true, d.onLine p o bs prot st)

end Sys2Proof.Machine
end

