-- ==== Sys2Proof/Machine/Yoke.lean ====
section
/-! DEFINITION. The Yoke's commands (09): the Seam launch, copies and mirrors, spill and return, Pocket caches,
and the messages of pools and queues. -/

namespace Sys2Proof.Machine

/-! ### The Seam launch (R23, R85, R241) -/

/-- A granted frame whose launch cycle has come. A grant left in force by R242 whose gate a time step or a
change has closed counts as R284 says. -/
def Dev.launchFrame (d : Dev) (p fid launch tx : Nat) (f : Frame) : Dev :=
  let q := fld f.desc dQueue
  let closed := !d.gateOpen p q launch (launch + tx)
  let sel : Selection := { queue := q, start := launch, tx := tx, overran := closed, entry := d.entryFor fid f false }
  let d := d.setFrame fid { f with seam := .launched }
  let (sent, d) := d.sendFrame p { start := launch, sel := sel, frame := f, isSeam := true }
  if sent then
    let d := d.setPort p { d.port p with txEnds := launch + tx }
    let d := if closed then d.inc .gateOverrun (qKey p q) 0 else d
    d.withFrame fid fun f => (d.setRefs fid f (f.refs + 1)).inc .seamFrames p 0
  else d

/-- SEAM_LAUNCH. A grant whose launch cycle has passed without a launch is withdrawn. -/
def execSeamLaunch (port : Nat) (s : State) : Host.Outcome State Fault Refusal :=
  running (fun d =>
    let d := ((d.grantsOn port).filter fun g => decide (g.2.1 < d.now)).foldl (fun d g => d.withdraw g.1 true) d
    match (d.grantsOn port).find? fun g => g.2.1 = d.now with
    | some (fid, launch, tx) =>
      if (d.port port).txFrame.isSome then d.withdraw fid true
      else d.withFrame fid fun f => d.launchFrame port fid launch tx f
    | none => d) s

/-! ### Copies and mirrors (R36, R188, R192, R193, R381, R425) -/

/-- The tenancy that a copy or mirror is delivered to. -/
def CopyTarget.tenancy : CopyTarget → Nat
  | .collar _ => 0
  | .host t => t
  | .mirror t _ => t

/-- Whether R188 cuts a job on a packet of tenancy `t` to 18 bytes. -/
def CopyJob.cut (j : CopyJob) (t : Nat) : Bool := !j.whole && j.target.tenancy = 0 && t != 0

/-- The bytes that a job reads, `n` at most if `n` is not 0. -/
def jobBytes (f : Frame) (j : CopyJob) (n : Nat) : List Nat :=
  let bs := if n = 0 then f.held else f.held.take n
  if j.cut (fld f.ctx fTenancy) then bs.take 18 else bs

/-- The receive entry of a copy (Table 17-5); a truncated copy in the owner's hands tells nothing of the packet
but its decision and its times (R381). -/
def copyEntry (f : Frame) (j : CopyJob) (queue : Nat) : RxEntry :=
  let bs := jobBytes f j j.len
  let hide := j.cut (fld f.ctx fTenancy)
  let late := flag f.desc dLate && !hide
  { index := 0, slots := ceilDiv (32 + bs.length) 64, phase := false, length := bs.length,
    port := if hide then 0 else f.port, tenancy := if hide then 0 else fld f.ctx fTenancy,
    flags := b2n (decide (bs.length < f.len)) + 2 * b2n late + 32 * queue,
    stepGen := f.stamp.gen, decision := fld f.desc dDecision, seconds := f.stamp.sec,
    frameLen := if hide then bs.length else f.len, nanos := f.stamp.ns, fraction := f.stamp.frac, bytes := bs }

/-- The copy limiter of tenancy `t` now (R192). -/
def Dev.copyLevel (d : Dev) (t : Nat) : Nat :=
  let r := d.copyLimit t
  let full : Tokens := { level := r.burst * 2 ^ 32, at' := d.now }
  (d.vers.copyTokens.get full t).now (r.ratePps * 2 ^ 32 / 3000000000) (r.burst * 2 ^ 32) d.now

/-- The function that a tenancy's copies go to: PF0 for tenancy 0, else the lowest virtual function held whose
receive ring is enabled. -/
def Dev.copyFn (d : Dev) (t : Nat) : Option Nat :=
  if t = 0 then some 0 else ((d.held t 14).map (· + 2)).find? fun f => (d.mbox f).rx.enabled

/-- A copy delivered by the Yoke: to a Collar queue, or on its way to a receive ring. -/
def Dev.sendCopy (d : Dev) (fid : Nat) (f : Frame) (j : CopyJob) : Dev :=
  match j.target with
  | .collar 0 =>
    let q := d.yoke.collarQueues.get [] 0
    { d with yoke := { d.yoke with collarQueues := d.yoke.collarQueues.set 0 (q ++ [(fid, copyEntry f j 0)]) } }
  | .collar k =>
    if descTotal ≤ d.yoke.descUsed then d.inc .copyQueueDrop j.tenancy 0
    else
      let q := d.yoke.collarQueues.get [] k
      let d := d.addDesc 1
      { d with yoke := { d.yoke with collarQueues := d.yoke.collarQueues.set k (q ++ [(fid, copyEntry f j k)]) } }
  | .host t =>
    match d.copyFn t with
    | some fn => { d with mbx := { d.mbx with rxQueue := d.mbx.rxQueue ++ [(fn, copyEntry f j 0)] } }
    | none => d.inc .rxRingDrop (d.lostFn t) 0
  | .mirror _ _ => d

/-- A copy under its limiter. -/
def Dev.makeCopy (d : Dev) (fid : Nat) (f : Frame) (j : CopyJob) : Dev :=
  let t := j.tenancy
  let n := d.copyLevel t
  let left (m : Nat) : Dev :=
    { d with vers := { d.vers with copyTokens := d.vers.copyTokens.set t { level := m, at' := d.now } } }
  if n < 2 ^ 32 then (d.inc .copyRateDrop t 0).raiseFirst 0x0702 t 0 (ownerAnd t) []
  else ((left (n - 2 ^ 32)).inc .copiesSent t 0).sendCopy fid f j

/-- A mirror appended to the queue of its target port under lines 2, 3 and 5 of R239; whether it was. -/
def Dev.mirrorTo (d : Dev) (fid : Nat) (f : Frame) (p q n t : Nat) : Bool × Dev :=
  let size := f.pockets.length
  if !d.holdsQueue t p q || d.flushes p || descTotal ≤ d.yoke.descUsed ||
      (d.buf p q).limit < queuePockets (d.queue p q) + size then (false, d)
  else
    let e : QEntry := { fid := fid, since := d.now, pockets := size, spill := 0, units := [], late := false,
                        trunc := if n < f.len then n else 0, isMirror := true,
                        len := if n < f.len then max 64 (n + 4) else f.len }
    (true, d.append p q e)

/-- A mirror under its session's limiter: whether it keeps its reference, until it is transmitted. -/
def Dev.makeMirror (d : Dev) (fid : Nat) (f : Frame) (j : CopyJob) (t k : Nat) : Bool × Dev :=
  match d.vers.mirrors.get? (t * 16 + k) with
  | none => (false, d)
  | some m =>
    let r := m.data
    let bs := jobBytes f j (64 * r.trunc)
    let cap := r.burst * 2 ^ 32
    let now := m.tokens.now (r.rateMbps * 125000 * 2 ^ 32 / 3000000000) cap d.now
    let cost := bs.length * 2 ^ 32
    let left (n : Nat) : Dev :=
      let m : Mirror := { m with tokens := { level := n, at' := d.now } }
      { d with vers := { d.vers with mirrors := d.vers.mirrors.set (t * 16 + k) m } }
    if r.target = 0 then (false, d)
    else if now < cost then (false, d.inc .mirrorRateDrop (t * 16 + k) 0)
    else
      let d := left (now - cost)
      if r.target = 1 then
        match d.mirrorTo fid f r.port r.queue bs.length t with
        | (true, d) => (true, d.inc .mirrorsSent (t * 16 + k) 0)
        | (false, d) => (false, d.inc .mirrorQueueDrop t 0)
      else
        match d.lining.captures.get? t with
        | some c =>
          if c.records' then
            let x : LinRec := { sleeve := f.sleeve, stamp := f.stamp, seq := f.seq, poisoned := false,
                                body := .mirror (bs.take 192) }
            (false, (d.setCapture t (c.offer x none true)).inc .mirrorsSent (t * 16 + k) 0)
          else (false, d.inc .mirrorQueueDrop t 0)
        | none => (false, d.inc .mirrorQueueDrop t 0)

/-- One job of a frame, and whether its reference stays. -/
def Dev.copyJob (d : Dev) (fid : Nat) (f : Frame) (j : CopyJob) (served : Bool) : Bool × Dev :=
  match j.target with
  | .mirror t k =>
    if served then d.makeMirror fid f j t k else (false, d.inc .mirrorQueueDrop t 0)
  | _ => (false, if served then d.makeCopy fid f j else d.inc .copyQueueDrop j.tenancy 0)

/-- COPY_MIRROR_READ: the next copy or mirror of a frame that has been enqueued or dropped; `served` says
whether its class's queue limit lets it read (R36). -/
def execCopyMirrorRead (fid : Nat) (served : Bool) (s : State) : Host.Outcome State Fault Refusal :=
  running (fun d => d.atPhase fid .done fun f =>
    match f.copies with
    | [] => d
    | j :: js =>
      if !f.ended then d
      else
        let d := d.setFrame fid { f with copies := js }
        match d.copyJob fid f j served with
        | (true, d) => d.settle fid
        | (false, d) => d.unref fid) s

/-- The next copy for a function: of those on their way to its ring, then, for PF0, those of Collar queues 1
to 7. -/
def Dev.nextCopy (d : Dev) (fn : Nat) : Option (RxEntry × Dev) :=
  match d.mbx.rxQueue.find? fun c => c.1 = fn with
  | some c => some (c.2, { d with mbx := { d.mbx with rxQueue := d.mbx.rxQueue.erase c } })
  | none =>
    if fn != 0 then none
    else
      (((List.range 7).map (· + 1)).filterMap fun k =>
        match d.yoke.collarQueues.get [] k with
        | c :: cs =>
          let y := { d.yoke with collarQueues := d.yoke.collarQueues.set k cs }
          some (c.2, { d with yoke := y }.subDesc 1)
        | [] => none).head?

/-- RX_RING_COPY_WRITE: a copy written into the ring, or dropped where there is no ring or no room (R425). -/
def execRxRingCopyWrite (fn : Nat) (s : State) : Host.Outcome State Fault Refusal :=
  running (fun d =>
    match d.nextCopy fn with
    | none => d
    | some (e, d) =>
      let m := d.mbox fn
      if !m.rx.enabled || m.hostLost || !(d.fend fn).busMaster || m.rx.room < e.slots then d.inc .rxRingDrop fn 0
      else
        let e := { e with index := m.rx.tail, phase := phaseBit m.rx.size m.rx.tail }
        let (sig, q) := m.irqRx.wrote d.now
        let d := d.setMbox fn { m with rx := { m.rx with tail := (m.rx.tail + e.slots) % 2 ^ 32 }, irqRx := q,
                                       copies := m.copies ++ [e] }
        let d := (d.bump .dmaWrites fn 0 (ceilDiv e.slots 8)).inc .rxCopies fn 0
        if sig then d.irqBit fn 1 q.vector true else d) s

/-! ### Spill and return (R247, R248) -/

/-- The queue that holds the entry of frame `fid` with a spill state. -/
def Dev.spillQueue (d : Dev) (fid st : Nat) : Option (Nat × List QEntry) :=
  d.yoke.queues.cells.find? fun c => c.2.any fun e => e.fid = fid && e.spill = st

/-- SPILL_WRITE_DONE: the Pockets of a frame that waits in one queue only are freed. -/
def execSpillWriteDone (fid : Nat) (s : State) : Host.Outcome State Fault Refusal :=
  running (fun d => d.withFrame fid fun f =>
    match d.spillQueue fid 1 with
    | none => d
    | some (k, es) =>
      if f.refs != 1 || !f.copies.isEmpty then d
      else
        let d := (d.handOver 16 17 f.pockets).freeAll 17 f.pockets
        let d := (d.dropReqs fun u => u == .spillWrite fid).setFrame fid { f with pockets := [] }
        d.setQueue (k / 16) (k % 16)
          (es.map fun e => if e.fid = fid && e.spill = 1 then { e with spill := 2 } else e)) s

/-- The oldest spilled entry of a queue, with the Pockets ahead of it. -/
def spilledHead : List QEntry → Nat → Option (QEntry × Nat)
  | [], _ => none
  | e :: es, n => if e.spill = 2 then some (e, n) else spilledHead es (n + (if e.spill = 3 then 0 else e.pockets))

/-- `n` Pockets from the head of pool `k` for the deep-buffer engine, if it holds them. -/
def Dev.grantMany (d : Dev) (unit k : Nat) : Nat → List Nat × Dev
  | 0 => ([], d)
  | n + 1 =>
    match d.grant unit k with
    | (some x, d) =>
      let r := d.grantMany unit k n
      (x :: r.1, r.2)
    | (none, d) => ([], d)

/-- One spilled frame of a queue returned, or a wait for its pool. -/
def Dev.returnOne (d : Dev) (p q : Nat) (e : QEntry) : Bool × Dev :=
  let k := qKey p q
  match d.frame e.fid with
  | none => (false, d)
  | some f =>
    let (ns, d) := d.grantMany 17 f.pool e.pockets
    if ns.length < e.pockets then
      let d := d.freeAll 17 ns
      (false, { d with yoke := { d.yoke with retryAt := d.yoke.retryAt.set k (d.now + 256) } }.inc .spillReturnWait k 0)
    else
      let d := ((d.handOver 17 16 ns).chain f.len ns).requestUnits (.returnRead e.fid) false e.units
      let f := { f with pockets := ns }
      let d := (d.setRefs e.fid f f.refs).freeUnits e.units
      let d := d.setQueue p q ((d.queue p q).map fun x =>
        if x.fid = e.fid && x.spill = 2 then { x with spill := 0, units := [] } else x)
      (true, d.inc .spillReturns k 0)

/-- The oldest spilled frames of a queue returned while the frames ahead of them hold too few Pockets. -/
def Dev.returnFrames (d : Dev) (p q : Nat) : Nat → Dev
  | 0 => d
  | n + 1 =>
    match spilledHead (d.queue p q) 0 with
    | none => d
    | some (e, ahead) =>
      if max 1 (d.buf p q).returnMark ≤ ahead then d
      else
        match d.returnOne p q e with
        | (true, d) => d.returnFrames p q n
        | (false, d) => d

/-- SPILL_RETURN: a queue without a return that waits for its pool. -/
def execSpillReturn (port queue : Nat) (s : State) : Host.Outcome State Fault Refusal :=
  running (fun d =>
    if (d.yoke.retryAt.get? (qKey port queue)).isSome then d
    else d.returnFrames port queue (d.queue port queue).length) s

/-- SPILL_RETURN_RETRY: 256 cycles after a return found its pool empty. -/
def execSpillReturnRetry (port queue : Nat) (s : State) : Host.Outcome State Fault Refusal :=
  running (fun d =>
    match d.yoke.retryAt.get? (qKey port queue) with
    | none => d
    | some t =>
      if d.now < t then d
      else
        let d := { d with yoke := { d.yoke with retryAt := d.yoke.retryAt.del (qKey port queue) } }
        d.returnFrames port queue (d.queue port queue).length) s

/-! ### Pocket caches (R235, R236) -/

/-- The tenancies mapped to ports of the Cuffs of Sleeve `s`. -/
def Dev.mappedTo (d : Dev) (s t : Nat) : Bool :=
  (List.range 96).any fun p =>
    d.sleeveOf p = s && ((d.portMap p).tenancy = t ||
      ((d.portMap p).mode = 1 && (d.portMap p).vids.cells.any fun c => c.2 = t))

/-- Whether the cache of a unit may serve a pool: a receive pool of a tenancy mapped to its Sleeve, or an
internal pool. -/
def Dev.mayServe (d : Dev) (unit k : Nat) : Bool :=
  if unit < 7 then d.yoke.rxPool.cells.any fun c => c.2 = k && d.mappedTo unit c.1
  else decide (8 ≤ unit ∧ unit < 15) && d.yoke.inPool.cells.any fun c => c.2 = k

/-- Whether prefetching from a pool has stopped (R236). -/
def Pool.scarce (p : Pool) : Bool := p.low || decide (p.freeCount < 896)

/-- CACHE_PREFETCH: a served pool of which the cache holds fewer than 4 Pockets is fetched to 8; a pool that it
may serve is taken up while it serves fewer than 8. -/
def execCachePrefetch (unit pool : Nat) (s : State) : Host.Outcome State Fault Refusal :=
  running (fun d =>
    if (d.pool pool).scarce || !d.mayServe unit pool then d
    else
      let c := d.cache unit
      let x? := match c.find? fun x => x.pool = pool with
        | some x => some x
        | none => if c.length < 8 then some { pool := pool, held := [], used := d.now } else none
      match x? with
      | none => d
      | some x =>
        if 4 ≤ x.held.length then d
        else
          let (ns, d) := d.grantMany unit pool (8 - x.held.length)
          d.setCache unit ((c.filter fun y => y.pool != pool) ++ [{ x with held := x.held ++ ns }])) s

/-- The pool of a cache that has been idle longest. -/
def longestIdle : List Served → Option Served
  | [] => none
  | x :: xs =>
    match longestIdle xs with
    | some y => if y.used < x.used then some y else some x
    | none => some x

/-- CACHE_IDLE_RETURN: every served pool idle for 4,096 cycles. -/
def execCacheIdleReturn (unit : Nat) (s : State) : Host.Outcome State Fault Refusal :=
  running (fun d =>
    let c := d.cache unit
    match longestIdle c with
    | none => d
    | some x =>
      if c.all fun y => decide (y.used + 4096 ≤ d.now) then
        let d := d.setCache unit (c.filter fun y => y.pool != x.pool)
        (d.freeAll unit x.held).bump .cacheReturns x.pool 0 x.held.length
      else d) s

/-- CACHE_LOW_WATER_RETURN: every cache gives back its Pockets of a pool below the mark. -/
def execCacheLowWaterReturn (pool : Nat) (s : State) : Host.Outcome State Fault Refusal :=
  running (fun d =>
    if !(d.pool pool).scarce then d
    else
      (List.range 15).foldl (fun d u =>
        let c := d.cache u
        match c.find? fun y => y.pool = pool with
        | none => d
        | some x =>
          let d := d.setCache u (c.map fun y => if y.pool = pool then { y with held := [] } else y)
          (d.freeAll u x.held).bump .cacheReturns pool 0 x.held.length) d) s

/-! ### Messages (R250 to R252) -/

/-- What POOL_SET checks. -/
def poolChecks (who : Sender) (d : Dev) (r : PoolRec) : List (Bool × Status) :=
  let p := d.pool r.pool
  let others := ((List.range 32).filter (· != r.pool)).map fun k => (d.pool k).size
  [(!who.isOwner, .notPermitted), (decide (r.pool ≤ 31) && p.epoch != who.epoch, .staleEpoch),
   (31 < r.pool || 15 < r.tenancy || 524288 < r.size, .badField),
   (decide (524288 < others.sum + r.size), .noSpace),
   (r.tenancy != p.tenancy && p.total != p.freeCount, .badState)]

/-- A role of tenancy `t` moved to pool `k`, or taken from it. -/
def setRole (roles : Tab Nat) (t k : Nat) (on : Bool) : Tab Nat :=
  if on then roles.set t k else if roles.get? t = some k then roles.del t else roles

/-- R234: a pool's size set: its free Pockets leave for the reserve, or come from it. -/
def Dev.resizePool (d : Dev) (k size : Nat) : Dev :=
  let p := d.pool k
  let (out, left) := takeRanges p.free (p.total - size)
  let d := d.setPool k { p with size := size, total := p.total - rangeCount out, free := left }
  { d with yoke := { d.yoke with reserve := d.yoke.reserve ++ out } }.fillPools.markLow k p.freeCount

/-- POOL_SET accepted; `e` is the epoch that a change of tenancy takes. -/
def Dev.applyPool (d : Dev) (r : PoolRec) (e : Nat) : Dev :=
  let p := d.pool r.pool
  let d :=
    if r.tenancy = p.tenancy then d
    else
      let y := { d.yoke with rxPool := setRole d.yoke.rxPool p.tenancy r.pool false,
                             inPool := setRole d.yoke.inPool p.tenancy r.pool false }
      { d with yoke := y }.setPool r.pool { p with tenancy := r.tenancy, epoch := e }
  let y := { d.yoke with rxPool := setRole d.yoke.rxPool r.tenancy r.pool (r.flags.testBit 0),
                         inPool := setRole d.yoke.inPool r.tenancy r.pool (r.flags.testBit 1) }
  { d with yoke := y }.resizePool r.pool r.size

/-- POOL_SET. -/
def execPoolSet (h : Hdr) (r : PoolRec) (s : State) : Host.Outcome State Fault Refusal :=
  runMessage { code := 0x0901, lenOk := exactly 8, maxBody := 0 } h (fun who d =>
    checked (poolChecks who d r) d fun d =>
      if r.tenancy = (d.pool r.pool).tenancy then (.say .ok, d.applyPool r 0)
      else takeTurn who (.pool r) (fun e d => d.applyPool r e) d) s

/-- R386: whether the epoch that a message carries for an assigned queue is not its own. -/
def Dev.staleQueue (d : Dev) (who : Sender) (p q : Nat) : Bool :=
  let u := d.unit 1 (qKey p q)
  decide (p < 96 ∧ q < 16) && u.tenancy.isSome && who.stale u.epoch

/-- What QUEUE_BUF_SET checks. -/
def queueBufChecks (who : Sender) (d : Dev) (r : QueueBufRec) : List (Bool × Status) :=
  [(!who.isOwner, .notPermitted), (d.staleQueue who r.port r.queue, .staleEpoch),
   (95 < r.port || 15 < r.queue || r.flags % 4 = 3 || 524288 < r.limit || 16777216 < r.spillMax ||
      (r.flags.testBit 1 && (r.spillMark = 0 || r.limit < r.spillMark || r.returnMark = 0 ||
        r.spillMark ≤ r.returnMark)), .badField)]

/-- QUEUE_BUF_SET. -/
def execQueueBufSet (h : Hdr) (r : QueueBufRec) (s : State) : Host.Outcome State Fault Refusal :=
  runMessage { code := 0x0902, lenOk := exactly 20, maxBody := 0 } h (fun who d =>
    setting (queueBufChecks who d r) d fun d =>
      { d with yoke := { d.yoke with bufs := d.yoke.bufs.set (qKey r.port r.queue) r } }) s

/-- What BUF_GLOBAL_SET checks. -/
def bufGlobalChecks (who : Sender) (d : Dev) (mib : Nat) : List (Bool × Status) :=
  [(!who.isOwner, .notPermitted),
   (32768 < mib || decide (stripedMib Config.dramDense < mib + d.lining.storeMib), .badField),
   (!d.yoke.spillUnits.isEmpty, .badState)]

/-- BUF_GLOBAL_SET. -/
def execBufGlobalSet (h : Hdr) (regionMib : Nat) (s : State) : Host.Outcome State Fault Refusal :=
  runMessage { code := 0x0903, lenOk := exactly 4, maxBody := 0, early := false } h (fun who d =>
    setting (bufGlobalChecks who d regionMib) d fun d =>
      { d with yoke := { d.yoke with regionMib := regionMib } }) s

/-- The counters of a pool. -/
def poolRow (d : Dev) (k : Nat) : List Nat :=
  [(d.pool k).freeCount, d.ctr .poolAlloc k 0, d.ctr .poolAllocFail k 0, d.ctr .poolRxDrop k 0,
   d.ctr .cacheReturns k 0]

/-- The drops of a queue with reasons 24 to 26. -/
def queueDropRow (d : Dev) (k : Nat) : List Nat := [24, 25, 26].map fun r => d.ctr .queueDrops k r

/-- The Pockets that queue `k` holds. -/
def Dev.occupancy (d : Dev) (k : Nat) : Nat := queuePockets (d.yoke.queues.get [] k)

/-- The counters of a queue. -/
def queueRow (d : Dev) (k : Nat) : List Nat :=
  [d.occupancy k, max (d.yoke.queueMax.get 0 k) (d.occupancy k)] ++ queueDropRow d k ++
    [d.ctr .spillFrames k 0, d.ctr .spillReturns k 0, d.ctr .spillLost k 0, d.ctr .spillReturnWait k 0]

/-- The Seam counters of a port. -/
def seamRow (d : Dev) (p : Nat) : List Nat :=
  [d.ctr .seamFrames p 0, d.ctr .seamContention p 0, d.ctr .seamMiss p 0, d.ctr .seamAborted p 0]

/-- The device's counters of Table 9-9. -/
def yokeRow (d : Dev) : List Nat :=
  [d.ctr .doubleFree 0 0, d.ctr .foreignFree 0 0, d.ctr .pocketQuarantined 0 0, descTotal - d.yoke.descUsed,
   d.yoke.spillUnits.length]

/-- What the owner receives of a tenant's queues: the sums of their Pockets and drops. -/
def queueSums (d : Dev) (t : Nat) : List Nat :=
  let ks := d.held t 1
  [(ks.map d.occupancy).sum] ++ [24, 25, 26].map fun r => (ks.map fun k => d.ctr .queueDrops k r).sum

/-- What YOKE_STATS_GET returns to its sender. -/
def yokeStats (who : Sender) (d : Dev) : List Nat :=
  let t := who.tenancy
  let own := (d.held t 1).flatMap (queueRow d)
  match who.role with
  | .maint => (List.range 32).map (fun k => (d.pool k).freeCount) ++ yokeRow d
  | .owner =>
    (List.range 32).flatMap (poolRow d) ++ own ++ (List.range 96).flatMap (seamRow d) ++ yokeRow d ++
      ((List.range 15).map (· + 1)).flatMap (queueSums d)
  | .tenant =>
    ((List.range 32).filter fun k => (d.pool k).tenancy = t).flatMap (poolRow d) ++ own ++
      ((List.range 96).filter fun p => d.wholly p = some t).flatMap (seamRow d)

/-- YOKE_STATS_GET: the most Pockets held counts anew for the queues read. -/
def execYokeStatsGet (h : Hdr) (s : State) : Host.Outcome State Fault Refusal :=
  runMessage { code := 0x0904, lenOk := exactly 0, maxBody := 2048, changes := false } h (fun who d =>
    let ks := if who.isMaint then [] else d.held who.tenancy 1
    let m := ks.foldl (fun m k => m.set k (d.occupancy k)) d.yoke.queueMax
    (.list (yokeStats who d), { d with yoke := { d.yoke with queueMax := m } })) s

/-- The pool that a free Pocket stands in. -/
def Dev.freeIn (d : Dev) (n : Nat) : Nat :=
  ((List.range 32).find? fun k => (d.pool k).free.any fun r => decide (r.1 ≤ n ∧ n < r.1 + r.2)).getD 0

/-- A Pocket's metadata word (Table 9-1). -/
def Dev.pocketWord (d : Dev) (n : Nat) : Nat :=
  let m := d.pocket n
  let pool := if m.allocated then m.pool else d.freeIn n
  b2n m.allocated * 2 ^ 63 + pool * 2 ^ 58 + m.unit * 2 ^ 51 + m.refs * 2 ^ 43 + m.next * 2 ^ 24 +
    b2n m.last * 2 ^ 23 + m.fill * 2 ^ 15

/-- POOL_STATUS_GET. -/
def execPoolStatusGet (h : Hdr) (pool pocket : Nat) (s : State) : Host.Outcome State Fault Refusal :=
  runMessage { code := 0x0905, lenOk := fun _ => true, maxBody := 8, changes := false } h (fun who d =>
    checked [(who.role == .tenant, .notPermitted), (31 < pool || 524288 ≤ pocket, .badField)] d fun d =>
      (.values [d.pocketWord pocket], d)) s

end Sys2Proof.Machine
end

