-- ==== Sys2Proof/Machine/Queues.lean ====
section
/-! DEFINITION. Egress scheduling, transmission, gates and samplers (11): their commands and messages, and what a
time step does to them. -/

namespace Sys2Proof.Machine

/-! ### Discards at the head of a queue (R285, R286) -/

/-- An entry discarded from its queue, which keeps `es`, with a drop reason. -/
def Dev.headDrop (d : Dev) (p q : Nat) (e : QEntry) (es : List QEntry) (reason : Nat) : Dev :=
  let d := if e.isMirror then d else d.fateDrop e.fid reason
  let d := if e.spill = 1 then d.dropReqs fun u => u == .spillWrite e.fid else d
  (d.leaveQueue p q es).discardEntry e

/-- R285: the head of a queue that can never pass its gate. -/
def Dev.sduCheck (d : Dev) (p q : Nat) : Dev :=
  match d.queue p q with
  | e :: es =>
    if d.neverFits p q (d.entryTx p e) then (d.inc .sduExceeded (qKey p q) 0).headDrop p q e es 27 else d
  | [] => d

/-! ### Selection (R275 to R280) -/

/-- The strict queue selected, if one is eligible. -/
def Dev.strictPick (d : Dev) (p : Nat) : Option Nat :=
  ((List.range (d.schedPort p).strict).map (15 - ·)).find? fun q => d.eligible p q

/-- The eligible queues of the weighted group as deficit round robin visits them. -/
def Dev.visits (d : Dev) (p : Nat) : List Visit :=
  (List.range (16 - (d.schedPort p).strict)).filterMap fun q =>
    match d.queue p q with
    | e :: _ =>
      if d.eligible p q then
        let x := d.schedQueue p q
        some { q := q, deficit := x.deficit, quantum := x.weight * (d.schedPort p).quantum, len := d.entryLen p e }
      else none
    | [] => none

/-- A queue's deficit replaced. -/
def Dev.setDeficit (d : Dev) (p q n : Nat) : Dev := d.setSchedQueue p q { d.schedQueue p q with deficit := n }

/-- The queue that port `p` selects, with the deficits and the pointer of a weighted choice. -/
def Dev.pick (d : Dev) (p : Nat) : Option (Nat × Dev) :=
  match d.strictPick p with
  | some q => some (q, d)
  | none =>
    (drr (d.visits p) (d.schedPort p).pointer).map fun r =>
      let d := r.2.foldl (fun d x => d.setDeficit p x.1 x.2) d
      let x := d.schedPort p
      let d := { d with queues := { d.queues with ports := d.queues.ports.set p { x with pointer := r.1.q } } }
      (r.1.q, d.setDeficit p r.1.q ((d.schedQueue p r.1.q).deficit - r.1.len))

/-- The head of queue `q` selected for a start 72 cycles from now. -/
def Dev.selectHead (d : Dev) (p q : Nat) : Dev :=
  match d.queue p q with
  | [] => d
  | e :: es =>
    let t := d.now + 72
    let tx := d.entryTx p e
    let x := d.schedQueue p q
    let d := d.setSchedQueue p q (if x.shaper then x.debit d.now (d.entryLen p e) else x)
    let sel : Selection := { queue := q, start := t, tx := tx, entry := e, overran := false }
    let k := qKey p q
    let w := min (d.now - e.since) (2 ^ 32 - 1)
    let d := { d with queues := { d.queues with
      maxSojourn := d.queues.maxSojourn.set k (max w (d.queues.maxSojourn.get 0 k)),
      selected := d.queues.selected.set p (d.queues.selected.get [] p ++ [sel]) } }
    let d := d.setPort p { d.port p with txEnds := t + tx }
    d.leaveQueue p q es

/-- R283: whether the head of a queue waits for the guard band alone while its gate is open. -/
def Dev.guardWaits (d : Dev) (p q : Nat) : Bool :=
  match d.queue p q with
  | e :: _ =>
    let t := d.now + 72
    d.readyHead p q t e && d.gateOpen p q d.now (d.now + 1) && !d.gateOpen p q t (t + d.entryTx p e)
  | [] => false

/-- A cycle that counts in guard_idle_cycles, once. -/
def Dev.guardIdle (d : Dev) (p : Nat) : Dev :=
  let x := d.port p
  if decide (x.txEnds ≤ d.now) && x.txFrame.isNone && d.queues.guardAt.get? p != some d.now &&
      (List.range 16).any (d.guardWaits p) then
    { d with queues := { d.queues with guardAt := d.queues.guardAt.set p d.now } }.inc .guardIdle p 0
  else d

/-- SCHEDULER_SELECT: the selection of one cycle, or a cycle of guard band. -/
def execSchedulerSelect (port : Nat) (s : State) : Host.Outcome State Fault Refusal :=
  running (fun d =>
    if 96 ≤ port then d
    else
      let d := (List.range 16).foldl (fun d q => d.sduCheck port q) d
      if d.now + 72 < (d.port port).txEnds || !d.isUp port then d
      else
        match d.pick port with
        | some (q, d) => d.selectHead port q
        | none => d.guardIdle port) s

/-- SOJOURN_CHECK: the expired head of the lowest queue is discarded. -/
def execSojournCheck (port : Nat) (s : State) : Host.Outcome State Fault Refusal :=
  running (fun d =>
    let old (q : Nat) : Bool := match d.queue port q with
      | e :: _ => d.expired port q e
      | [] => false
    match (List.range 16).find? old with
    | none => d
    | some q =>
      match d.queue port q with
      | e :: es =>
        let k := qKey port q
        let aud : List Aud := ownerAnd ((d.queueTenancy port q).getD 0)
        ((d.inc .sojournExpired k 0).raiseFirst 0x0B02 k 0 aud []).headDrop port q e es 28
      | [] => d) s

/-! ### Transmission (R85, R228, R233) -/

/-- R228: the first Pocket of a frame out of use until the next fundamental reset. -/
def Dev.quarantine (d : Dev) (fid : Nat) (f : Frame) : Dev :=
  match f.pockets with
  | [] => d
  | n :: ns =>
    let m := d.pocket n
    let p := d.pool m.pool
    let d := (d.setPocket n { m with unit := 31 }).setPool m.pool { p with total := p.total - 1 }
    let d := { d with yoke := { d.yoke with quarantined := n :: d.yoke.quarantined } }
    d.setFrame fid { f with pockets := ns, noMore := true }

/-- A selected entry that is not transmitted: its descriptor, units and reference are given up. -/
def Dev.dropSelected (d : Dev) (e : QEntry) : Dev :=
  (if e.spill = 1 then d.dropReqs fun u => u == .spillWrite e.fid else d).discardEntry e

/-- A selected frame that its egress Cuff starts or discards. -/
def Dev.startSelected (d : Dev) (p : Nat) (x : Selection) (f : Frame) (ecc : Ecc) : Dev :=
  let e := x.entry
  if !d.isUp p then (d.inc .txLinkDownDiscard p 0).dropSelected e
  else if ecc = .uncorrectable || f.noMore then
    (((d.quarantine e.fid f).inc .pocketQuarantined 0 0).raise 0x0903 ownerMaint []).dropSelected e
  else
    match d.sendFrame p { start := x.start, sel := x, frame := f, isSeam := false } with
    | (false, d) => d.dropSelected e
    | (true, d) =>
      let d := if e.spill = 1 then d.dropReqs fun u => u == .spillWrite e.fid else d
      (d.subDesc 1).freeUnits e.units

/-- FRAME_TX_START: the selected frame whose start has come. -/
def execFrameTxStart (port : Nat) (ecc : Ecc) (s : State) : Host.Outcome State Fault Refusal :=
  running (fun d =>
    match d.queues.selected.get [] port with
    | [] => d
    | x :: xs =>
      if d.now < x.start || (d.port port).txFrame.isSome then d
      else
        let d := { d with queues := { d.queues with selected := d.queues.selected.set port xs } }
        d.withFrame x.entry.fid fun f => d.startSelected port x f ecc) s

/-- FRAME_TX_END: the last byte of a frame that has ended has left the port. -/
def execFrameTxEnd (port : Nat) (s : State) : Host.Outcome State Fault Refusal :=
  running (fun d =>
    let x := d.port port
    match x.txFrame with
    | none => d
    | some fid =>
      d.withFrame fid fun f =>
        if !f.ended || d.now < x.txDone then d
        else
          let n := match d.cipher.lastSent.get? port with
            | some y => y.bytes.length + 4
            | none => 0
          let d := d.setPort port { x with txFrame := none }
          let d := { d with queues := { d.queues with sending := d.queues.sending.del port } }
          ((d.inc .txFrames port 0).bump .txOctets port 0 n).unref fid) s

/-! ### Gates (R281 to R284) -/

/-- GATE_ENTRY_ADVANCE: the entry that has lasted its duration gives way to the next. -/
def execGateEntryAdvance (port : Nat) (s : State) : Host.Outcome State Fault Refusal :=
  running (fun d =>
    let x := d.gatePort port
    match x.walk.entryEnd with
    | some e => if e ≤ d.now then d.setGatePort port { x with entry := x.entry + 1, entryAt := e } else d
    | none => d) s

/-- The first cycle in which network time was not before an instant that has passed. -/
def Dev.cycleOf (d : Dev) (ns : Nat) : Nat := d.now - (-(d.untilNs ns)).toNat / d.hem.incr

/-- GATE_CYCLE_BOUNDARY: the list starts entry 0, unless a change follows within its cycle extension. -/
def execGateCycleBoundary (port : Nat) (s : State) : Host.Outcome State Fault Refusal :=
  running (fun d =>
    let x := d.gatePort port
    match x.oper with
    | none => d
    | some l =>
      if 0 < d.untilNs x.nextNs then d
      else
        let n := (x.nextNs + l.cycleNs) % wrapNs
        d.setGatePort port
          (if extends' l x.nextNs x.change then { x with nextNs := n }
           else { x with entry := 0, entryAt := d.cycleOf x.nextNs, nextNs := n })) s

/-- GATE_CONFIG_CHANGE: at the change time the administrative list becomes operational. -/
def execGateConfigChange (port : Nat) (s : State) : Host.Outcome State Fault Refusal :=
  running (fun d =>
    let x := d.gatePort port
    match x.change with
    | none => d
    | some c =>
      if 0 < d.untilNs c then d
      else
        let l := x.installs
        let d := d.setGatePort port { x with oper := some l, entry := 0, entryAt := d.cycleOf c,
                                             nextNs := (c + l.cycleNs) % wrapNs, change := none }
        let d := (d.inc .gateChanges port 0).raise 0x0B01 (ownerMaint ++ d.holderAud port)
          [c / 1000000000, c % 1000000000]
        d.overruns port) s

/-- R282: the change time of the administrative parameters of a port, asked for in cycle `asked`. -/
def Dev.changeTime (d : Dev) (r : GateConfigRec) (asked : Nat) : Nat :=
  let from' : Int := (d.hem.acc : Int) + ((asked + 30000 : Nat) - (d.now : Int)) * (d.hem.incr : Int)
  let t := (max from' d.hem.acc).toNat % unitWrap
  firstBoundary (r.baseSeconds * 1000000000 + r.baseNs) r.cycleNs t true

/-- A pending change time after a time step (Table 2-6): with the base time passed, the next boundary from it. -/
def Dev.steppedChange (d : Dev) (r : GateConfigRec) (asked : Nat) : Nat :=
  let base := r.baseSeconds * 1000000000 + r.baseNs
  if 0 ≤ timeDiff d.hem.acc (base * unitNs % unitWrap) then firstBoundary base r.cycleNs d.hem.acc true
  else d.changeTime r asked

/-- R63 to R65, R242, R284: the gates of port `p` after a time step. -/
def Dev.stepGates (d : Dev) (p : Nat) : Dev :=
  let x := d.gatePort p
  let next := match x.oper with
    | some l => firstBoundary l.baseNs l.cycleNs d.hem.acc false
    | none => x.nextNs
  let d := d.setGatePort p { x with nextNs := next, change := x.change.map fun _ => d.steppedChange x.admin x.asked }
  let d := (d.grantsOn p).foldl (fun d g =>
    d.withFrame g.1 fun f =>
      if g.2.1 ≤ d.now + 11 || d.gateOpen p (fld f.desc dQueue) g.2.1 (g.2.1 + g.2.2) then d
      else d.withdraw g.1 true) d
  d.overruns p

/-! ### Samplers (R288, R289) -/

/-- Records that a sample ring holds. -/
def SampleRing.room (r : SampleRing) : Nat := r.kib * 1024 / 144

/-- The sample ring of tenancy `t`. -/
def Dev.sampleRing (d : Dev) (t : Nat) : SampleRing := d.queues.rings.get .reset t

/-- The sample ring of tenancy `t` replaced. -/
def Dev.setSampleRing (d : Dev) (t : Nat) (r : SampleRing) : Dev :=
  { d with queues := { d.queues with rings := d.queues.rings.set t r } }

/-- A record for the ring of tenancy `t`, or its loss. -/
def Dev.putSample (d : Dev) (t : Nat) (x : Sample) : Dev :=
  let r := d.sampleRing t
  if r.records.length < r.room && r.lost = 0 then d.setSampleRing t { r with records := r.records ++ [x] }
  else
    ((d.setSampleRing t { r with lost := r.lost + 1 }).inc .sampleOverflow t 0).raiseFirst 0x0B03 t 0
      [.tenancy t] []

/-- R289: the overflow marker that the first room takes. -/
def Dev.markOverflow (d : Dev) (t : Nat) : Dev :=
  let r := d.sampleRing t
  if r.lost = 0 || r.room ≤ r.records.length then d
  else
    let x : Sample := { stamp := d.stamp, kind := 2, port := 255, queueMask := 0, entries := [r.lost] }
    d.setSampleRing t { r with records := r.records ++ [x], lost := 0 }

/-- The key of a sampler. -/
def samplerKey (t p : Nat) : Nat := t * 128 + p

/-- The depth and sojourn of a queue, zero outside a mask. -/
def Dev.sampleOf (d : Dev) (p mask q : Nat) : List Nat :=
  if !mask.testBit q then [0, 0]
  else
    match d.queue p q with
    | e :: _ => [d.occupancy (qKey p q), min (d.now - e.since) (2 ^ 32 - 1)]
    | [] => [0, 0]

/-- SAMPLER_TICK: a record of the queues of a port at the end of an interval. -/
def execSamplerTick (port tenancy : Nat) (s : State) : Host.Outcome State Fault Refusal :=
  running (fun d =>
    match d.queues.samplers.get? (samplerKey tenancy port) with
    | none => d
    | some x =>
      let due := x.since + 3 * x.data.intervalNs
      if d.now < due then d
      else
        let y := { x with since := due }
        let d := { d with queues := { d.queues with samplers := d.queues.samplers.set (samplerKey tenancy port) y } }
        let st := stampOf (d.hem.acc - (d.now - due) * d.hem.incr) d.hem.stepGen
        d.putSample tenancy
          { stamp := st, kind := 0, port := port, queueMask := x.data.queueMask % 65536,
            entries := (List.range 16).flatMap (d.sampleOf port x.data.queueMask) }) s

/-- A time step in every sample ring. -/
def Dev.stepSamples (d : Dev) (old new : Stamp) : Dev :=
  let x : Sample := { stamp := new, kind := 1, port := 255, queueMask := 0,
                      entries := [old.sec, old.ns, old.frac, new.sec, new.ns, new.frac] }
  (List.range 16).foldl (fun d t => if (d.sampleRing t).kib = 0 then d else d.putSample t x) d

/-- Queue `q` of port `p` leaves every sampler's mask. -/
def Dev.unsample (d : Dev) (p q : Nat) : Dev :=
  let f (k : Nat) (x : Sampler) : Sampler :=
    if k % 128 = p then { x with data := { x.data with queueMask := clearBit x.data.queueMask q } } else x
  { d with queues := { d.queues with samplers := d.queues.samplers.map f } }

/-- A sum of fractions. -/
def addRate (a : Nat × Nat) (n m : Nat) : Nat × Nat := (a.1 * m + n * a.2, a.2 * m)

/-- The rate of the samplers of tenancy `t`, as a fraction of queue-samples per second. -/
def Dev.sampleRate (d : Dev) (t : Nat) : Nat × Nat :=
  (d.queues.samplers.cells.filter fun c => c.1 / 128 = t).foldl (fun a c =>
    addRate a (popCount 16 c.2.data.queueMask * 1000000000) c.2.data.intervalNs) (0, 1)

/-! ### Messages (R290 to R292) -/

/-- What SCHED_PORT_SET checks. -/
def schedPortChecks (who : Sender) (r : SchedPortRec) : List (Bool × Status) :=
  [(!who.isOwner, .notPermitted),
   (95 < r.port || 4 < r.strictCount || r.quantumUnit < 64 || 4096 < r.quantumUnit || r.quantumUnit % 64 != 0,
     .badField)]

/-- R279: the selection settings of a port changed; a queue that enters or leaves the weighted group has no
deficit. -/
def Dev.applySchedPort (d : Dev) (r : SchedPortRec) : Dev :=
  let x := d.schedPort r.port
  let d := (List.range 16).foldl (fun d q =>
    if decide (q < 16 - x.strict) = decide (q < 16 - r.strictCount) then d else d.setDeficit r.port q 0) d
  let x : SchedPort := { strict := r.strictCount, quantum := r.quantumUnit, gateMap := r.queueGate % 2 ^ 48,
                         pointer := if x.pointer < 16 - r.strictCount then x.pointer else 15 - r.strictCount }
  { d with queues := { d.queues with ports := d.queues.ports.set r.port x } }

/-- SCHED_PORT_SET. -/
def execSchedPortSet (h : Hdr) (r : SchedPortRec) (s : State) : Host.Outcome State Fault Refusal :=
  runMessage { code := 0x0B01, lenOk := exactly 16, maxBody := 0 } h (fun who d =>
    setting (schedPortChecks who r) d fun d => d.applySchedPort r) s

/-- What SCHED_QUEUE_SET checks. -/
def schedQueueChecks (who : Sender) (d : Dev) (r : SchedQueueRec) : List (Bool × Status) :=
  [(!who.isOwner, .notPermitted), (d.staleQueue who r.port r.queue, .staleEpoch),
   (95 < r.port || 15 < r.queue || r.weight = 0 || 4095 < r.weight || r.rateBps < 8000 ||
      400000000000 < r.rateBps || r.burst < 64 || 16777216 < r.burst || r.sojournMaxUs = 0 ||
      1000000 < r.sojournMaxUs, .badField)]

/-- R280: the settings of a queue changed, its credit kept under the new cap, full where its shaper starts. -/
def SchedQueue.change (x : SchedQueue) (r : SchedQueueRec) (now : Nat) : SchedQueue :=
  let cap : Int := (r.burst * 2 ^ 32 : Nat)
  let on := r.flags.testBit 0
  { x with weight := r.weight, shaper := on, rate := r.rateBps, burst := r.burst, sojournUs := r.sojournMaxUs,
           credit := if on && x.shaper then min (x.creditNow now) cap else cap, creditAt := now }

/-- SCHED_QUEUE_SET. -/
def execSchedQueueSet (h : Hdr) (r : SchedQueueRec) (s : State) : Host.Outcome State Fault Refusal :=
  runMessage { code := 0x0B02, lenOk := exactly 24, maxBody := 0 } h (fun who d =>
    setting (schedQueueChecks who d r) d fun d =>
      d.setSchedQueue r.port r.queue ((d.schedQueue r.port r.queue).change r d.now)) s

/-- What GATE_CONFIG_SET checks. -/
def gateConfigChecks (who : Sender) (d : Dev) (r : GateConfigRec) : List (Bool × Status) :=
  [(!who.isOwner, .notPermitted),
   (95 < r.port || r.entryCount = 0 || 1024 < r.entryCount || 999999999 < r.baseNs || r.cycleNs < 1000 ||
      1000000000 < r.cycleNs || r.cycleNs < r.cycleExtNs, .badField),
   ((d.gatePort r.port).change.isSome || (r.flags.testBit 1 && !r.flags.testBit 0), .badState)]

/-- GATE_CONFIG_SET accepted: the enable flag and the administrative states, and with bit 1 a configuration
change. -/
def Dev.applyGateConfig (d : Dev) (r : GateConfigRec) : Dev :=
  let x := d.gatePort r.port
  let on := r.flags.testBit 0
  let x := { x with enabled := on, adminStates := r.adminGateStates % 256, oper := if on then x.oper else none }
  let x := if r.flags.testBit 1 then
      { x with admin := r, change := some (d.changeTime r d.now), asked := d.now }
    else x
  (d.setGatePort r.port x).overruns r.port

/-- GATE_CONFIG_SET. -/
def execGateConfigSet (h : Hdr) (r : GateConfigRec) (s : State) : Host.Outcome State Fault Refusal :=
  runMessage { code := 0x0B03, lenOk := exactly 28, maxBody := 0 } h (fun who d =>
    setting (gateConfigChecks who d r) d fun d => d.applyGateConfig r) s

/-- What GATE_ENTRIES_SET checks. -/
def gateEntriesChecks (who : Sender) (d : Dev) (r : GateEntriesRec) : List (Bool × Status) :=
  [(!who.isOwner, .notPermitted),
   (95 < r.port || 1023 < r.first || r.count = 0 || 128 < r.count || 1024 < r.first + r.count, .badField),
   ((d.gatePort r.port).change.isSome, .badState)]

/-- Entries written into an administrative list from `i` on. -/
def putEntries (t : Tab GateEntry) : Nat → List GateEntry → Tab GateEntry
  | _, [] => t
  | i, e :: es => putEntries (t.set i { durationM1 := e.durationM1 % 2 ^ 32, gateStates := e.gateStates % 256 }) (i + 1) es

/-- GATE_ENTRIES_SET. -/
def execGateEntriesSet (h : Hdr) (r : GateEntriesRec) (s : State) : Host.Outcome State Fault Refusal :=
  runMessage { code := 0x0B04, lenOk := fun n => n = 8 + 8 * r.count && r.entries.length = r.count, maxBody := 0 } h
    (fun who d =>
    setting (gateEntriesChecks who d r) d fun d =>
      let x := d.gatePort r.port
      d.setGatePort r.port { x with adminEntries := putEntries x.adminEntries r.first (r.entries.take r.count) }) s

/-- What SAMPLER_QUOTA_SET checks. -/
def samplerQuotaChecks (who : Sender) (r : SamplerQuotaRec) : List (Bool × Status) :=
  let kib := (List.range 16).map fun t => r.ringKib.getD t 0
  let quota := (List.range 16).map fun t => r.quota.getD t 0
  [(!who.isOwner, .notPermitted),
   (kib.any (fun k => k != 0 && (k < 4 || 256 < k || k % 4 != 0)) || quota.any (64000000 < ·), .badField),
   (decide (2048 < kib.sum ∨ 64000000 < quota.sum), .noSpace)]

/-- The ring and quota of tenancy `t` set: a ring of another size is emptied, which makes room for the marker of
the records it lost, and a quota below the present rate disables the tenancy's samplers. -/
def Dev.applySamplerQuota (d : Dev) (t kib quota : Nat) : Dev :=
  let r := d.sampleRing t
  let d := if r.kib = kib then d
    else (d.setSampleRing t { kib := kib, records := [], lost := r.lost }).markOverflow t
  let d := { d with queues := { d.queues with quotas := d.queues.quotas.set t quota } }
  let rate := d.sampleRate t
  if rate.1 ≤ quota * rate.2 then d
  else
    let left := d.queues.samplers.filter fun k _ => k / 128 != t
    { d with queues := { d.queues with samplers := left } }.raise 0x0B04 (ownerAnd t) []

/-- SAMPLER_QUOTA_SET. -/
def execSamplerQuotaSet (h : Hdr) (r : SamplerQuotaRec) (s : State) : Host.Outcome State Fault Refusal :=
  runMessage { code := 0x0B05, lenOk := exactly 96, maxBody := 0 } h (fun who d =>
    setting (samplerQuotaChecks who r) d fun d =>
      (List.range 16).foldl (fun d t => d.applySamplerQuota t (r.ringKib.getD t 0) (r.quota.getD t 0)) d) s

/-- The samplers after a SAMPLER_SET of tenancy `t`. -/
def Dev.withSampler (d : Dev) (t : Nat) (r : SamplerRec) : Dev :=
  let k := samplerKey t r.port
  let m := if r.flags.testBit 0 then d.queues.samplers.set k { data := r, since := d.now } else d.queues.samplers.del k
  { d with queues := { d.queues with samplers := m } }

/-- What SAMPLER_SET checks. -/
def samplerChecks (who : Sender) (d : Dev) (r : SamplerRec) : List (Bool × Status) :=
  let t := who.tenancy
  let qs := onesOf 16 r.queueMask
  let rate := (d.withSampler t r).sampleRate t
  [(qs.any fun q => !d.holdsQueue t r.port q, .notPermitted),
   (qs.any fun q => who.stale (d.unit 1 (qKey r.port q)).epoch, .staleEpoch),
   (95 < r.port || r.intervalNs < 256 || 1000000 < r.intervalNs, .badField),
   (decide (d.queues.quotas.get 0 t * rate.2 < rate.1), .noSpace)]

/-- SAMPLER_SET. -/
def execSamplerSet (h : Hdr) (r : SamplerRec) (s : State) : Host.Outcome State Fault Refusal :=
  runMessage { code := 0x0B06, lenOk := exactly 8, maxBody := 0 } h (fun who d =>
    setting (samplerChecks who d r) d fun d => d.withSampler who.tenancy r) s

/-- A sample record as numbers. -/
def sampleRow (x : Sample) : List Nat :=
  [x.stamp.sec, x.stamp.gen, x.kind, x.stamp.ns, x.port, x.queueMask] ++ x.entries

/-- SAMPLE_READ: the oldest records of the sender's ring, whose space is freed. -/
def execSampleRead (h : Hdr) (maxRecords : Nat) (s : State) : Host.Outcome State Fault Refusal :=
  runMessage { code := 0x0B07, lenOk := exactly 4, maxBody := 12 + 64 * 144 } h (fun who d =>
    checked [(maxRecords = 0 || 64 < maxRecords, .badField)] d fun d =>
      let t := who.tenancy
      let r := d.sampleRing t
      let out := r.records.take maxRecords
      let body := [out.length, d.ctr .sampleOverflow t 0] ++ out.flatMap sampleRow
      let d := (d.setSampleRing t { r with records := r.records.drop maxRecords }).markOverflow t
      (.done .ok (12 + 144 * out.length) body, d)) s

/-- The counters of a queue (Table 11-7). -/
def schedRow (d : Dev) (k : Nat) : List Nat :=
  [d.ctr .txQFrames k 0, d.ctr .txQOctets k 0, d.ctr .sojournExpired k 0, d.ctr .sduExceeded k 0,
   d.ctr .gateOverrun k 0, d.queues.maxSojourn.get 0 k]

/-- The counters of a port (Table 11-7). -/
def schedPortRow (d : Dev) (p : Nat) : List Nat := [d.ctr .guardIdle p 0, d.ctr .gateChanges p 0]

/-- What the owner receives of a tenant's queues `ks`. -/
def schedSums (d : Dev) (t : Nat) (ks : List Nat) : List Nat :=
  ([Ctr.txQFrames, .txQOctets, .sojournExpired, .sduExceeded, .gateOverrun].map fun c => d.sumCtr c ks 0) ++
    [(ks.map fun k => d.queues.maxSojourn.get 0 k).foldl max 0, d.ctr .sampleOverflow t 0]

/-- The queues of port `p` that tenancy `t` holds, by key. -/
def Dev.queuesOn (d : Dev) (t p : Nat) : List Nat := ((List.range 16).filter (d.holdsQueue t p)).map (qKey p)

/-- The queues of tenancy `t` that a request for a port (kind 0) or a tenancy (kind 1) names. -/
def Dev.schedScope (d : Dev) (kind unit t : Nat) : List Nat :=
  if kind = 0 then d.queuesOn t unit else if unit = t then d.held t 1 else []

/-- What a tenancy receives of its own: its queues, and its lost samples. -/
def schedOwn (d : Dev) (kind unit t : Nat) : List Nat :=
  (d.schedScope kind unit t).flatMap (schedRow d) ++ (if kind = 0 || unit = t then [d.ctr .sampleOverflow t 0] else [])

/-- SCHED_STATS_GET (R292), for one port (kind 0) or one tenancy (kind 1); the largest waits of the queues read count
anew. -/
def execSchedStatsGet (h : Hdr) (kind unit : Nat) (s : State) : Host.Outcome State Fault Refusal :=
  runMessage { code := 0x0B08, lenOk := fun _ => true, maxBody := 2048, changes := false } h (fun who d =>
    checked [(1 < kind || (kind = 0 && 95 < unit) || (kind = 1 && 15 < unit), .badField)] d fun d =>
      let t := who.tenancy
      let own := schedOwn d kind unit t
      let port := if kind = 0 then schedPortRow d unit else []
      let others := (List.range 15).map (· + 1) |>.filter fun u => kind = 0 || unit = u
      let mine := (List.range 96).filter fun p => d.wholly p = some t && (if kind = 0 then p = unit else unit = t)
      let body := match who.role with
        | .maint => port
        | .owner => port ++ own ++ others.flatMap fun u => schedSums d u (d.schedScope kind unit u)
        | .tenant => own ++ mine.flatMap (schedPortRow d)
      let ks := if who.isMaint then [] else d.schedScope kind unit t
      let m := ks.foldl (fun m k => m.set k 0) d.queues.maxSojourn
      (.list body, { d with queues := { d.queues with maxSojourn := m } })) s

/-- The entries of a list as numbers. -/
def gateRows (es : List GateEntry) : List Nat := es.flatMap fun e => [e.durationM1, e.gateStates]

/-- The status of a port's gates; the entries for the owner only. -/
def gateStatus (who : Sender) (x : GatePort) : List Nat :=
  let a := x.admin
  let head := [b2n x.enabled, x.adminStates, a.entryCount, a.baseSeconds, a.baseNs, a.cycleNs, a.cycleExtNs,
    x.entry, x.nextNs, b2n x.change.isSome, x.change.getD 0]
  let oper := match x.oper with
    | some l => [1, l.entries.length, l.baseNs, l.cycleNs, l.extNs]
    | none => [0, 0, 0, 0, 0]
  let lists := gateRows ((List.range 1024).filterMap x.adminEntries.get?) ++
    (match x.oper with
     | some l => gateRows l.entries
     | none => [])
  head ++ oper ++ (if who.isOwner then lists else [])

/-- GATE_STATUS_GET. -/
def execGateStatusGet (h : Hdr) (port : Nat) (s : State) : Host.Outcome State Fault Refusal :=
  runMessage { code := 0x0B09, lenOk := fun _ => true, maxBody := 2048, changes := false } h (fun who d =>
    checked [(who.role == .tenant && d.wholly port != some who.tenancy, .notPermitted), (95 < port, .badField)] d
      fun d => (.list (gateStatus who (d.gatePort port)), d)) s

end Sys2Proof.Machine
end

