-- ==== Sys2Proof/Machine/Release.lean ====
section
/-! DEFINITION. Symbol-timed release (12): the classification of stage 17, the release calendar and what a time
step does to it, and the messages of release. -/

namespace Sys2Proof.Machine

/-! ### Symbol start (R297, R298) -/

/-- One nanosecond in units of 2^-16 ns. -/
def ns16 : Int := 65536

/-- The start of a symbol within its subframe, in *T*c (Table 12-3), for symbol `k` of the subframe. -/
def symbolTc (mu k : Nat) (extended : Bool) : Nat :=
  if extended then k * 40960
  else
    let nh := 7 * 2 ^ mu
    let s := 140288 / 2 ^ mu
    let j := k % nh
    k / nh * 983040 + (if j = 0 then 0 else s + 1024 + (j - 1) * s)

/-- A packet's place in its radio frame (Table 4-6): frame, subframe, slot and symbol. -/
structure RadioTime where
  frame : Nat
  subframe : Nat
  slot : Nat
  symbol : Nat
  deriving DecidableEq, Repr

/-- The fields that stage 3 extracted. -/
def radioTime (c : BitVec 512) : RadioTime :=
  { frame := fld c fFrameId, subframe := fld c fSubframe, slot := fld c fSlotId, symbol := fld c fSymbol }

/-- Symbols in a slot of a profile. -/
def slotSymbols (r : RelProfileRec) : Nat := if r.extCp = 1 then 12 else 14

/-- Whether the fields are in range for a profile. -/
def RadioTime.inRange (x : RadioTime) (r : RelProfileRec) : Bool :=
  decide (x.subframe ≤ 9) && decide (x.slot < 2 ^ r.mu) && decide (x.symbol < slotSymbols r)

/-- The start of a symbol after the start of radio frame 0, in 2^-16 ns: *T*c is 100,000/3 of them. -/
def RadioTime.offset (x : RadioTime) (r : RelProfileRec) : Int :=
  let k := x.slot * slotSymbols r + x.symbol
  ((x.frame * 10000000 + x.subframe * 1000000 : Nat) : Int) * ns16
    + ((symbolTc r.mu k (r.extCp = 1) * 100000 / 3 : Nat) : Int)

/-- The period of frameId, 2.56 s, in 2^-16 ns. -/
def framePeriod : Int := 2560000000 * 65536

/-- The air-frame origin of a profile in 2^-16 ns. -/
def originOf (r : RelProfileRec) : Int := ((r.originS * 1000000000 + r.originNs : Nat) : Int) * ns16

/-- The start of the symbol nearest to the ingress timestamp, the later one on a tie. -/
def symbolStart (r : RelProfileRec) (x : RadioTime) (ingress : Int) : Int :=
  let rel := x.offset r
  let n := (diff16 ingress (originOf r) - rel + framePeriod / 2) / framePeriod
  (originOf r + n * framePeriod + rel) % wrap16

/-- Window open and latest start, for a frame of `len` bytes on the wire at `gbps`. -/
structure Window where
  openAt : Int
  latest : Int
  deriving DecidableEq, Repr

/-- The window of a packet (R297). -/
def windowOf (r : RelProfileRec) (x : RadioTime) (ingress tx : Int) : Window :=
  let t := symbolStart r x ingress
  { openAt := (t + r.openOff * ns16) % wrap16, latest := (t + r.closeOff * ns16 - tx) % wrap16 }

/-- The transmission time of `len` bytes on the wire in 2^-16 ns; at a port without a rate, which no rule
gives, a free value. -/
def Dev.txTime (d : Dev) (p len : Nat) : Int × Dev :=
  let g := modeGbps (d.port p).cfg.mode
  if g = 0 then
    let x := d.draw
    ((Config.freeDraw x.1 : Nat), x.2)
  else ((ceilDiv (len * 8 * 65536) g : Nat), d)

/-! ### Binding and classification (R294 to R301) -/

/-- The meta of the flow or TCAM result that stage 12 applied (R185), if it applied one. -/
def appliedMeta (d : Dev) (f : Frame) : Option Nat :=
  let st := fld f.ctx fFragState
  let byTcam := f.ctx.getLsbD 95 &&
    (!flag f.ctx fFlowHit || (d.actTenancy (fld f.ctx fTenancy)).precedence = 1)
  if !f.appliedRec || (3 ≤ st && st ≤ 5) || !(flag f.ctx fFlowHit || f.ctx.getLsbD 95) then none
  else some (if byTcam then getBits f.ctx 37 16 else fld f.ctx fFlowMeta)

/-- The meta of a packet that meets R294 up to its fourth condition: the first three, and a result with bit 15
set. -/
def releaseMeta (d : Dev) (f : Frame) : Option Nat :=
  let st := fld f.ctx fFragState
  if f.pass = 0 && f.fromCuff && !(3 ≤ st && st ≤ 5) && pflag f.ctx 8 &&
      d.rel.enabled.contains (fld f.ctx fTenancy) then
    (appliedMeta d f).filter fun m => m.testBit 15
  else none

/-- Whether a profile's message types and direction admit a packet. -/
def admits (r : RelProfileRec) (c : BitVec 512) : Bool :=
  let type := fld c fEcpriMsg
  let dir := fld c fDirection
  ((type = 0 && r.msgMask.testBit 0) || (type = 2 && r.msgMask.testBit 1)) &&
    (r.direction = 0 || (r.direction = 1 && dir = 1) || (r.direction = 2 && dir = 0))

/-- The profile of a tenancy-relative index under a version slot: its absolute index, and the profile where it is
valid and live. -/
def Dev.relProfileAt (d : Dev) (t v i : Nat) : Option Nat × Option RelProfileRec :=
  let a := d.absIndex t 6 256 i
  (a, match a.bind d.rel.profiles.get? with
      | some p => if p.live.testBit v then some p.data else none
      | none => none)

/-- 147 cycles, the earliest hand-over to a port, in 2^-16 ns; and the horizon of 4 ms. -/
def seamTime : Int := 49 * ns16
def horizon : Int := 4000000 * ns16

/-- The profile error of a window (Table 12-4, causes 3 and 4), as its code less one. -/
def windowError (w : Window) (ingress : Int) : Option Nat :=
  if diff16 w.latest w.openAt < 0 then some 2
  else if horizon < diff16 w.openAt ingress then some 3
  else none

/-- rel_state of a window without error (R299): 1 on time, 2 held, 3 late. -/
def windowState (w : Window) (ingress : Int) : Nat :=
  if diff16 w.latest (ingress + seamTime) < 0 then 3
  else if diff16 w.openAt (ingress + seamTime) ≤ 0 then 1
  else 2

/-- The counter of a profile error. -/
def relErrorCtr : Nat → Ctr
  | 0 => .relError0
  | 1 => .relError1
  | 2 => .relError2
  | _ => .relError3

/-- A bound packet with a profile error, cause `c` less one, under profile `r` where it can be read. -/
def Dev.relError (d : Dev) (fid : Nat) (f : Frame) (c : Nat) (r : Option RelProfileRec) : Dev :=
  let on := match r with
    | some r => r.flags.testBit 1
    | none => false
  let data : RelData := { state := 0, profile := fld f.ctx fRelProfile, openAt := 0, latest := 0, lateFwd := false,
                          errFwd := on, queue := fld f.desc dQueue }
  (d.inc (relErrorCtr c) (f.sleeve * 16 + fld f.ctx fTenancy) 0).setFrame fid
    { f with ctx := putAll f.ctx [(fRelError, 1)], rel := some data }

/-- A bound packet classified by its window. -/
def Dev.relClass (d : Dev) (fid : Nat) (f : Frame) (r : RelProfileRec) (w : Window) : Dev :=
  let t := fld f.ctx fTenancy
  let k := f.sleeve * 16 + t
  let st := windowState w f.stamp.time16
  let late := st = 3
  let d := if late then (d.inc .relLate k 0).raiseFirst 0x0C01 t 0 [.tenancy t] []
    else d.inc (if st = 1 then .relOnTime else .relHeld) k 0
  let data : RelData := { state := st, profile := fld f.ctx fRelProfile, openAt := w.openAt, latest := w.latest,
                          lateFwd := r.flags.testBit 0, errFwd := r.flags.testBit 1, queue := r.queue }
  d.setFrame fid { f with
    ctx := putAll f.ctx [(fRelState, st)], rel := some data,
    desc := if late && r.flags.testBit 0 then putAll f.desc [(dLate, 1)] else f.desc }

/-- A bound packet whose profile is read: its queue, its window and its class. A queue that its tenancy does not
hold on the target port drops it (R296). -/
def Dev.relBoundTo (d : Dev) (fid : Nat) (f : Frame) (r : RelProfileRec) : Dev :=
  let p := f.target
  let held := d.holdsQueue (fld f.ctx fTenancy) p r.queue
  let x := putAll f.desc [(dQueue, r.queue)]
  let g := { f with desc := if held then x else dropDesc x 5 }
  let rt := radioTime f.ctx
  if !rt.inRange r then d.relError fid g 1 (some r)
  else
    let (tx, d) := d.txTime p (d.lenTx p (d.egressLen { f with desc := x }))
    let w := windowOf r rt f.stamp.time16 tx
    match windowError w f.stamp.time16 with
    | some c => d.relError fid g c (some r)
    | none => d.relClass fid g r w

/-- A packet that meets R294 up to its fourth condition. An index whose profile cannot be read is bound, for its
error: no filter of it can refuse the packet. -/
def Dev.relBind (d : Dev) (fid : Nat) (f : Frame) (m : Nat) : Dev :=
  let t := fld f.ctx fTenancy
  let k := f.sleeve * 16 + t
  let p := d.relProfileAt t (fld f.ctx fVersion) (m % 4096)
  let admitted := match p.2 with
    | some r => admits r f.ctx
    | none => true
  if fld f.desc dDisp != dispForward || !admitted then d.inc .relNotBound k 0
  else
    let d := d.inc .relBound k 0
    let f := { f with ctx := putAll f.ctx [(fRelProfile, p.1.getD 0)] }
    match p.2 with
    | none => d.relError fid f 0 none
    | some r => d.relBoundTo fid f r

/-- RELEASE_CLASSIFY (stage 17). -/
def execReleaseClassify (fid : Nat) (s : State) : Host.Outcome State Fault Refusal :=
  running (fun d => d.stageRow fid .release .enqueue [17] fun f d =>
    let f := { f with rel := none, ctx := putBits f.ctx 0 15 0 }
    let d := d.setFrame fid f
    match releaseMeta d f with
    | none => d
    | some m => d.relBind fid f m) s

/-! ### The calendar (R303, R305, R66) -/

/-- A held frame with its release data. -/
def Dev.heldFrames (d : Dev) (p : Nat) : List (Nat × Frame × RelData) :=
  (d.calendar p).filterMap fun c =>
    match d.frame c.1 with
    | some f => f.rel.map fun r => (c.1, f, r)
    | none => none

/-- The first of a calendar in ascending open, ties in order of entry. -/
def firstOpen (now : Int) : List (Nat × Frame × RelData) → Option (Nat × Frame × RelData)
  | [] => none
  | c :: cs =>
    match firstOpen now cs with
    | some b => if diff16 b.2.2.openAt now < diff16 c.2.2.openAt now then some b else some c
    | none => some c

/-- A frame taken from the calendar of port `p`, its descriptor given up. -/
def Dev.uncalendar (d : Dev) (p fid : Nat) : Dev :=
  (d.setCalendar p ((d.calendar p).filter fun c => c.1 != fid)).subDesc 1

/-- A frame that leaves the calendar for its queue, under line 5 of R239 and R82; one that has no place is
dropped. -/
def Dev.joinQueue (d : Dev) (p fid : Nat) (f : Frame) (late : Bool) : Dev :=
  let q := fld f.desc dQueue
  if d.flushes p then (d.inc .txLinkDownDiscard p 0).unref fid
  else
    let d := if 16 - (d.schedPort p).strict ≤ q then d else d.inc .relNotStrict p (fld f.ctx fTenancy)
    let (ok, d) := d.lineFive p q (d.entryFor fid f late)
    if ok then d else d.unref fid

/-- A held frame released: into its queue, or to its late action when its latest start has passed. -/
def Dev.release (d : Dev) (p fid : Nat) (f : Frame) (r : RelData) : Dev :=
  let t := fld f.ctx fTenancy
  let d := (d.uncalendar p fid).inc .calReleased p t
  if diff16 d.time16 r.latest ≤ 0 then d.joinQueue p fid f false
  else
    let d := d.raiseFirst 0x0C01 t 0 [.tenancy t] []
    if r.lateFwd then (d.inc .calLateFwd p t).joinQueue p fid f true
    else ((d.inc .calLateDrop p t).fateDrop fid 13).unref fid

/-- CALENDAR_RELEASE: the first held frame, once network time has reached its open. -/
def execCalendarRelease (port : Nat) (s : State) : Host.Outcome State Fault Refusal :=
  running (fun d =>
    match firstOpen d.time16 (d.heldFrames port) with
    | some (fid, f, r) => if diff16 d.time16 r.openAt < 0 then d else d.release port fid f r
    | none => d) s

/-- A held frame after a time step (R66, R305). -/
def Dev.stepHeld (d : Dev) (p fid : Nat) (f : Frame) (r : RelData) : Dev :=
  let t := fld f.ctx fTenancy
  if 0 < diff16 d.time16 r.latest then
    let d := ((d.uncalendar p fid).inc .calStepLate p t).raiseFirst 0x0C01 t 0 [.tenancy t] []
    if r.lateFwd then d.joinQueue p fid f true else (d.fateDrop fid 13).unref fid
  else if 0 ≤ diff16 d.time16 r.openAt then d.release p fid f r
  else if horizon < diff16 r.openAt d.time16 then
    let d := (d.uncalendar p fid).inc .calStepError p t
    if r.errFwd then d.joinQueue p fid f false else (d.fateDrop fid 14).unref fid
  else d

/-- The held frames in the order of their opens. -/
def byOpen (now : Int) : List (Nat × Frame × RelData) → List (Nat × Frame × RelData)
  | [] => []
  | c :: cs =>
    let l := byOpen now cs
    let before := l.takeWhile fun b => diff16 b.2.2.openAt now < diff16 c.2.2.openAt now
    before ++ c :: l.drop before.length

/-- The calendar of port `p` after a time step. -/
def Dev.stepCalendar (d : Dev) (p : Nat) : Dev :=
  (byOpen d.time16 (d.heldFrames p)).foldl (fun d c => d.stepHeld p c.1 c.2.1 c.2.2) d

/-! ### Messages (R307 to R309) -/

/-- The checks of holder and epoch of a profile index. -/
def relIndexChecks (who : Sender) (d : Dev) (i : Nat) : List (Bool × Status) :=
  let b := d.block who.tenancy 6 (i / 256)
  [(b.isNone, .notPermitted), (otherEpoch who d 6 b, .staleEpoch)]

/-- The absolute index of a profile; 4,096 where it is not held. -/
def Dev.relAbs (d : Dev) (t i : Nat) : Nat := (d.absIndex t 6 256 i).getD 4096

/-- Whether a change adds profile `a`. -/
def addsRel (a : Nat) : Change → Bool
  | .relAdd j _ => a = j
  | _ => false

/-- R307: what REL_PROFILE_SET checks. -/
def relProfileChecks (who : Sender) (d : Dev) (r : RelProfileRec) : List (Bool × Status) :=
  let a := d.relAbs who.tenancy r.index
  relIndexChecks who d r.index ++
  [(4 < r.mu || 1 < r.extCp || (r.extCp = 1 && r.mu != 2) || 2 < r.direction || r.msgMask % 4 = 0 ||
      r.queue < 12 || 15 < r.queue || 2 ^ 48 ≤ r.originS || 999999999 < r.originNs ||
      decide (r.openOff < -10000000) || decide (9999999 < r.openOff) || decide (r.closeOff ≤ r.openOff) ||
      decide (10000000 < r.closeOff), .badField),
   ((d.rel.profiles.get? a).isSome || d.stagedAdd (addsRel a), .slotBusy),
   (!d.canStage who.tenancy 1, .noSpace)]

/-- REL_PROFILE_SET. -/
def execRelProfileSet (h : Hdr) (r : RelProfileRec) (s : State) : Host.Outcome State Fault Refusal :=
  runMessage { code := 0x0C01, lenOk := exactly 32, maxBody := 0 } h (fun who d =>
    setting (relProfileChecks who d r) d fun d =>
      let a := d.relAbs who.tenancy r.index
      d.stage who.tenancy (.relAdd a { r with flags := r.flags % 4, msgMask := r.msgMask % 4 }) [(6, a / 256)] 1) s

/-- R307: what REL_PROFILE_CLEAR checks. -/
def relClearChecks (who : Sender) (d : Dev) (i : Nat) : List (Bool × Status) :=
  relIndexChecks who d i ++
  [((match d.rel.profiles.get? (d.relAbs who.tenancy i) with
     | some p => !p.live.testBit d.current
     | none => true), .badState),
   (!d.canStage who.tenancy 1, .noSpace)]

/-- REL_PROFILE_CLEAR. -/
def execRelProfileClear (h : Hdr) (index : Nat) (s : State) : Host.Outcome State Fault Refusal :=
  runMessage { code := 0x0C02, lenOk := exactly 2, maxBody := 0 } h (fun who d =>
    setting (relClearChecks who d index) d fun d =>
      let a := d.relAbs who.tenancy index
      match d.rel.profiles.get? a with
      | some p => d.stage who.tenancy (.relDel a p.data) [(6, a / 256)] 1
      | none => d) s

/-- R308: what REL_TENANCY_SET checks. -/
def relTenancyChecks (who : Sender) (d : Dev) : List (Bool × Status) :=
  let b := d.block who.tenancy 6 0
  [(b.isNone, .notPermitted), (otherEpoch who d 6 b, .staleEpoch)]

/-- REL_TENANCY_SET. -/
def execRelTenancySet (h : Hdr) (flags : Nat) (s : State) : Host.Outcome State Fault Refusal :=
  runMessage { code := 0x0C03, lenOk := exactly 4, maxBody := 0 } h (fun who d =>
    setting (relTenancyChecks who d) d fun d =>
      let off := d.rel.enabled.filter fun t => t != who.tenancy
      { d with rel := { d.rel with enabled := if flags.testBit 0 then who.tenancy :: off else off } }) s

/-- REL_PORT_SET. -/
def execRelPortSet (h : Hdr) (port calLimit : Nat) (s : State) : Host.Outcome State Fault Refusal :=
  runMessage { code := 0x0C04, lenOk := exactly 8, maxBody := 0 } h (fun who d =>
    setting [(!who.isOwner, .notPermitted), (95 < port || 65536 < calLimit, .badField)] d fun d =>
      { d with rel := { d.rel with limits := d.rel.limits.set port calLimit } }) s

/-- The counters of Table 12-7 per Sleeve, and per port. -/
def relSleeveCtrs : List Ctr :=
  [.relBound, .relNotBound, .relOnTime, .relHeld, .relLate, .relError0, .relError1, .relError2, .relError3]
def relPortCtrs : List Ctr :=
  [.calEntered, .calReleased, .calLateDrop, .calLateFwd, .calFull, .calStepLate, .calStepError, .relStartLate,
   .relNotStrict]

/-- A tenancy's counters summed over Sleeves and ports. -/
def relSums (d : Dev) (t : Nat) : List Nat :=
  (relSleeveCtrs.map fun c => d.sumCtr c ((List.range 7).map fun s => s * 16 + t) 0) ++
    relPortCtrs.map fun c => d.sumCtr c (List.range 96) t

/-- What REL_STATS_GET returns of a Sleeve (kind 0) or port (kind 1). -/
def relStats (who : Sender) (d : Dev) (kind unit : Nat) : List Nat :=
  let t := who.tenancy
  let own := if kind = 0 then relSleeveCtrs.map fun c => d.ctr c (unit * 16 + t) 0
    else relPortCtrs.map fun c => d.ctr c unit t
  let occ := if kind = 0 then [] else [(d.calendar unit).length]
  match who.role with
  | .maint => occ ++ [((List.range 16).map fun t => d.sumCtr .calFull (List.range 96) t).sum]
  | .owner => own ++ occ ++ ((List.range 15).map (· + 1)).flatMap (relSums d)
  | .tenant => own ++ (if kind != 0 && d.wholly unit = some t then occ else [])

/-- REL_STATS_GET. -/
def execRelStatsGet (h : Hdr) (kind unit : Nat) (s : State) : Host.Outcome State Fault Refusal :=
  runMessage { code := 0x0C05, lenOk := fun _ => true, maxBody := 2048, changes := false } h (fun who d =>
    checked [(1 < kind || (kind = 0 && 6 < unit) || 95 < unit, .badField)] d fun d =>
      (.list (relStats who d kind unit), d)) s

/-- A profile as the shadow holds it. -/
def relRow (p : RelProfile) : List Nat :=
  let r := p.data
  [r.originS, r.originNs, wrap 25 r.openOff, wrap 25 r.closeOff, r.mu, r.extCp, r.direction, r.msgMask, r.queue,
   b2n (r.flags.testBit 0), b2n (r.flags.testBit 1), p.live, 1]

/-- REL_PROFILE_READ. -/
def execRelProfileRead (h : Hdr) (index : Nat) (s : State) : Host.Outcome State Fault Refusal :=
  runMessage { code := 0x0C06, lenOk := fun _ => true, maxBody := 2048, changes := false } h (fun who d =>
    match (if who.isMaint then none else d.absIndex who.tenancy 6 256 index) with
    | none => (.say .notPermitted, d)
    | some a =>
      match d.rel.profiles.get? a with
      | some p => (.list (relRow p), d)
      | none => (.list [], d)) s

end Sys2Proof.Machine
end

