-- ==== Sys2Proof/Machine/Cipher.lean ====
section
/-! DEFINITION. MACsec and the bulk cipher service (13): the receive lanes, settings and keys at frame
boundaries, bulk messages and their jobs, the boot epoch, the messages of ciphers, and REC_EXPORT (15). -/

namespace Sys2Proof.Machine

/-! ### The receive lanes (R318 to R320) -/

/-- What Table 13-3 makes of a frame: delivered or not, with the counters of its line for its port and its SC. -/
structure RxVerdict where
  deliver : Bool
  verified : Bool
  portCtrs : List Ctr
  scCtrs : List Ctr

/-- A line that Check mode delivers when the frame is not encrypted, counting it unchecked. -/
def checkLine (validate : Nat) (encrypted bySc : Bool) (c : Ctr) : RxVerdict :=
  let pass := validate = 1 && !encrypted
  let un : List Ctr := if pass then [if bySc then .rxScUnchecked else .rxPortUnchecked] else []
  { deliver := pass, verified := false, portCtrs := if bySc then [] else c :: un,
    scCtrs := if bySc then c :: un else [] }

/-- Whether a slot still holds the key that a frame read: nothing but its packet number and state has changed. -/
def sameKey (a b : SaKey) : Bool := { b with state := a.state, pn := a.pn, raised := a.raised } == a

/-- The lowest acceptable packet number for a frame: the slot's, or that of a key replaced since. -/
def Dev.lowestPn (d : Dev) (slot : Nat) (k : SaKey) : Nat :=
  if sameKey k (d.saKey slot) then (d.saKey slot).pn else k.pn

/-- The IV and packet number of a received frame under a key. -/
def Dev.rxIv (d : Dev) (sc slot : Nat) (k : SaKey) (t : SecTag) : Nat × Nat :=
  let pn := fullPn k.suite (d.lowestPn slot k) t.pn
  let sci := match d.sc sc with
    | some x => x.data.sci
    | none => 0
  (ivOf sci k pn, pn)

/-- Whether an SC has replayProtect on, and its window. -/
def Dev.replayRule (d : Dev) (sc : Nat) : Bool × Nat :=
  match d.sc sc with
  | some x => (x.data.flags.testBit 2, x.data.replayWindow)
  | none => (false, 0)

/-- Table 13-3 for a frame in the hold buffer. -/
def Dev.rxVerdict (d : Dev) (f : Frame) : RxVerdict :=
  let v := f.rxMac.validate
  if beAt f.bytes 12 2 = 0x888E then { deliver := true, verified := false, portCtrs := [], scCtrs := [] }
  else
    match secTagOf f.bytes with
    | none => { deliver := v = 1, verified := false, portCtrs := [.rxUntagged], scCtrs := [] }
    | some t =>
      if t.bad then { deliver := false, verified := false, portCtrs := [.rxBadTag], scCtrs := [] }
      else
        match f.rxSc, f.sa with
        | none, _ => checkLine v t.encrypted false .rxUnknownSci
        | some _, none => checkLine v t.encrypted true .rxScNotUsingSa
        | some sc, some (slot, k) =>
          let (iv, pn) := d.rxIv sc slot k t
          if (d.replayRule sc).1 && decide (pn < d.lowestPn slot k) then
            { deliver := false, verified := false, portCtrs := [], scCtrs := [.rxScLate] }
          else if !icvOk f.bytes t (secOffset f.rxMac.flags) k iv then checkLine v t.encrypted true .rxScNotValid
          else { deliver := true, verified := true, portCtrs := [], scCtrs := [.rxScOk] }

/-- A verified frame moves its slot's lowest acceptable packet number. -/
def Dev.movePn (d : Dev) (sc slot : Nat) (k : SaKey) (pn : Nat) : Dev :=
  let x := d.saKey slot
  if sameKey k x then d.setSaKey slot { x with pn := max x.pn (pn + 1 - (d.replayRule sc).2) } else d

/-- A delivered frame without its SecTAG and ICV. -/
def Dev.strip (d : Dev) (f : Frame) : Frame :=
  match (if beAt f.bytes 12 2 = 0x888E then none else secTagOf f.bytes) with
  | none => f
  | some t =>
    let bs := match f.rxSc, f.sa with
      | some sc, some (slot, k) => stripped f.bytes t (secOffset f.rxMac.flags) (some (k, (d.rxIv sc slot k t).1))
      | _, _ => stripped f.bytes t (secOffset f.rxMac.flags) none
    { f with bytes := bs, len := bs.length + 4, macsecSaved := f.bytes.length - bs.length }

/-- MACSEC_RX_VERIFY: the checks of a frame whose last byte has arrived with a good FCS. -/
def execMacsecRxVerify (fid : Nat) (s : State) : Host.Outcome State Fault Refusal :=
  running (fun d => d.withFrame fid fun f =>
    if !f.macsecHeld || f.wireEnd.isNone || f.verified || f.ended then d
    else
      let v := d.rxVerdict f
      let g := d.strip f
      let d : Dev := v.portCtrs.foldl (fun (d : Dev) c => d.inc c f.port 0) d
      let d := match f.rxSc with
        | some sc =>
          let d : Dev := v.scCtrs.foldl (fun (d : Dev) c => d.inc c sc 0) d
          if v.deliver then d.bump .rxScOctets sc 0 f.len else d
        | none => d
      let d := match f.rxSc, f.sa, secTagOf f.bytes with
        | some sc, some (slot, k), some t => if v.verified then d.movePn sc slot k (d.rxIv sc slot k t).2 else d
        | _, _, _ => d
      if v.deliver then d.setFrame fid { g with verified := true }
      else
        let f := f.dropped 4
        d.rxEnd fid f (rxOutcome f true)) s

/-- MACSEC_RX_DELIVER: the frame's start of frame crosses the receive MAC boundary 30 cycles after the last byte
of its FCS crossed the PCS boundary. -/
def execMacsecRxDeliver (fid : Nat) (s : State) : Host.Outcome State Fault Refusal :=
  running (fun d => d.withFrame fid fun f =>
    match f.wireEnd with
    | some t =>
      if f.macsecHeld && f.verified && decide (t + 30 ≤ d.now) then
        d.setFrame fid { f with macsecHeld := false, sof := t + 30 }
      else d
    | none => d) s

/-! ### Frame boundaries (R321 to R323) -/

/-- Whether a port stands at a frame boundary in a direction. -/
def Dev.atBoundary (d : Dev) (p : Nat) (transmit : Bool) : Bool :=
  if transmit then (d.port p).txFrame.isNone else (d.port p).rxFrame.isNone

/-- The encoding ANs that wait on port `p` taken into force. -/
def Dev.takeAns (d : Dev) (p : Nat) : Dev :=
  let f (_ : Nat) (x : Sc) : Sc :=
    match x.nextAn with
    | some a => if x.data.port = p && x.transmit then { x with txAn := a, nextAn := none } else x
    | none => x
  { d with cipher := { d.cipher with scs := d.cipher.scs.map f } }

/-- MACSEC_SETTING_EFFECT: the accepted settings of a port come into force in one direction. -/
def execMacsecSettingEffect (port : Nat) (dir : Dir) (s : State) : Host.Outcome State Fault Refusal :=
  running (fun d =>
    let r := d.cipher.ports.get (macsecPortReset port) port
    match dir with
    | .rx =>
      if 96 ≤ port || !d.atBoundary port false then d
      else { d with cipher := { d.cipher with rxPorts := d.cipher.rxPorts.set port r } }
    | .tx =>
      if 96 ≤ port || !d.atBoundary port true then d
      else { d with cipher := { d.cipher with txPorts := d.cipher.txPorts.set port r } }.takeAns port) s

/-- An SA slot zeroed, with every reference to it given up. -/
def Dev.wipeKey (d : Dev) (slot : Nat) : Dev :=
  let f (_ : Nat) (x : Sc) : Sc := { x with ans := x.ans.filter fun _ k => k != slot }
  { d with cipher := { d.cipher with scs := d.cipher.scs.map f, keys := d.cipher.keys.del slot } }

/-- The key operations that wait on a slot, in arrival order. -/
def Dev.slotOps (d : Dev) (bulk : Bool) (slot : Nat) : List KeyOp :=
  d.cipher.keyOps.filter fun o => o.bulk = bulk && o.slot = slot

/-- A key operation done, with its response. -/
def Dev.endOp (d : Dev) (o : KeyOp) (st : Status) : Dev :=
  { d with cipher := { d.cipher with keyOps := d.cipher.keyOps.erase o } }.finish o.token st 0 []

/-- The erasures at the head of an SA slot's operations begin: an ACTIVE slot is RETIRING, another is zeroed at
once. -/
def Dev.beginErase (d : Dev) (slot : Nat) : Nat → Dev
  | 0 => d
  | n + 1 =>
    match d.slotOps false slot with
    | o :: _ =>
      if o.load.isSome then d
      else
        let k := d.saKey slot
        match k.state with
        | .active => d.setSaKey slot { k with state := .retiring }
        | .retiring => d
        | _ => ((d.wipeKey slot).endOp o .ok).beginErase slot n
    | [] => d

/-- A key into an SA slot (R321): ACTIVE, bound to its SC and AN. -/
def Dev.loadKey (d : Dev) (slot sc : Nat) (r : KeyLoadRec) : Dev :=
  let tx := r.dir = 1
  let k : SaKey := { state := .active, key := r.key, salt := r.salt, ssci := r.ssci,
                     pn := if tx then 1 else r.lowestPn, sc := sc, an := r.an, transmit := tx,
                     suite := r.suite, raised := false }
  let d := (d.wipeKey slot).setSaKey slot k
  match d.sc sc with
  | some x => d.setSc sc { x with ans := x.ans.set r.an slot }
  | none => d

/-- KEY_TAKE_EFFECT: the oldest key that waits for a slot, at a frame boundary of its direction. -/
def execKeyTakeEffect (slot : Nat) (s : State) : Host.Outcome State Fault Refusal :=
  running (fun d =>
    match d.slotOps false slot with
    | [] => d
    | o :: _ =>
      match o.load, d.sc o.sc with
      | none, _ => d
      | some _, none => (d.endOp o .badState).beginErase slot 32
      | some r, some x =>
        if !d.atBoundary x.data.port (r.dir = 1) then d
        else ((d.loadKey slot o.sc r).endOp o .ok).beginErase slot 32) s

/-- Whether a frame in a lane still uses a slot. -/
def Dev.slotInLanes (d : Dev) (slot : Nat) : Bool :=
  (d.ports.frames.cells.any fun c =>
    c.2.macsecHeld && !c.2.verified && !c.2.ended && (c.2.sa.map (·.1)) == some slot) ||
  (List.range 96).any fun p => (d.port p).txFrame.isSome &&
    (match d.cipher.lastSent.get? p with
     | some y => (y.protect.map (·.1)) == some slot
     | none => false)

/-- KEY_ERASE_COMPLETE: a RETIRING slot that no lane uses is zeroed, and its oldest KEY_ERASE completes. -/
def execKeyEraseComplete (slot : Nat) (s : State) : Host.Outcome State Fault Refusal :=
  running (fun d =>
    if (d.saKey slot).state != .retiring || d.slotInLanes slot then d
    else
      match d.slotOps false slot with
      | o :: _ => ((d.wipeKey slot).endOp o .ok).beginErase slot 32
      | [] => d.wipeKey slot) s

/-! ### MACsec messages (R312, R317, R324) -/

/-- R312: whether a sender may configure MACsec on port `p`. -/
def Dev.mayMacsec (d : Dev) (who : Sender) (p : Nat) : Bool :=
  match d.wholly p with
  | some t => t = who.tenancy
  | none => who.isOwner

/-- Whether a port carries another epoch than expected; a port without one is no assigned resource. -/
def Dev.stalePort (d : Dev) (who : Sender) (p : Nat) : Bool :=
  let e := (d.portMap p).epoch
  e != 0 && who.stale e

/-- The absolute index of a SC and of an SA slot; 0xFFFF where it is not held. -/
def Dev.scAbs (d : Dev) (t i : Nat) : Nat := (d.absIndex t 11 128 i).getD 0xFFFF
def Dev.saAbs (d : Dev) (t i : Nat) : Nat := (d.absIndex t 12 256 i).getD 0xFFFF

/-- Whether an optional SC of MACSEC_PORT_SET is named and not held, and whether its epoch differs. -/
def Dev.scMissing (d : Dev) (t i : Nat) : Bool := i != 0xFFFF && (d.block t 11 (i / 128)).isNone
def Dev.scStale (d : Dev) (who : Sender) (i : Nat) : Bool :=
  i != 0xFFFF && otherEpoch who d 11 (d.block who.tenancy 11 (i / 128))

/-- What MACSEC_PORT_SET checks. -/
def macsecPortChecks (who : Sender) (d : Dev) (r : MacsecPortRec) : List (Bool × Status) :=
  let t := who.tenancy
  [(!d.mayMacsec who r.port || d.scMissing t r.txSc || d.scMissing t r.defaultRxSc, .notPermitted),
   (d.stalePort who r.port || d.scStale who r.txSc || d.scStale who r.defaultRxSc, .staleEpoch),
   (95 < r.port || bits r.flags 2 2 = 3 || 2 < r.validate, .badField)]

/-- MACSEC_PORT_SET: the settings stand accepted until each direction's next frame boundary. -/
def execMacsecPortSet (h : Hdr) (r : MacsecPortRec) (s : State) : Host.Outcome State Fault Refusal :=
  runMessage { code := 0x0D01, lenOk := exactly 8, maxBody := 0 } h (fun who d =>
    setting (macsecPortChecks who d r) d fun d =>
      let sc (i : Nat) : Nat := if i = 0xFFFF then i else d.scAbs who.tenancy i
      let r := { r with flags := r.flags % 16, txSc := sc r.txSc, defaultRxSc := sc r.defaultRxSc }
      { d with cipher := { d.cipher with ports := d.cipher.ports.set r.port r } }) s

/-- The SCs but number `a` that a transmit SCI, or a receive SCI of a port, must differ from. -/
def Dev.sciRivals (d : Dev) (a : Nat) (r : MacsecScRec) : List Sc :=
  let tx := r.flags.testBit 1
  ((d.cipher.scs.cells.filter fun c => c.1 != a).map (·.2)).filter fun x =>
    x.transmit = tx && (tx || x.data.port = r.port)

/-- Whether a SC breaks R312 or a limit of Table 13-1. -/
def Dev.scBreaks (d : Dev) (a : Nat) (r : MacsecScRec) : Bool :=
  let rivals := d.sciRivals a r
  let here := (rivals.filter fun x => x.data.port = r.port).length
  rivals.any (fun x => x.data.sci = r.sci) || decide ((if r.flags.testBit 1 then 1 else 64) ≤ here)

/-- The key slots of a SC that are not EMPTY. -/
def Dev.scKeys (d : Dev) (a : Nat) : List SaKey :=
  match d.sc a with
  | some x => (x.ans.cells.map fun c => d.saKey c.2).filter fun k => k.state != .empty
  | none => []

/-- What MACSEC_SC_SET checks. -/
def macsecScChecks (who : Sender) (d : Dev) (r : MacsecScRec) : List (Bool × Status) :=
  let b := d.block who.tenancy 11 (r.sc / 128)
  let a := d.scAbs who.tenancy r.sc
  let on := r.flags.testBit 0
  [(!d.mayMacsec who r.port || b.isNone, .notPermitted),
   (d.stalePort who r.port || otherEpoch who d 11 b, .staleEpoch),
   (95 < r.port || 2 ^ 30 < r.replayWindow || 2 ^ 64 ≤ r.pnThreshold || 2 ^ 64 ≤ r.sci ||
      (on && d.scBreaks a r) || (on && (d.scKeys a).any fun k => k.transmit != r.flags.testBit 1), .badField),
   (!on && !(d.scKeys a).isEmpty, .badState)]

/-- MACSEC_SC_SET. -/
def execMacsecScSet (h : Hdr) (r : MacsecScRec) (s : State) : Host.Outcome State Fault Refusal :=
  runMessage { code := 0x0D02, lenOk := exactly 24, maxBody := 0 } h (fun who d =>
    setting (macsecScChecks who d r) d fun d =>
      let a := d.scAbs who.tenancy r.sc
      if !r.flags.testBit 0 then { d with cipher := { d.cipher with scs := d.cipher.scs.del a } }
      else
        let old : Sc := (d.sc a).getD { data := r, tenancy := who.tenancy, ans := .none, txAn := 0, nextAn := none }
        d.setSc a { old with data := { r with sc := a, flags := r.flags % 8 }, tenancy := who.tenancy }) s

/-- The state of the slot that an AN of a SC refers to. -/
def Dev.anState (d : Dev) (a an : Nat) : SaState :=
  match (d.sc a).bind fun x => x.ans.get? an with
  | some k => (d.saKey k).state
  | none => .empty

/-- Whether SC `a` exists in the other direction. -/
def Dev.scOther (d : Dev) (a : Nat) (tx : Bool) : Bool :=
  match d.sc a with
  | some x => x.transmit != tx
  | none => false

/-- What MACSEC_TX_AN_SET checks. -/
def macsecTxAnChecks (who : Sender) (d : Dev) (sc an : Nat) : List (Bool × Status) :=
  let b := d.block who.tenancy 11 (sc / 128)
  let a := d.scAbs who.tenancy sc
  let st := d.anState a an
  [(b.isNone, .notPermitted), (otherEpoch who d 11 b, .staleEpoch), (3 < an || d.scOther a true, .badField),
   (st == .empty || st == .retiring, .badState), (st == .retired, .retired)]

/-- MACSEC_TX_AN_SET: the AN waits for the next frame boundary. -/
def execMacsecTxAnSet (h : Hdr) (sc an : Nat) (s : State) : Host.Outcome State Fault Refusal :=
  runMessage { code := 0x0D03, lenOk := exactly 4, maxBody := 0 } h (fun who d =>
    setting (macsecTxAnChecks who d sc an) d fun d =>
      let a := d.scAbs who.tenancy sc
      match d.sc a with
      | some x => d.setSc a { x with nextAn := some an }
      | none => d) s

/-! ### Keys (R317, R321, R322, R329) -/

/-- Bulk key slot `i`, absolute. -/
def Dev.bulkKey (d : Dev) (i : Nat) : BulkKey := d.cipher.bulkKeys.get .reset i

/-- Bulk key slot `i` replaced. -/
def Dev.setBulkKey (d : Dev) (i : Nat) (k : BulkKey) : Dev :=
  { d with cipher := { d.cipher with bulkKeys := d.cipher.bulkKeys.set i k } }

/-- The absolute index of a bulk slot; 64 where it is not held. -/
def Dev.bulkAbs (d : Dev) (t i : Nat) : Nat := (d.absIndex t 13 4 i).getD 64

/-- Whether a field of KEY_LOAD is out of range, or not zero where Table 13-4 requires it. -/
def keyLoadBad (d : Dev) (a : Nat) (r : KeyLoadRec) : Bool :=
  let short := if r.target = 0 then r.suite % 2 = 0 else r.suite = 0
  2 ^ 256 ≤ r.key || (short && r.key % 2 ^ 128 != 0) ||
    (if r.target = 0 then
      3 < r.suite || 3 < r.an || 1 < r.dir || (!isXpn r.suite && (r.ssci != 0 || r.salt != 0)) ||
        2 ^ 32 ≤ r.ssci || 2 ^ 96 ≤ r.salt || (r.dir = 1 && r.lowestPn != 0) || lastPn r.suite < r.lowestPn ||
        d.scOther a (r.dir = 1)
     else
      1 < r.target || 1 < r.suite || r.sc != 0 || r.an != 0 || r.dir != 0 || r.ssci != 0 || r.lowestPn != 0 ||
        r.salt != 0)

/-- R317: whether a transmit KEY_LOAD would use a key again. -/
def Dev.keyReused (d : Dev) (sc slot : Nat) (r : KeyLoadRec) : Bool :=
  let c := keyCheck (r.suite % 2 = 1) r.key
  r.dir = 1 && ((d.cipher.checks.get [] sc).contains c ||
    (d.cipher.keys.cells.any fun x =>
      x.1 != slot && x.2.transmit && (x.2.state == .active || x.2.state == .retired) &&
        x.2.ssci = r.ssci && keyCheck (x.2.suite % 2 = 1) x.2.key = c))

/-- Whether a slot belongs to another SC. -/
def Dev.slotElsewhere (d : Dev) (sc slot : Nat) : Bool :=
  (d.saKey slot).state != .empty && (d.saKey slot).sc != sc

/-- What KEY_LOAD checks. -/
def keyLoadChecks (who : Sender) (d : Dev) (r : KeyLoadRec) : List (Bool × Status) :=
  let t := who.tenancy
  let sa := r.target = 0
  let sb := d.block t 11 (r.sc / 128)
  let kb := if sa then d.block t 12 (r.slot / 256) else d.block t 13 (r.slot / 4)
  let sc := d.scAbs t r.sc
  let slot := d.saAbs t r.slot
  [((sa && sb.isNone) || kb.isNone, .notPermitted),
   ((sa && otherEpoch who d 11 sb) || otherEpoch who d (if sa then 12 else 13) kb, .staleEpoch),
   (keyLoadBad d sc r, .badField),
   (sa && ((d.sc sc).isNone || d.slotElsewhere sc slot || d.keyReused sc slot r), .badState),
   (sa && (d.saKey slot).state == .retiring, .slotBusy)]

/-- KEY_LOAD: the key waits for its frame boundary, or for the jobs of its slot. -/
def execKeyLoad (h : Hdr) (r : KeyLoadRec) (s : State) : Host.Outcome State Fault Refusal :=
  runMessage { code := 0x0D04, lenOk := exactly 72, maxBody := 0, sealedOnly := true } h (fun who d =>
    checked (keyLoadChecks who d r) d fun d =>
      let t := who.tenancy
      let sa := r.target = 0
      let sc := d.scAbs t r.sc
      let o : KeyOp := { bulk := !sa, slot := if sa then d.saAbs t r.slot else d.bulkAbs t r.slot,
                         sc := if sa then sc else 0, load := some r, token := who.tok }
      let old := d.cipher.checks.get [] sc
      let checks := if sa && r.dir = 1
        then d.cipher.checks.set sc ((keyCheck (r.suite % 2 = 1) r.key :: old).take 16) else d.cipher.checks
      (.wait, { d with cipher := { d.cipher with keyOps := d.cipher.keyOps ++ [o], checks := checks } })) s

/-- What KEY_ERASE checks. -/
def keyEraseChecks (who : Sender) (d : Dev) (r : KeyEraseRec) : List (Bool × Status) :=
  let t := who.tenancy
  let kb := if r.target = 0 then d.block t 12 (r.slot / 256) else d.block t 13 (r.slot / 4)
  [(kb.isNone, .notPermitted), (otherEpoch who d (if r.target = 0 then 12 else 13) kb, .staleEpoch),
   (1 < r.target, .badField)]

/-- KEY_ERASE: an ACTIVE slot is RETIRING at once; a RETIRED or EMPTY one is zeroed at once. -/
def execKeyErase (h : Hdr) (r : KeyEraseRec) (s : State) : Host.Outcome State Fault Refusal :=
  runMessage { code := 0x0D05, lenOk := exactly 4, maxBody := 0, canAsync := true } h (fun who d =>
    checked (keyEraseChecks who d r) d fun d =>
      let sa := r.target = 0
      let slot := if sa then d.saAbs who.tenancy r.slot else d.bulkAbs who.tenancy r.slot
      let k := d.saKey slot
      if sa && (k.state == .empty || k.state == .retired) && (d.slotOps false slot).isEmpty then
        (.say .ok, d.wipeKey slot)
      else
        let o : KeyOp := { bulk := !sa, slot := slot, sc := 0, load := none, token := who.tok }
        let d := { d with cipher := { d.cipher with keyOps := d.cipher.keyOps ++ [o] } }
        (.wait, if sa then d.beginErase slot 1 else d)) s

/-- The state code of a slot (Table 13-2). -/
def SaState.code : SaState → Nat
  | .empty => 0
  | .active => 1
  | .retiring => 2
  | .retired => 3

/-- MACSEC_SA_STATUS_GET. -/
def execMacsecSaStatusGet (h : Hdr) (slot : Nat) (s : State) : Host.Outcome State Fault Refusal :=
  runMessage { code := 0x0D06, lenOk := fun _ => true, maxBody := 12, changes := false } h (fun who d =>
    match (if who.isMaint then none else d.absIndex who.tenancy 12 256 slot) with
    | none => (.say .notPermitted, d)
    | some a =>
      let k := d.saKey a
      (.done .ok 12 [k.state.code, b2n k.raised, k.pn % 2 ^ 64], d)) s

/-! ### The boot epoch (R327) -/

/-- The last boot epoch. -/
def lastEpoch : Nat := 0xFFFFFFFF

/-- The write of the next boot epoch, if it does not wait or run already; from cycle `at'` on. -/
def Dev.writeEpoch (d : Dev) (at' : Option Nat) : Dev :=
  let u : FlashUse := .bootEpoch (d.cipher.flashEpoch + 1)
  let r : FlashReq := { op := .pageProgram, use := u, since := d.now, recheckAt := at' }
  if d.island.waiting.any (fun x => x.use == u) || (d.island.busy.map (·.use)) == some u then d
  else { d with island := { d.island with waiting := d.island.waiting ++ [r] } }

/-- Firmware reads the boot epoch and begins to write the next one; the last one starts no service. -/
def Dev.beginEpoch (d : Dev) : Dev :=
  let e := d.island.epoch
  let d := { d with cipher := { d.cipher with flashEpoch := e, exhausted := decide (lastEpoch ≤ e) } }
  if lastEpoch ≤ e then d else d.writeEpoch none

/-- An attempt judged by what is read back: the service starts, or the attempt fails and is made again in
1 s. -/
def Dev.epochAttempt (d : Dev) (readback : Nat) : Dev :=
  let e := d.cipher.flashEpoch + 1
  if readback = e then
    { d with cipher := { d.cipher with started := true, bootEpoch := e, retryAt := none } }
  else
    let t := d.now + cyclesPerS
    let d := d.raise 0x0D03 ownerMaint []
    { d with cipher := { d.cipher with retryAt := some t } }.writeEpoch (some t)

/-- Whether an attempt may still be made. -/
def Dev.epochOpen (d : Dev) : Bool := d.mbx.fwReady && !d.cipher.started && !d.cipher.exhausted

/-- BOOT_EPOCH_ADVANCE: the first attempt. -/
def execBootEpochAdvance (readback : Nat) (s : State) : Host.Outcome State Fault Refusal :=
  running (fun d => if d.epochOpen && d.cipher.retryAt.isNone then d.epochAttempt readback else d) s

/-- BOOT_EPOCH_RETRY: a further attempt, 1 s after one that failed. -/
def execBootEpochRetry (readback : Nat) (s : State) : Host.Outcome State Fault Refusal :=
  running (fun d =>
    match d.cipher.retryAt with
    | some t => if d.epochOpen && t ≤ d.now then d.epochAttempt readback else d
    | none => d) s

/-! ### Bulk messages (R325, R326, R328, R331) -/

/-- Whether a mode encrypts, and whether it is GCM (Table 13-5). -/
def encrypts (mode : Nat) : Bool := mode = 0 || mode = 2
def isGcm (mode : Nat) : Bool := mode ≤ 1

/-- The message of a job's segment. -/
def BulkWork.message : BulkWork → Option Nat
  | .segment r => some r.message
  | .exports _ _ _ _ => none

/-- The message that a host read fetches input for. -/
def DmaUse.bulkMessage : DmaUse → Option Nat
  | .message _ (.bulkSegment r) => some r.message
  | _ => none

/-- Whether a segment of message `m` is being fetched, queued or run. -/
def Dev.segmentPending (d : Dev) (m : Nat) : Bool :=
  (d.cipher.jobs.any fun j => j.work.message == some m) ||
    (d.cipher.engines.cells.any fun c => c.2.work.message == some m) ||
    ((d.host.reads ++ d.host.waitingReads).any fun r => r.use.bulkMessage == some m)

/-- The lowest message index that is free. -/
def Dev.freeMessage (d : Dev) : Nat :=
  ((List.range 4609).find? fun i => (d.cipher.msgs.get? i).isNone && !d.segmentPending i).getD 4608

/-- Open messages that `p` picks. -/
def Dev.msgCount (d : Dev) (p : BulkMsg → Bool) : Nat := (d.cipher.msgs.cells.filter fun c => p c.2).length

/-- The quota of wrapped messages of tenancy `t`. -/
def Dev.bulkQuota (d : Dev) (t : Nat) : Nat := d.cipher.quotas.get 256 t

/-- Whether an encrypting open on a slot is past its last sequence (R326). -/
def BulkKey.spent (k : BulkKey) : Bool := decide (2 ^ 58 ≤ k.seq)

/-- The next nonce of a slot: boot epoch, slot and sequence. -/
def Dev.nonceOf (d : Dev) (slot : Nat) : Nat :=
  d.cipher.bootEpoch * 2 ^ 64 + slot * 2 ^ 58 + (d.bulkKey slot).seq

/-- What BULK_OPEN checks (R331). -/
def bulkOpenChecks (who : Sender) (d : Dev) (r : BulkOpenRec) : List (Bool × Status) :=
  let b := d.block who.tenancy 13 (r.keySlot / 4)
  let k := d.bulkKey (d.bulkAbs who.tenancy r.keySlot)
  let wrapped := r.flags.testBit 0
  let full := if wrapped
    then d.bulkQuota who.tenancy ≤ d.msgCount (fun m => m.wrapped && m.tenancy = who.tenancy) ||
      4096 ≤ d.msgCount (·.wrapped)
    else 256 ≤ d.msgCount fun m => !m.wrapped
  [(b.isNone, .notPermitted), (otherEpoch who d 13 b, .staleEpoch),
   (3 < r.mode || (!who.isOwner && !wrapped), .badField),
   ((!d.cipher.started && !d.cipher.exhausted) || !k.loaded, .badState), (full, .noSpace),
   (d.cipher.exhausted || (encrypts r.mode && k.spent), .retired)]

/-- BULK_OPEN. -/
def execBulkOpen (h : Hdr) (r : BulkOpenRec) (s : State) : Host.Outcome State Fault Refusal :=
  runMessage { code := 0x0D07, lenOk := exactly 16, maxBody := 16 } h (fun who d =>
    checked (bulkOpenChecks who d r) d fun d =>
      let slot := d.bulkAbs who.tenancy r.keySlot
      let k := d.bulkKey slot
      let nonce := if encrypts r.mode then d.nonceOf slot else r.nonce % 2 ^ 96
      let i := d.freeMessage
      let m : BulkMsg := { tenancy := who.tenancy, slot := slot, mode := r.mode, wrapped := r.flags.testBit 0,
                           keyGen := k.gen, nonce := nonce, dataBegun := false, ghash := 0, aadLen := 0,
                           dataLen := 0, segment := 0 }
      let d := if encrypts r.mode then d.setBulkKey slot { k with seq := k.seq + 1 } else d
      (.done .ok 16 [i, nonce], { d with cipher := { d.cipher with msgs := d.cipher.msgs.set i m } })) s

/-- A message of the sender. -/
def Dev.ownMessage (d : Dev) (t i : Nat) : Option BulkMsg :=
  (d.cipher.msgs.get? i).filter fun m => m.tenancy = t

/-- A message closed. -/
def Dev.closeMessage (d : Dev) (i : Nat) : Dev :=
  { d with cipher := { d.cipher with msgs := d.cipher.msgs.del i } }

/-- R325: whether a segment breaks a limit of its message. -/
def segmentBad (m : BulkMsg) (r : BulkSegmentRec) : Bool :=
  let n := r.aadLen + r.dataLen
  n = 0 || 65536 < n || (!r.flags.testBit 0 && n % 16 != 0) || (m.dataBegun && r.aadLen != 0) ||
    (if isGcm m.mode then 2 ^ 36 - 32 else (2 ^ 32 - 1) * 16) < m.dataLen + r.dataLen

/-- What BULK_SEGMENT checks of a message (R331), KEY_CHANGED apart. -/
def segmentChecks (who : Sender) (d : Dev) (m : BulkMsg) (r : BulkSegmentRec) : List (Bool × Status) :=
  let later := m.wrapped && m.segment != 0
  let fresh := r.blob.present && r.blob.tagOk
  [(who.stale (d.unit 13 (m.slot / 4)).epoch, .staleEpoch), (segmentBad m r, .badField),
   ((!d.cipher.started && !d.cipher.exhausted) || d.segmentPending r.message ||
      (later && fresh && r.blob.segment != m.segment), .badState),
   (later && !fresh, .badSeal), (d.cipher.exhausted, .retired)]

/-- A completion of a segment counted for its user (Table 13-7). -/
def Dev.countBulk (d : Dev) (user : Nat) (st : Status) : Dev :=
  if st = .keyChanged then d.inc .bulkKeyChanged user 0
  else if st = .badSeal then d.inc .bulkTagFail user 0
  else d

/-- BULK_SEGMENT: the segment is checked and its input read; a message of an old key generation is closed. -/
def execBulkSegment (h : Hdr) (r : BulkSegmentRec) (s : State) : Host.Outcome State Fault Refusal :=
  runMessage { code := 0x0D08, lenOk := exactly 144, maxBody := 128, canAsync := true } h (fun who d =>
    match d.ownMessage who.tenancy r.message with
    | none => (.say .notPermitted, d)
    | some m =>
      match firstFail (segmentChecks who d m r) with
      | some st => (.say st, d.countBulk who.tenancy st)
      | none =>
        if (d.bulkKey m.slot).gen != m.keyGen then
          (.say .keyChanged, (d.closeMessage r.message).countBulk who.tenancy .keyChanged)
        else fetching who 2 (.bulkSegment r) d) s

/-- The input of a segment has come from host memory: it is queued for its user. -/
def Dev.bulkArrived (d : Dev) (tok : Token) (r : BulkSegmentRec) : Dev :=
  match d.ownMessage tok.tenancy r.message with
  | none => d.finish tok .badState 0 []
  | some _ =>
    { d with cipher := { d.cipher with
        jobs := d.cipher.jobs ++ [{ user := tok.tenancy, token := tok, work := .segment r }] } }

/-- BULK_CLOSE: a segment of the message still in work ends when it is taken up or done. -/
def execBulkClose (h : Hdr) (message : Nat) (s : State) : Host.Outcome State Fault Refusal :=
  runMessage { code := 0x0D09, lenOk := exactly 4, maxBody := 0 } h (fun who d =>
    match d.ownMessage who.tenancy message with
    | none => (.say .notPermitted, d)
    | some m =>
      setting [(who.stale (d.unit 13 (m.slot / 4)).epoch, .staleEpoch),
               (!d.cipher.started && !d.cipher.exhausted, .badState), (d.cipher.exhausted, .retired)] d fun d =>
        d.closeMessage message) s

/-- BULK_CONFIG_SET. -/
def execBulkConfigSet (h : Hdr) (quota : List Nat) (s : State) : Host.Outcome State Fault Refusal :=
  runMessage { code := 0x0D0A, lenOk := exactly 32, maxBody := 0 } h (fun who d =>
    setting [(!who.isOwner, .notPermitted), (quota.length != 16 || 4096 < quota.sum, .badField)] d fun d =>
      let q := (List.range 16).foldl (fun t i => t.set i (quota.getD i 0)) d.cipher.quotas
      { d with cipher := { d.cipher with quotas := q } }) s

/-! ### Jobs (R325, R329, R330) -/

/-- The users with queued work in rotating order after the last one served. -/
def Dev.nextUser (d : Dev) : Option Nat :=
  ((List.range 18).map fun i => (d.cipher.turn + 1 + i) % 18).find? fun u =>
    d.cipher.jobs.any fun j => j.user = u

/-- The lowest engine that is idle. -/
def Dev.idleEngine (d : Dev) : Option Nat := (List.range 4).find? fun e => (d.cipher.engines.get? e).isNone

/-- A segment that ends without a job; its message, if it is still open, is closed. -/
def Dev.endSegment (d : Dev) (j : BulkJob) (m : Nat) (st : Status) : Dev :=
  ((d.closeMessage m).countBulk j.user st).finish j.token st 0 []

/-- BULK_JOB_START: an idle engine takes the next user's oldest job. One whose message has been closed, or whose
key has changed, ends at once. -/
def execBulkJobStart (s : State) : Host.Outcome State Fault Refusal :=
  running (fun d =>
    match d.idleEngine, d.nextUser with
    | some e, some u =>
      match d.cipher.jobs.find? fun j => j.user = u with
      | none => d
      | some j =>
        let d := { d with cipher := { d.cipher with jobs := d.cipher.jobs.erase j, turn := u } }
        let run : Dev := { d with cipher := { d.cipher with engines := d.cipher.engines.set e j } }
        match j.work with
        | .segment r =>
          match d.ownMessage u r.message with
          | none => d.finish j.token .badState 0 []
          | some m => if (d.bulkKey m.slot).gen = m.keyGen then run else d.endSegment j r.message .keyChanged
        | .exports _ _ _ _ => run
    | _, _ => d) s

/-- The round keys of a bulk key. -/
def BulkKey.schedule (k : BulkKey) : List (List Nat) := roundKeys (k.suite = 1) k.key

/-- The output of a segment of a message. -/
def bulkOutput (k : BulkKey) (m : BulkMsg) (r : BulkSegmentRec) : List Nat :=
  let data := (r.input.drop r.aadLen).take r.dataLen
  let block := (if isGcm m.mode then 2 else 1) + m.dataLen / 16
  ctrBytes k.schedule m.nonce block data

/-- The message after a segment: its GHASH takes the additional data and the ciphertext. -/
def BulkMsg.after (m : BulkMsg) (k : BulkKey) (r : BulkSegmentRec) (out : List Nat) : BulkMsg :=
  let aad := r.input.take r.aadLen
  let text := if encrypts m.mode then out else (r.input.drop r.aadLen).take r.dataLen
  { m with
    dataBegun := m.dataBegun || r.dataLen != 0
    ghash := if isGcm m.mode then ghashBytes k.schedule (ghashBytes k.schedule m.ghash aad) text else 0
    aadLen := m.aadLen + r.aadLen
    dataLen := m.dataLen + r.dataLen
    segment := m.segment + 1 }

/-- The tag of a message. -/
def BulkMsg.tag (m : BulkMsg) (k : BulkKey) : Nat :=
  gcmTag k.schedule m.nonce m.ghash m.aadLen m.dataLen

/-- Bytes written to host memory for a function that may still issue requests. -/
def Dev.hostWrite (d : Dev) (fn addr : Nat) (bs : List Nat) : Dev :=
  if d.mayRequest fn && !bs.isEmpty then
    { d with host := { d.host with dataOut := (fn, addr, bs) :: d.host.dataOut } }.bump .dmaWrites fn 0
      (ceilDiv bs.length 512)
  else d

/-- A segment done (R330): its output written, its tag given or compared, its context saved. -/
def Dev.segmentDone (d : Dev) (j : BulkJob) (m : BulkMsg) (r : BulkSegmentRec) : Dev :=
  let k := d.bulkKey m.slot
  let out := bulkOutput k m r
  let n := m.after k r out
  let final := r.flags.testBit 0
  let d := (d.inc .bulkSegments j.user 0).bump .bulkBytes j.user 0 (r.aadLen + r.dataLen)
  if final && m.mode = 1 && r.tag != n.tag k then d.endSegment j r.message .badSeal
  else
    let d := d.hostWrite j.token.fn r.outAddr out
    let d := if final then d.closeMessage r.message
      else { d with cipher := { d.cipher with msgs := d.cipher.msgs.set r.message n } }
    let tag := if final && m.mode = 0 then n.tag k else 0
    let blob := if final || !m.wrapped then [0, 0] else [1, n.segment]
    d.finish j.token .ok 128 ([r.dataLen, tag] ++ blob)

/-- A job of an export done: 256 records at a time, then the tag. -/
def Dev.exportDone (d : Dev) (j : BulkJob) (slot nonce left acc : Nat) : Dev :=
  let n := min left 256
  let x := d.draw
  let d := (x.2.inc .bulkSegments j.user 0).bump .bulkBytes j.user 0 (n * 256)
  let d := if d.mayRequest j.token.fn then d.bump .dmaWrites j.token.fn 0 (ceilDiv (n * 256) 512) else d
  let k := d.bulkKey slot
  let acc := ghashBlock (aesBlock k.schedule 0) acc (Config.freeDraw x.1 % 2 ^ 128)
  if left ≤ 256 then d.finish j.token .ok 16 [gcmTag k.schedule nonce acc 0 0]
  else
    let next : BulkJob := { j with work := .exports slot nonce (left - n) acc }
    { d with cipher := { d.cipher with jobs := d.cipher.jobs ++ [next] } }

/-- BULK_JOB_COMPLETE. -/
def execBulkJobComplete (engine : Nat) (s : State) : Host.Outcome State Fault Refusal :=
  running (fun d =>
    match d.cipher.engines.get? engine with
    | none => d
    | some j =>
      let d := { d with cipher := { d.cipher with engines := d.cipher.engines.del engine } }
      match j.work with
      | .segment r =>
        match d.ownMessage j.user r.message with
        | none => d.finish j.token .badState 0 []
        | some m => d.segmentDone j m r
      | .exports slot nonce left acc => d.exportDone j slot nonce left acc) s

/-- The slot that a job uses. -/
def Dev.jobSlot (d : Dev) (j : BulkJob) : Option Nat :=
  match j.work with
  | .segment r => (d.cipher.msgs.get? r.message).map (·.slot)
  | .exports slot _ _ _ => some slot

/-- A bulk key slot with another key, or none: its generation rises. -/
def Dev.changeBulkKey (d : Dev) (slot : Nat) (load : Option KeyLoadRec) : Dev :=
  let k := d.bulkKey slot
  let k := match load with
    | some r => { k with loaded := true, key := r.key, suite := r.suite, gen := k.gen + 1 }
    | none => { k with loaded := false, key := 0, suite := 0, gen := k.gen + 1 }
  d.setBulkKey slot k

/-- BULK_KEY_CHANGE: the oldest load or erasure of a bulk slot, once no job runs on it. -/
def execBulkKeyChange (slot : Nat) (s : State) : Host.Outcome State Fault Refusal :=
  running (fun d =>
    match d.slotOps true slot with
    | [] => d
    | o :: _ =>
      if d.cipher.engines.cells.any fun c => d.jobSlot c.2 == some slot then d
      else (d.changeBulkKey slot o.load).endOp o .ok) s

/-- What REC_EXPORT checks (R374), and what the bulk service asks of its key slot (R331). -/
def recExportChecks (who : Sender) (d : Dev) (r : RecExportRec) : List (Bool × Status) :=
  let b := d.block who.tenancy 13 (r.keySlot / 4)
  let k := d.bulkKey (d.bulkAbs who.tenancy r.keySlot)
  let have' (i : Nat) : Bool := match d.lining.captures.get? who.tenancy with
    | some c => (c.records.lookup i).isSome
    | none => false
  [(who.isMaint || b.isNone, .notPermitted), (staleAllotment who d, .staleEpoch),
   (r.count = 0 || 4096 < r.count, .badField),
   (!have' r.firstIndex || !have' (r.firstIndex + r.count - 1) ||
      (!d.cipher.started && !d.cipher.exhausted) || !k.loaded, .badState),
   (d.replaying who.tenancy, .slotBusy), (d.cipher.exhausted || k.spent, .retired),
   (!d.mayRequest who.fn, .busMasterOff)]

/-- REC_EXPORT: one GCM message of the Lining under the sender's slot, with a nonce of that slot. -/
def execRecExport (h : Hdr) (r : RecExportRec) (s : State) : Host.Outcome State Fault Refusal :=
  runMessage { code := 0x0F06, lenOk := exactly 24, maxBody := 16, canAsync := true } h (fun who d =>
    checked (recExportChecks who d r) d fun d =>
      let slot := d.bulkAbs who.tenancy r.keySlot
      let k := d.bulkKey slot
      let nonce := d.nonceOf slot
      let j : BulkJob := { user := 16, token := who.tok, work := .exports slot nonce r.count 0 }
      let d := d.setBulkKey slot { k with seq := k.seq + 1 }
      (.wait, { d with cipher := { d.cipher with jobs := d.cipher.jobs ++ [j] } })) s

/-! ### Counters (R332) -/

/-- The counters of a port and of a SC (Table 13-7). -/
def portCipherCtrs : List Ctr := [.rxUntagged, .rxBadTag, .rxUnknownSci, .rxPortUnchecked]
def scTxCtrs : List Ctr := [.txPktsProtected, .txPktsEncrypted, .txScOctets, .txSaRetiredDrop]
def scRxCtrs : List Ctr := [.rxScOk, .rxScUnchecked, .rxScNotValid, .rxScLate, .rxScNotUsingSa, .rxScOctets]

/-- The SCs of port `p`, in ascending order. -/
def Dev.scsOf (d : Dev) (p : Nat) : List (Nat × Sc) :=
  (ascending ((d.cipher.scs.cells.filter fun c => c.2.data.port = p).map (·.1))).filterMap fun i =>
    (d.sc i).map fun x => (i, x)

/-- What the holder of a port receives, and what the owner receives of a port it does not configure. -/
def macsecOwn (d : Dev) (p : Nat) : List Nat :=
  portCipherCtrs.map (fun c => d.ctr c p 0) ++ (d.scsOf p).flatMap fun x =>
    x.1 :: (if x.2.transmit then scTxCtrs else scRxCtrs).map fun c => d.ctr c x.1 0
def macsecSums (d : Dev) (p : Nat) : List Nat :=
  let rx := ((d.scsOf p).filter fun x => !x.2.transmit).map (·.1)
  portCipherCtrs.map (fun c => d.ctr c p 0) ++ scRxCtrs.map fun c => d.sumCtr c rx 0

/-- The boot epoch and the state of the bulk service. -/
def serviceState (d : Dev) : List Nat := [d.cipher.bootEpoch, b2n d.cipher.started, b2n d.cipher.exhausted]

/-- MACSEC_STATS_GET. -/
def execMacsecStatsGet (h : Hdr) (port : Nat) (s : State) : Host.Outcome State Fault Refusal :=
  runMessage { code := 0x0D0B, lenOk := fun _ => true, maxBody := 2048, changes := false } h (fun who d =>
    let mine := d.mayMacsec who port
    checked [(who.role == .tenant && !mine, .notPermitted), (95 < port, .badField)] d fun d =>
      (.list (if who.isMaint then serviceState d else if mine then macsecOwn d port else macsecSums d port), d)) s

/-- The bulk counters of a user. -/
def bulkRow (d : Dev) (u : Nat) : List Nat :=
  [d.ctr .bulkSegments u 0, d.ctr .bulkBytes u 0, d.ctr .bulkKeyChanged u 0, d.ctr .bulkTagFail u 0]

/-- BULK_STATS_GET. -/
def execBulkStatsGet (h : Hdr) (s : State) : Host.Outcome State Fault Refusal :=
  runMessage { code := 0x0D0C, lenOk := fun _ => true, maxBody := 2048, changes := false } h (fun who d =>
    let body := match who.role with
      | .maint => serviceState d
      | .tenant => bulkRow d who.tenancy
      | .owner => (List.range 18).flatMap (bulkRow d)
    (.list body, d)) s

end Sys2Proof.Machine
end

