-- ==== Sys2Proof/Machine/Tenancy.lean ====
section
/-! DEFINITION. Tenancy and secrecy (16): the port tenancy map, reassignment and scrub, the assignment counter, keys,
rollback, attestation and debug unlock. -/

namespace Sys2Proof.Machine

/-! ### The port tenancy map (R378, R379, R382) -/

/-- What a map gives VID `v`, 0 standing for untagged frames (R378). -/
def PortMap.entry (m : PortMap) (v : Nat) : Nat :=
  if m.mode = 0 || v = 0 then m.tenancy else m.vids.get 0xFF v

/-- The values that a map's entries have. -/
def PortMap.values (m : PortMap) : List Nat :=
  if m.mode = 0 then [m.tenancy] else m.tenancy :: m.vids.cells.map (·.2)

/-- R382: whether the port is an assigned resource. -/
def PortMap.assigned (m : PortMap) : Bool := m.values.any (· < 16)

/-- Whether two maps give some frame different tenancies. -/
def PortMap.differs (a b : PortMap) : Bool :=
  if a.mode = 0 && b.mode = 0 then a.tenancy != b.tenancy
  else (List.range 4096).any fun v => a.entry v != b.entry v

/-- VID entries from `v` on. -/
def putVids (t : Tab Nat) : Nat → List Nat → Tab Nat
  | _, [] => t
  | v, x :: xs => putVids (if x = 0xFF then t.del v else t.set v x) (v + 1) xs

/-- A map with a record in force. -/
def PortMap.with' (m : PortMap) (r : PortTenancyRec) : PortMap :=
  { m with mode := r.mode, tenancy := r.tenancy,
           vids := if r.mode = 1 then putVids m.vids r.firstVid r.entries else m.vids }

/-- A tenancy value of a map. -/
def mapValue (t : Nat) : Bool := t < 16 || t = 0xFF

/-- What PORT_TENANCY_SET checks (R382). -/
def portTenancyChecks (who : Sender) (d : Dev) (r : PortTenancyRec) : List (Bool × Status) :=
  let m := d.portMap r.port
  [(!who.isOwner, .notPermitted),
   (r.port < 96 && m.assigned && who.stale m.epoch, .staleEpoch),
   (95 < r.port || 1 < r.mode || !mapValue r.tenancy || r.entries.length != r.count || r.entries.any (!mapValue ·) ||
      (r.mode = 0 && r.count != 0) ||
      (r.mode = 1 && (r.firstVid = 0 || 4095 < r.firstVid || 512 < r.count || 4096 < r.firstVid + r.count)), .badField)]

/-- R382: the learning entries of a tenancy for a port removed in every Sleeve. -/
def Dev.unlearnPort (d : Dev) (t p : Nat) : Dev :=
  { d with tables := { d.tables with learn := d.tables.learn.filter fun _ e => !(e.tenancy = t && e.port = p) } }

/-- What happens at the next frame boundaries when port `p` has another holder: the holder that lost it is noted in
each direction, with its MACsec settings turned off. -/
def Dev.noteLoss (d : Dev) (p : Nat) (old : Option Nat) : Dev :=
  let t := d.ten
  let d := { d with ten := { t with lossRx := t.lossRx.set p (t.lossRx.get [] p ++ old.toList),
                                    lossTx := t.lossTx.set p (t.lossTx.get [] p ++ old.toList) } }
  if old.isSome then { d with cipher := { d.cipher with ports := d.cipher.ports.set p (macsecPortReset p) } } else d

/-- A PORT_TENANCY_SET in force, the port's epoch given. -/
def Dev.applyPortMap (d : Dev) (r : PortTenancyRec) (epoch : Nat) : Dev :=
  let p := r.port
  let old := d.portMap p
  let new := { old.with' r with epoch := epoch }
  let holder := d.wholly p
  let d := { d with ten := { d.ten with ports := d.ten.ports.set p new } }
  let gone := (List.range 16).filter fun t => old.values.contains t && !new.values.contains t
  let d : Dev := gone.foldl (fun d t => d.unlearnPort t p) d
  if d.wholly p == holder then d else d.noteLoss p holder

/-- PORT_TENANCY_SET (R382). -/
def execPortTenancySet (h : Hdr) (r : PortTenancyRec) (s : State) : Host.Outcome State Fault Refusal :=
  runMessage { code := 0x1001, lenOk := exactly (8 + r.count), maxBody := 0 } h (fun who d =>
    checked (portTenancyChecks who d r) d fun d =>
      let old := d.portMap r.port
      let new := old.with' r
      if !new.assigned then (.say .ok, d.applyPortMap r 0)
      else if new.differs old then takeTurn who (.portTenancy r) (fun e d => d.applyPortMap r e) d
      else (.say .ok, d.applyPortMap r old.epoch)) s

/-- The Traffic-class counters of Table 3-9, the port counters of Table 4-12, the seam counters, guard_idle and
gate_changes: those of reception, and those of transmission. -/
def holderRxCtrs : List Ctr :=
  [.rxFramesOk, .rxOctetsOk, .rxFcsErr, .rxUndersize, .rxRunt, .rxOversize, .rxMacControl, .rxSlotOverflow,
   .rxMacsecDiscard, .rxUnmapped, .rxPoolDropPort, .parseMalformed, .parseMalformedLate, .parseTruncated]
def holderTxCtrs : List Ctr :=
  [.txFrames, .txOctets, .txLinkDownDiscard, .txOversizeDiscard, .seamFrames, .seamContention, .seamMiss, .seamAborted,
   .guardIdle, .gateChanges]

/-- R322: an SA key slot erased: at once, or when the lanes have left it. -/
def Dev.eraseSlot (d : Dev) (slot : Nat) : Dev :=
  if d.slotInLanes slot then d.setSaKey slot { d.saKey slot with state := .retiring } else d.wipeKey slot

/-- A secure channel removed, its key slots erased. -/
def Dev.removeSc (d : Dev) (i : Nat) : Dev :=
  match d.sc i with
  | none => d
  | some x =>
    let d := x.ans.cells.foldl (fun d c => d.eraseSlot c.2) d
    { d with cipher := { d.cipher with scs := d.cipher.scs.del i, checks := d.cipher.checks.del i } }

/-- The SCs of tenancies `ts` on port `p` in a direction removed. -/
def Dev.removeScs (d : Dev) (ts : List Nat) (p : Nat) (tx : Bool) : Dev :=
  (d.cipher.scs.cells.filter fun c => c.2.data.port = p && c.2.transmit = tx && ts.contains c.2.tenancy).foldl
    (fun d c => d.removeSc c.1) d

/-- TENANCY_LOSS_EFFECT (R382): at a frame boundary of a direction, the SCs of holders that lost the port are
removed, the MACsec settings accepted since are in force, and the counters that a holder reads are zero. -/
def execTenancyLossEffect (port : Nat) (dir : Dir) (s : State) : Host.Outcome State Fault Refusal :=
  running (fun d =>
    let r := d.cipher.ports.get (macsecPortReset port) port
    match dir with
    | .rx =>
      match d.ten.lossRx.get? port with
      | none => d
      | some ts =>
        if !d.atBoundary port false then d
        else
          let d := { d with ten := { d.ten with lossRx := d.ten.lossRx.del port } }.removeScs ts port false
          let d := if ts.isEmpty then d else { d with cipher := { d.cipher with rxPorts := d.cipher.rxPorts.set port r } }
          d.zeroCtrs fun k => holderRxCtrs.contains k.ctr && k.a = port
    | .tx =>
      match d.ten.lossTx.get? port with
      | none => d
      | some ts =>
        if !d.atBoundary port true then d
        else
          let d := { d with ten := { d.ten with lossTx := d.ten.lossTx.del port } }.removeScs ts port true
          let d := if ts.isEmpty then d else { d with cipher := { d.cipher with txPorts := d.cipher.txPorts.set port r } }
          d.zeroCtrs fun k => holderTxCtrs.contains k.ctr && k.a = port) s

/-! ### RES_ASSIGN (R383, R388) -/

/-- The units that a record names, none where its range fails; egress queues are numbered port·16 + queue. -/
def namedUnits (r : ResAssignRec) : Option (List Nat) :=
  if r.kind = 0 || 14 < r.kind then none
  else if r.kind = 1 then
    if 95 < r.first || r.count != 1 || r.queueMask = 0 || 65535 < r.queueMask then none
    else some ((onesOf 16 r.queueMask).map (qKey r.first))
  else if r.count = 0 || unitCount r.kind < r.first + r.count || r.queueMask != 0 then none
  else some ((List.range r.count).map (r.first + ·))

/-- The kinds whose units have tenancy-relative indices (Table 16-2). -/
def isRelative (kind : Nat) : Bool := [4, 5, 6, 8, 9, 10, 11, 12, 13].contains kind

/-- R383: units join a tenancy only above its own, and leave one only from its top. -/
def Dev.orderBroken (d : Dev) (kind : Nat) (t : Option Nat) (moving : List Nat) : Bool :=
  let below := match t with
    | some t => (d.held t kind).any fun u => moving.any (· < u)
    | none => false
  below || (List.range 16).any fun o =>
    let own := d.held o kind
    own.any fun u => moving.contains u && own.any fun v => u < v && !moving.contains v

/-- The tenancies whose flow region a move of blocks changes. -/
def Dev.regionsTouched (d : Dev) (t : Option Nat) (moving : List Nat) : List Nat :=
  (List.range 16).filter fun o => t == some o || moving.any fun u => d.holds o 2 u

/-- R122: whether some region touched would have unequal lists of even and odd blocks. -/
def Dev.regionsUneven (d : Dev) (t : Option Nat) (moving : List Nat) : Bool :=
  (d.regionsTouched t moving).any fun o =>
    let after := (List.range 128).filter fun b => if moving.contains b then t == some o else d.holds o 2 b
    (after.filter (· % 2 = 0)).length * 2 != after.length

/-- The flow blocks that the tenancies touched keep (R383). -/
def Dev.keptBlocks (d : Dev) (t : Option Nat) (moving : List Nat) : List Nat :=
  let ts := d.regionsTouched t moving
  (List.range 128).filter fun b => !moving.contains b && ts.any fun o => d.holds o 2 b

/-- R388 step 4 for TCAM banks: paired width names whole pairs, and no bank of a paired pair moves alone. -/
def Dev.pairsBroken (d : Dev) (r : ResAssignRec) (moving : List Nat) : Bool :=
  (r.flags.testBit 0 && (r.first % 2 = 1 || r.count % 2 = 1)) ||
    d.tcam.paired.any fun p => moving.contains (2 * p) != moving.contains (2 * p + 1)

/-- What a record means: the tenancy it gives, the units that move and those kept beside them. -/
structure MovePlan where
  target : Option Nat
  named : List Nat
  moving : List Nat
  kept : List Nat

/-- The plan of a record. -/
def Dev.movePlan (d : Dev) (r : ResAssignRec) : MovePlan :=
  let t := if r.tenancy < 16 then some r.tenancy else none
  let named := (namedUnits r).getD []
  let moving := named.filter fun u => (d.unit r.kind u).tenancy != t
  { target := t, named := named, moving := moving,
    kept := if r.kind = 2 && !moving.isEmpty then d.keptBlocks t moving else [] }

/-- A TCAM bank that some Sleeve has out of service (R488). -/
def Dev.bankOut (d : Dev) (u : Nat) : Bool :=
  (List.range 7).any fun s => d.outOfService (32 + 16 * s + u)

/-- R388. -/
def resAssignChecks (who : Sender) (d : Dev) (r : ResAssignRec) : List (Bool × Status) :=
  let p := d.movePlan r
  let busy (u : Nat) : Bool := (d.unit r.kind u).scrubbing ||
    d.ten.moves.any fun m => m.kind = r.kind && (m.moving ++ m.kept).contains u
  [(!who.isOwner, .notPermitted),
   ((p.named ++ p.kept).any busy, .badState),
   (p.named.any fun u => (d.unit r.kind u).epoch != who.epoch, .staleEpoch),
   ((namedUnits r).isNone || !mapValue r.tenancy || (isRelative r.kind && d.orderBroken r.kind p.target p.moving) ||
      (r.kind = 2 && d.regionsUneven p.target p.moving) || (r.kind = 3 && d.pairsBroken r p.moving), .badField),
   ((d.ten.debugUnlocked && 1 ≤ r.tenancy && r.tenancy ≤ 15) || (r.kind = 3 && p.named.any d.bankOut), .badState)]

/-! ### The steps of a reassignment (R389) -/

/-- A reassignment. -/
def Dev.move (d : Dev) (id : Nat) : Option Reassign := d.ten.moves.find? fun m => m.id = id

/-- The next reassignment's number taken. -/
def Dev.newMove (d : Dev) : Nat × Dev := (d.ten.moveSeq, { d with ten := { d.ten with moveSeq := d.ten.moveSeq + 1 } })

/-- The units with a tenancy, and that tenancy. -/
def Dev.holdersOf (d : Dev) (kind : Nat) (us : List Nat) : List (Nat × Nat) :=
  us.filterMap fun u => (d.unit kind u).tenancy.map fun t => (u, t)

/-- The name of units in RES_CHANGED: first, count and queue mask as RES_ASSIGN names them. -/
def unitsItem (first count mask : Nat) : Nat := first + 2 ^ 16 * count + 2 ^ 32 * mask

/-- Ascending units as runs of consecutive ones. -/
def runsOf : List Nat → List (Nat × Nat)
  | [] => []
  | u :: us =>
    match runsOf us with
    | (v, n) :: rs => if u + 1 = v then (u, n + 1) :: rs else (u, 1) :: (v, n) :: rs
    | [] => [(u, 1)]

/-- The items that name units of a kind. -/
def unitsItems (kind : Nat) (us : List Nat) : List Nat :=
  if kind = 1 then
    (List.range 96).filterMap fun p =>
      let m := (us.filter fun u => u / 16 = p).foldl (fun m u => setBit m (u % 16)) 0
      if m = 0 then none else some (unitsItem p 1 m)
  else (runsOf us).map fun x => unitsItem x.1 x.2 0

/-- RES_CHANGED for units of a kind, to one audience. -/
def Dev.tellUnits (d : Dev) (aud : Aud) (kind epoch : Nat) (us : List Nat) : Dev :=
  (unitsItems kind us).foldl (fun d x => d.raise 0x1001 [aud] [kind, x, epoch]) d

/-- RES_CHANGED to the owner, and to the old and the new tenancy, each for its own units. -/
def Dev.tellMove (d : Dev) (m : Reassign) (epoch : Nat) : Dev :=
  let e := if m.newTenancy.isSome then epoch else 0
  let d := (d.tellUnits .owner m.kind e m.moving).tellUnits .owner m.kind epoch m.kept
  let d := (oldTenancies m.holders).foldl (fun d t =>
    if t = 0 then d
    else
      let own (us : List Nat) : List Nat := us.filter fun u => m.holders.contains (u, t)
      (d.tellUnits (.tenancy t) m.kind e (own m.moving)).tellUnits (.tenancy t) m.kind epoch (own m.kept)) d
  match m.newTenancy with
  | some t => if t = 0 then d else d.tellUnits (.tenancy t) m.kind e m.moving
  | none => d

/-- A unit with its tenancy and epoch settled. -/
def Dev.settleUnit (d : Dev) (kind u epoch : Nat) : Dev :=
  let o := d.unit kind u
  let x : ResUnit := { o with epoch := if o.tenancy.isSome then epoch else 0, scrubbing := false }
  { d with ten := { d.ten with units := d.ten.units.set (unitKey kind u) x } }

/-- The enrolments that wait for scrubs of tenancy `t`: their flash records wait for their writes (R397). -/
def Dev.enrolScrubbed (d : Dev) (t : Nat) : Dev :=
  if d.ten.moves.any fun m => m.enrol == some t then d
  else
    let mine := d.ten.enrols.filter fun x => x.2.tenancy = t
    let d := { d with ten := { d.ten with enrols := d.ten.enrols.filter fun x => x.2.tenancy != t } }
    mine.foldl (fun d x => d.flashWait .pageProgram (.tenantKey x.2 (some x.1))) d

/-- The width of the TCAM pairs whose banks have moved (Table 16-4). -/
def Dev.settlePairs (d : Dev) (m : Reassign) : Dev :=
  if m.kind != 3 then d
  else
    let on := m.paired && m.newTenancy.isSome
    let rest := d.tcam.paired.filter fun p => !(m.moving.contains (2 * p) || m.moving.contains (2 * p + 1))
    let new := (List.range 8).filter fun p => on && m.moving.contains (2 * p) && m.moving.contains (2 * p + 1)
    { d with tcam := { d.tcam with paired := rest ++ new } }

/-- Step 5 of R389 with its value: the units have their epoch and the message completes. -/
def Dev.endMove (d : Dev) (m : Reassign) (value : Nat) : Dev :=
  let e := if m.newTenancy.isSome then value else 0
  let d := m.moving.foldl (fun d u => d.settleUnit m.kind u e) d
  let d := m.kept.foldl (fun d u => d.settleUnit m.kind u value) d
  let d := { d with ten := { d.ten with moves := d.ten.moves.filter fun x => x.id != m.id } }
  let d := d.settlePairs m
  let d := if m.enrol.isNone then d.inc .scrubs 0 0 else d
  let d := match m.token with
    | some t => d.finish t .ok 8 [e, (d.now - m.fence) / cyclesPerUs]
    | none => d
  let d := d.tellMove m value
  match m.enrol with
  | some t => d.enrolScrubbed t
  | none => d

/-- Whether a reassignment takes a value of the assignment counter at step 5 (R384): it gives some unit a new
non-zero epoch, and has none yet. -/
def Reassign.takesValue (m : Reassign) : Bool := m.value.isNone && (m.newTenancy.isSome || !m.kept.isEmpty)

/-- Step 5 of R389, if its turn has come. -/
def Dev.issueEpoch (d : Dev) (m : Reassign) : Dev :=
  if !m.takesValue then d.endMove m (m.value.getD 0)
  else if d.turnReady then
    let x := d.issue
    x.2.endMove m x.1
  else d

/-- RES_EPOCH_ISSUE. -/
def execResEpochIssue (res : Nat) (s : State) : Host.Outcome State Fault Refusal :=
  running (fun d =>
    match d.move res with
    | some m => if m.step = 5 then d.issueEpoch m else d
    | none => d) s

/-- RES_ASSIGN (R388, R389): units already held are left as they are; unassigned units complete after step 1, in
the command where the counter has a value. -/
def execResAssign (h : Hdr) (r : ResAssignRec) (s : State) : Host.Outcome State Fault Refusal :=
  runMessage { code := 0x1002, lenOk := exactly 12, maxBody := 8, canAsync := true } h (fun who d =>
    checked (resAssignChecks who d r) d fun d =>
      let p := d.movePlan r
      if p.moving.isEmpty then (.done .ok 8 [who.epoch, 0], d)
      else
        let x := d.newMove
        let m : Reassign :=
          { id := x.1, kind := r.kind, moving := p.moving, kept := p.kept, newTenancy := p.target,
            holders := d.holdersOf r.kind (p.moving ++ p.kept), paired := r.flags.testBit 0, value := none,
            enrol := none, step := 1, waitSlots := [], fence := d.now, token := some who.tok }
        let d := x.2.beginMove m
        match d.move m.id with
        | some m' =>
          if m'.step = 5 && (!m'.takesValue || d.turnReady) then
            let v := if m'.takesValue then d.issue else (0, d)
            let e := if m'.newTenancy.isSome then v.1 else 0
            (.done .ok 8 [e, 0], v.2.endMove { m' with token := none } v.1)
          else (.wait, d)
        | none => (.wait, d)) s

/-- RES_SCRUB_COMMIT (steps 2 of R389 and 2 to 5 of R179): the reassignment's scrub commit in front finds a PREPARED
slot; its journal record is written, its removals enter the slot, and the slot is CURRENT. -/
def execResScrubCommit (res : Nat) (s : State) : Host.Outcome State Fault Refusal :=
  running (fun d =>
    match d.vers.commits, d.preparedSlot with
    | c :: _, some v =>
      if c.scrub != some res then d
      else
        let inUse := (List.range 4).filter fun k => (d.vslot k).state = .current || (d.vslot k).state = .draining
        ((d.writeCommit c v false).commitCycle c v).scrubCommitted res inUse
    | _, _ => d) s

/-- RES_DRAIN_DONE (step 3 of R389): no slot that the reassignment waits for is still CURRENT or DRAINING. -/
def execResDrainDone (res : Nat) (s : State) : Host.Outcome State Fault Refusal :=
  running (fun d =>
    match d.move res with
    | some m => if m.step = 3 && m.waitSlots.isEmpty then d.setMove { m with step := 4 } else d
    | none => d) s

/-! ### Scrub (Table 16-4) -/

/-- The counters kept per egress queue. -/
def queueCtrs : List Ctr :=
  [.queueDrops, .spillFrames, .spillReturns, .spillLost, .spillReturnWait, .txQFrames, .txQOctets, .sojournExpired,
   .sduExceeded, .gateOverrun]

/-- An egress queue at its defaults, its counters zero. -/
def Dev.scrubQueue (d : Dev) (u : Nat) : Dev :=
  let y := d.yoke
  let x := d.queues
  let d := { d with yoke := { y with bufs := y.bufs.del u, queueMax := y.queueMax.del u, retryAt := y.retryAt.del u },
                    queues := { x with queues := x.queues.del u, maxSojourn := x.maxSojourn.del u } }
  (d.unsample (u / 16) (u % 16)).zeroCtrs fun k => queueCtrs.contains k.ctr && k.a = u

/-- The key operations that still wait on slots `p` picks end with BAD_STATE. -/
def Dev.dropKeyOps (d : Dev) (p : KeyOp → Bool) : Dev :=
  (d.cipher.keyOps.filter p).foldl (fun d o => d.endOp o .badState) d

/-- A bulk key slot erased (R329), its open messages closed. -/
def Dev.scrubBulk (d : Dev) (slot : Nat) : Dev :=
  let d := if (d.bulkKey slot).loaded then d.changeBulkKey slot none else d
  (d.cipher.msgs.cells.filter fun c => c.2.slot = slot).foldl (fun d c => d.closeMessage c.1) d

/-- The rings of a virtual function discarded with what stands in them, its sessions closed. -/
def Dev.scrubFunction (d : Dev) (f : Nat) : Dev :=
  let d := d.closeAll f 3
  let m := d.mbox f
  let d := { d with mbx := { d.mbx with rxQueue := d.mbx.rxQueue.filter fun x => x.1 != f } }
  d.setMbox f { m with req := .reset, rsp := .reset, rx := .reset, entries := [], copies := [], fetched := 0, unknown := [],
                       zero := .zero, zeroOpen := false, halted := false, hello := none, reserved := 0,
                       busy := none, asyncs := [] }

/-- The storage of units `us` of a kind zero in all Sleeves; `olds` the tenancies they served. A scrubbed flow region
leaves no key profile of its tenancy set (R146). -/
def Dev.scrubUnits (d : Dev) (kind : Nat) (us olds : List Nat) : Dev :=
  let gone (size i : Nat) : Bool := us.contains (i / size)
  match kind with
  | 1 => us.foldl (fun d u => d.scrubQueue u) d
  | 2 =>
    let t := d.tables
    { d with tables := { t with
        flow := t.flow.filter fun i _ => !gone 4096 i
        profiles := t.profiles.filter fun k _ => !olds.contains (k / 4)
        flowHits := t.flowHits.filter fun k => !gone 4096 (k % 2 ^ 19)
        flowBad := t.flowBad.filter fun k => !gone 4096 (k % 2 ^ 19) } }
  | 3 =>
    let t := d.tcam
    { d with tcam := { t with
        entries := t.entries.filter fun i _ => !gone 2048 i
        suspects := t.suspects.filter fun k => !gone 2048 (k % 32768) } }
  | 4 =>
    let m := d.meter
    let bindings := m.bindings.filter fun i _ => !gone 4096 i
    let cells := m.cells.filter fun k _ => !gone 4096 (k % 65536)
    { d with meter := { m with bindings := bindings, cells := cells } }.zeroCtrs fun k =>
      isColourCtr k.ctr && gone 4096 k.a
  | 5 =>
    let d := { d with vers := { d.vers with actions := d.vers.actions.filter fun i _ => !gone 4096 i } }
    d.zeroCtrs fun k => k.ctr = .actionHits && gone 4096 k.a
  | 6 => { d with rel := { d.rel with profiles := d.rel.profiles.filter fun i _ => !gone 256 i } }
  | 7 =>
    let d := { d with parse := { d.parse with patterns := d.parse.patterns.filter fun i _ => !gone 32 i } }
    d.zeroCtrs fun k => k.ctr = .patternHits && gone 32 k.a
  | 8 => { d with vers := { d.vers with templates := d.vers.templates.filter fun i _ => !gone 128 i } }
  | 9 => { d with vers := { d.vers with groups := d.vers.groups.filter fun i _ => !gone 64 i } }
  | 10 =>
    let d := { d with micro := { d.micro with custMem := d.micro.custMem.filter fun c => !gone 256 (c.1 % 4096) } }
    olds.foldl (fun d t => d.revoke t) d
  | 11 =>
    (d.cipher.scs.cells.filter fun c => gone 128 c.1).foldl (fun d c => d.removeSc c.1)
      (d.dropKeyOps fun o => !o.bulk && gone 128 o.sc)
  | 12 =>
    (d.cipher.keys.cells.filter fun c => gone 256 c.1).foldl (fun d c => d.wipeKey c.1)
      (d.dropKeyOps fun o => !o.bulk && gone 256 o.slot)
  | 13 =>
    (us.flatMap fun u => (List.range 4).map (4 * u + ·)).foldl (fun d i => d.scrubBulk i)
      (d.dropKeyOps fun o => o.bulk && gone 4 o.slot)
  | 14 => us.foldl (fun d u => d.scrubFunction (u + 2)) d
  | _ => d

/-- Whether the frames of the queues under scrub are gone. -/
def Dev.queuesEmpty (d : Dev) (us : List Nat) : Bool :=
  us.all fun u => (d.queue (u / 16) (u % 16)).isEmpty &&
    !((d.heldFrames (u / 16)).any fun x => x.2.2.queue = u % 16)

/-- RES_UNIT_SCRUB_DONE (step 4 of R389): a reassignment of egress queues waits until their frames are gone. -/
def execResUnitScrubDone (res : Nat) (s : State) : Host.Outcome State Fault Refusal :=
  running (fun d =>
    match d.move res with
    | some m =>
      let us := m.holders.map (·.1)
      if m.step != 4 || (m.kind = 1 && !d.queuesEmpty us) then d
      else (d.scrubUnits m.kind us (oldTenancies m.holders)).setMove { m with step := 5 }
    | none => d) s

/-- A frame counted in scrub_discards of its tenancy. -/
def Dev.countScrub (d : Dev) (fid : Nat) : Dev :=
  d.withFrame fid fun f => d.inc .scrubDiscards (fld f.ctx fTenancy) 0

/-- SCRUB_QUEUE_DISCARD (Table 16-4): one frame of a queue under scrub: its head, or a calendar entry for it. -/
def execScrubQueueDiscard (port queue : Nat) (s : State) : Host.Outcome State Fault Refusal :=
  running (fun d =>
    if 96 ≤ port || 16 ≤ queue || !(d.unit 1 (qKey port queue)).scrubbing then d
    else
      match d.queue port queue with
      | e :: es =>
        let d := if e.isMirror then d else d.countScrub e.fid
        d.headDrop port queue e es 29
      | [] =>
        match (d.heldFrames port).find? fun x => x.2.2.queue = queue with
        | some x => (((d.countScrub x.1).uncalendar port x.1).fateDrop x.1 29).unref x.1
        | none => d) s

/-! ### Messages and turns (R385, R397, R432) -/

/-- RES_STATUS_GET (R432). -/
def execResStatusGet (h : Hdr) (kind : Nat) (s : State) : Host.Outcome State Fault Refusal :=
  runMessage { code := 0x1003, lenOk := exactly 4, maxBody := 2048, changes := false } h (fun who d =>
    checked [(who.isMaint, .notPermitted), (kind = 0 || 14 < kind, .badField)] d fun d =>
      let us := (List.range (unitCount kind)).filter fun u => who.isOwner || d.holds who.tenancy kind u
      (.list (us.flatMap fun u => [u, (d.unit kind u).tenancy.getD 0xFF, (d.unit kind u).epoch]), d)) s

/-- The flash write of a tenant's key record. -/
def Dev.enrolWrite (d : Dev) (tok : Token) (r : TenantEnrolRec) : Dev :=
  d.flashWait .pageProgram (.tenantKey r (some tok))

/-- The scrub of every unit that a tenancy holds, keeping the assignment and giving the epoch `e` (R397). -/
def Dev.scrubTenancy (d : Dev) (t e : Nat) : Dev :=
  (List.range 15).foldl (fun d k =>
    let us := d.held t k
    if us.isEmpty then d
    else
      let x := d.newMove
      x.2.beginMove
        { id := x.1, kind := k, moving := [], kept := us, newTenancy := none, holders := us.map fun u => (u, t),
          paired := false, value := some e, enrol := some t, step := 1, waitSlots := [], fence := d.now, token := none }) d

/-- R397: what a new key, or the removal of a key, does first: the tenancy's sessions close, its journal key is
zeroised and drawn anew, its capture is cleared. -/
def Dev.endTenant (d : Dev) (t : Nat) : Dev :=
  let d := d.closeWhere (fun s => s.role == .tenant && s.tenancy = t) 1
  let x := d.draw
  let d := { x.2 with ten := { x.2.ten with journalKeys := x.2.ten.journalKeys.set t (Config.freeDraw x.1 % 2 ^ 256) } }
  (d.stopCapture t).clearCapture t

/-- A TENANT_ENROL of a tenancy with a key: its first part, with the epoch that its units will have. -/
def Dev.applyEnrol (d : Dev) (tok : Token) (r : TenantEnrolRec) (e : Nat) : Dev :=
  let d := (d.endTenant r.tenancy).scrubTenancy r.tenancy e
  ({ d with ten := { d.ten with enrols := d.ten.enrols ++ [(tok, r)] } }).enrolScrubbed r.tenancy

/-- The units of a tenancy, of every kind. -/
def Dev.holdings (d : Dev) (t : Nat) : List (Nat × Nat) :=
  (List.range 15).flatMap fun k => (d.held t k).map fun u => (k, u)

/-- What TENANT_ENROL checks. -/
def tenantEnrolChecks (who : Sender) (d : Dev) (r : TenantEnrolRec) : List (Bool × Status) :=
  let had := (d.ten.tenantKeys.get? r.tenancy).isSome
  [(!who.isOwner, .notPermitted), (r.tenancy = 0 || 15 < r.tenancy, .badField),
   (had && (d.holdings r.tenancy).any fun x => (d.unit x.1 x.2).scrubbing, .badState)]

/-- TENANT_ENROL (R397). -/
def execTenantEnrol (h : Hdr) (r : TenantEnrolRec) (s : State) : Host.Outcome State Fault Refusal :=
  runMessage { code := 0x1005, lenOk := fun _ => true, maxBody := 0, canAsync := true } h (fun who d =>
    checked (tenantEnrolChecks who d r) d fun d =>
      if (d.ten.tenantKeys.get? r.tenancy).isNone then (.wait, d.enrolWrite who.tok r)
      else
        drawing who d fun d =>
          if (d.holdings r.tenancy).isEmpty then (.wait, d.applyEnrol who.tok r 0)
          else if d.turnReady && d.ten.turns.isEmpty then
            let x := d.issue
            (.wait, x.2.applyEnrol who.tok r x.1)
          else
            (.wait, { d with ten := { d.ten with turns := d.ten.turns ++ [{ token := who.tok, cmd := .enrol r }] } })) s

/-- A transaction whose turn has come makes its change with the value it takes. -/
def Dev.applyTurn (d : Dev) (w : WaitingTurn) (e : Nat) : Dev :=
  match w.cmd with
  | .learnQuota r => (d.applyQuotas r e).finish w.token .ok 0 []
  | .pool r => (d.applyPool r e).finish w.token .ok 0 []
  | .recStore r => (d.applyStore r e).finish w.token .ok 0 []
  | .portTenancy r => (d.applyPortMap r e).finish w.token .ok 0 []
  | .enrol r => d.applyEnrol w.token r e
  | .ucodeLoad _ _ => d
  | .fwStore _ => d
  | .bulkSegment _ => d
  | .bootLoad _ => d

/-- ASSIGN_COUNTER_TURN (R385): the transaction that has waited longest. -/
def execAssignCounterTurn (s : State) : Host.Outcome State Fault Refusal :=
  running (fun d =>
    match d.ten.turns with
    | w :: ws =>
      if !d.turnReady then d
      else
        let x := { d with ten := { d.ten with turns := ws } }.issue
        x.2.applyTurn w x.1
    | [] => d) s

/-! ### Keys, fuses and attestation (R395, R396, R399, R400) -/

/-- OWNER_KEY_SET (R396). -/
def execOwnerKeySet (h : Hdr) (key : Nat) (sigOk : Bool) (s : State) : Host.Outcome State Fault Refusal :=
  runMessage { code := 0x1004, lenOk := fun l => l = 96 || l = 192, maxBody := 0 } h (fun who d =>
    let refused := match d.ten.ownerKey with
      | none => who.fn != 0 || who.session != 0
      | some _ => !who.isOwner || who.session = 0 || !sigOk || h.length != 192
    checked [(refused, .badSeal)] d fun d => (.wait, d.flashWait .pageProgram (.ownerKey key (some who.tok)))) s

/-- The vendor patch sets that are active in some Sleeve. -/
def Dev.activePatches (d : Dev) : List Nat := (d.boot.patches.cells.map (·.2)).eraseDups

/-- The security versions that bound a rollback target: the running firmware and the images in flash. -/
def Dev.imageVersions (d : Dev) : List Nat :=
  d.boot.running.toList.map (·.securityVersion) ++
    (d.island.images.cells.filter fun c => c.2.imageType = 1 || c.2.imageType = 2).map (·.2.securityVersion)

/-- ROLLBACK_ADVANCE (R399). -/
def execRollbackAdvance (h : Hdr) (target : Nat) (s : State) : Host.Outcome State Fault Refusal :=
  runMessage { code := 0x1006, lenOk := fun _ => true, maxBody := 0, canAsync := true, sealedOnly := true } h (fun who d =>
    checked [(!who.isOwner, .notPermitted), (64 < target, .badField),
             (d.ten.rollback < target && d.imageVersions.any (· < target), .badState),
             (d.ten.rollback < target && d.ten.rollbackTarget.isSome, .slotBusy)] d fun d =>
      if target ≤ d.ten.rollback then (.say .ok, d)
      else (.wait, { d with ten := { d.ten with rollbackTarget := some (target, who.tok, d.now) } })) s

/-- ROLLBACK_FUSE_BLOW: one bit of the thermometer, 1 ms after the one before. -/
def execRollbackFuseBlow (s : State) : Host.Outcome State Fault Refusal :=
  running (fun d =>
    match d.ten.rollbackTarget with
    | some (target, tok, since) =>
      if d.now < since + cyclesPerMs then d
      else
        let n := d.ten.rollback + 1
        if n < target then
          { d with ten := { d.ten with rollback := n, rollbackTarget := some (target, tok, d.now) } }
        else
          (({ d with ten := { d.ten with rollback := n, rollbackTarget := none } }).finish tok .ok 0 []).raise
            0x1004 ownerMaint []
    | none => d) s

/-- ATTEST_GET (R400): the report and its signature, which nothing in the model computes. -/
def execAttestGet (h : Hdr) (nonce : Nat) (s : State) : Host.Outcome State Fault Refusal :=
  runMessage { code := 0x1007, lenOk := exactly 16, maxBody := 2048, open0 := true, changes := false } h (fun who d =>
    let t := d.ten
    let own := if who.role == .tenant then [Config.digest (t.tenantKeys.get 0 who.tenancy)] else []
    let report :=
      [Config.idkPublic, Config.serial, t.rollback, t.lifecycle, b2n t.debugUnlocked, d.cipher.bootEpoch,
       (d.boot.running.map (·.digest)).getD 0] ++ d.activePatches ++
      [d.activeDigest, Config.digest (t.ownerKey.getD 0), nonce] ++ own
    (.list (report ++ [Config.idkSignature report]), d)) s

/-- DEBUG_NONCE_GET (R403). -/
def execDebugNonceGet (h : Hdr) (s : State) : Host.Outcome State Fault Refusal :=
  runMessage { code := 0x1008, lenOk := exactly 0, maxBody := 16 } h (fun who d =>
    checked [(!who.isOwner, .notPermitted)] d fun d =>
      drawing who d fun d =>
        let x := d.draw
        let n := Config.freeDraw x.1 % 2 ^ 128
        (.done .ok 16 [n], { x.2 with ten := { x.2.ten with debugNonce := some (n, d.now) } })) s

/-- DEBUG_NONCE_EXPIRY: 300 s after issue. -/
def execDebugNonceExpiry (s : State) : Host.Outcome State Fault Refusal :=
  running (fun d =>
    match d.ten.debugNonce with
    | some (_, t) => if t + 300 * cyclesPerS ≤ d.now then { d with ten := { d.ten with debugNonce := none } } else d
    | none => d) s

/-- CLASP_HEALTH_TEST_FAIL (R395). -/
def execClaspHealthTestFail (s : State) : Host.Outcome State Fault Refusal :=
  running (fun d => { d with ten := { d.ten with rngOk := false } }.raise 0x1005 ownerMaint []) s

/-- DRAW_TIMEOUT (R395). -/
def execDrawTimeout (s : State) : Host.Outcome State Fault Refusal :=
  running (fun d =>
    let late (x : Token × Nat) : Bool := x.2 + cyclesPerS ≤ d.now
    let d' := { d with ten := { d.ten with draws := d.ten.draws.filter fun x => !late x } }
    (d.ten.draws.filter late).foldl (fun d x => d.finish x.1 .badState 0 []) d') s

/-! ### Maintenance sessions (R401) -/

/-- MAINT_SESSION_EXPIRY. -/
def execMaintSessionExpiry (fn session : Nat) (s : State) : Host.Outcome State Fault Refusal :=
  running (fun d =>
    match (d.mbox fn).sealed.get? session with
    | some x =>
      if x.role == .maint && decide (x.openedAt + x.maxDuration * cyclesPerS ≤ d.now) then d.closeSession fn session 2
      else d
    | none => d) s

/-- The sessions without time-free whose not_after network time has passed closed. -/
def Dev.closeLapsed (d : Dev) : Dev :=
  d.closeWhere (fun s => s.role == .maint && !s.timeFree && decide (s.notAfter < d.stamp.sec)) 2

/-- MAINT_NOT_AFTER_CHECK. -/
def execMaintNotAfterCheck (s : State) : Host.Outcome State Fault Refusal := running (fun d => d.closeLapsed) s

/-! ### Debug unlock (R402 to R404) -/

/-- Every frame discarded: Pockets and descriptors are zero. -/
def Dev.scrapFrames (d : Dev) : Dev :=
  let d := d.ports.frames.cells.foldl (fun d c => (d.toManager c.2).freeAll 16 c.2.pockets) d
  let cuff (_ : Nat) (x : Cuff) : Cuff := { x with slices := [] }
  let port (_ : Nat) (x : Port) : Port := { x with rxFrame := none, txFrame := none }
  let sleeve (_ : Nat) (x : SleeveState) : SleeveState := { x with recirc := [], injects := [], owed := none }
  { d with
    ports := { d.ports with frames := .none, cuffs := d.ports.cuffs.map cuff, ports := d.ports.ports.map port }
    arch := { d.arch with sleeves := d.arch.sleeves.map sleeve }
    vers := { d.vers with inflight := .none, journal := [] }
    yoke := { d.yoke with queues := .none, calendars := .none, calEntries := 0, descUsed := 0, spillUnits := [],
                          collarQueues := .none }
    queues := { d.queues with selected := .none, sending := .none } }

/-- Every port taken to DISABLED (R87). -/
def Dev.disablePorts (d : Dev) : Dev :=
  (List.range 96).foldl (fun d p => if (d.port p).cfg.mode = 0 then d else d.restartPort { (d.port p).cfg with port := p, mode := 0 }) d

/-- What tenancy `t` holds unassigned, its storage zero (step 4 of R403). -/
def Dev.dispossess (d : Dev) (t : Nat) : Dev :=
  (List.range 15).foldl (fun d k =>
    let us := d.held t k
    let d := d.scrubUnits k us [t]
    let drop (d : Dev) (u : Nat) : Dev := { d with ten := { d.ten with units := d.ten.units.del (unitKey k u) } }
    us.foldl drop d) d

/-- A reassignment that R403 ends: one that gives units to a tenant, or renews a tenant's. -/
def Reassign.forTenant (m : Reassign) : Bool :=
  m.enrol.isSome || match m.newTenancy with
    | some t => t != 0
    | none => false

/-- A commit that R403 ends: a tenant's, or a scrub commit of a reassignment that it ends. -/
def Dev.commitEnds (d : Dev) (c : Commit) : Bool :=
  match c.scrub with
  | some i => d.ten.moves.any fun m => m.id = i && m.forTenant
  | none => c.tenancy != 0

/-- R403: the sessions, commits and reassignments of the tenants ended. -/
def Dev.endTenants (d : Dev) : Dev :=
  let d := d.closeWhere (fun s => s.role != .owner) 1
  let cs := d.vers.commits.filter d.commitEnds
  let ms := d.ten.moves.filter (·.forTenant)
  let d : Dev := cs.foldl (fun d c => (d.dropCommit c.id).answer c.token .staleEpoch 0 []) d
  let d := { d with ten := { d.ten with moves := d.ten.moves.filter (!·.forTenant), enrols := [] } }
  ms.foldl (fun d m => d.answer m.token .badState 0 []) d

/-- The keys that R403 zeroes beside the slots of the tenants. -/
def Dev.zeroKeys (d : Dev) : Dev :=
  let d := (List.range 16).foldl (fun d t => (d.stopCapture t).clearCapture t) d
  { d with ten := { d.ten with journalKeys := .none, contextKey := none } }

/-- Steps 2 to 5 of R403. -/
def Dev.unlockDebug (d : Dev) : Dev :=
  let d := d.disablePorts.scrapFrames.endTenants.zeroKeys
  let d := (List.range 15).foldl (fun d i => d.dispossess (i + 1)) d
  { d with ten := { d.ten with debugUnlocked := true, debugNonce := none } }.raise 0x1003 ownerMaint []

/-- A token of debug unlock (Table 16-9, R403). -/
def unlockToken (nonce : Option (Nat × Nat)) (t : Sys2Proof.Token) : Bool :=
  t.version = 1 && t.scope.testBit 1 && t.deviceOk && t.sigOk &&
    (match nonce with
     | some (n, _) => t.nonce = n
     | none => false)

/-- DEBUG_UNLOCK (R403). -/
def execDebugUnlock (h : Hdr) (owner vendor : Sys2Proof.Token) (s : State) : Host.Outcome State Fault Refusal :=
  runMessage { code := 0x1009, lenOk := exactly 464, maxBody := 0, canAsync := true, sealedOnly := true } h (fun who d =>
    let n := d.ten.debugNonce
    setting [(!who.isOwner || d.ten.lifecycle.testBit 1, .notPermitted),
             (!unlockToken n owner || !unlockToken n vendor, .badSeal)] d fun d => d.unlockDebug) s

end Sys2Proof.Machine
end

