-- ==== Sys2Proof/Machine/Mailbox.lean ====
section
/-! DEFINITION. Mailboxes and the Quesin protocol (17): rings, doorbells, sessions, heartbeats and the failover of the
Collar's cores. -/

namespace Sys2Proof.Machine

/-! ### Functions and rings (R406 to R410) -/

/-- R438: whether function `f` exists. -/
def Dev.fnExists (d : Dev) (f : Nat) : Bool := f < 2 || (d.host.vfEnable && f < d.host.numVfs + 2)

/-- What a host write to BAR0 of function `f` does. -/
def Dev.onFn (d : Dev) (f : Nat) (act : Mailbox → Dev) : Dev := if d.fnExists f then act (d.mbox f) else d

/-- A fetch of the request ring up to its tail, if there is anything to fetch and no fetch of it under way; a tail that
lies beyond the ring is a framing error (R417 step 1). -/
def Dev.fetchRing (d : Dev) (f : Nat) : Dev :=
  let m := d.mbox f
  let use : DmaUse := .ringFetch m.req.tail
  let asked := (d.host.reads ++ d.host.waitingReads).any fun r => r.fn = f && r.use == use && !r.discard
  if m.req.enabled && d.served f && !m.halted && !m.hostLost &&
      decide (2 ^ m.req.size < (m.req.tail + 2 ^ 32 - m.req.head) % 2 ^ 32) then d.ringError f
  else if m.req.enabled && d.served f && !m.halted && d.mayRequest f && m.fetched != m.req.tail && !asked then
    d.dmaRead f 0 use
  else d

/-- Sizes (log2) that leave a ring usable, up to `top`. -/
def ringSize (top n : Nat) : Bool := 6 ≤ n && n ≤ top

/-- REQ_RING_ENABLE_WRITE (R408): from 0 to 1 the head takes the tail's value and session 0 a new window. -/
def execReqRingEnableWrite (fn : Nat) (on : Bool) (s : State) : Host.Outcome State Fault Refusal :=
  running (fun d => d.onFn fn fun m =>
    if !on then
      let d := d.setMbox fn { m with req := { m.req with enabled := false }, zeroOpen := false, unknown := [] }
      if fn = 0 then d.dropStagedOf 0 else d
    else if m.req.enabled || !ringSize 14 m.req.size then d
    else
      let m' : Mailbox := { m with req := { m.req with enabled := true, head := m.req.tail }, fetched := m.req.tail,
                                   unknown := [], halted := false, zeroOpen := true }
      let n := d.mbx.opens + 1
      { d with mbx := { d.mbx with opens := n } }.setMbox fn
        { m' with zero := { m.zero with highest := 0, seen := [], serial := n } }) s

/-- RSP_RING_ENABLE_WRITE (R408): from 0 to 1 the tail takes the head's value. -/
def execRspRingEnableWrite (fn : Nat) (on : Bool) (s : State) : Host.Outcome State Fault Refusal :=
  running (fun d => d.onFn fn fun m =>
    if !on then d.setMbox fn { m with rsp := { m.rsp with enabled := false } }
    else if m.rsp.enabled || !ringSize 14 m.rsp.size then d
    else
      (d.setMbox fn { m with rsp := { m.rsp with enabled := true, tail := m.rsp.head }, entries := [] }).drainEvents fn) s

/-- RX_RING_ENABLE_WRITE (R408). -/
def execRxRingEnableWrite (fn : Nat) (on : Bool) (s : State) : Host.Outcome State Fault Refusal :=
  running (fun d => d.onFn fn fun m =>
    if !on then d.setMbox fn { m with rx := { m.rx with enabled := false } }
    else if m.rx.enabled || !ringSize 16 m.rx.size then d
    else d.setMbox fn { m with rx := { m.rx with enabled := true, tail := m.rx.head }, copies := [] }) s

/-- REQ_DOORBELL (R409): HST_REQ_TAIL is written, and the Collar fetches the new requests. `unknown` are those that stand first among them with an opcode of no row. -/
def execReqDoorbell (fn tail : Nat) (unknown : List (Nat × Hdr)) (s : State) : Host.Outcome State Fault Refusal :=
  running (fun d => d.onFn fn fun m =>
    let tail := tail % 2 ^ 32
    let ours := if m.req.enabled && !m.halted then unknown else []
    (d.setMbox fn { m with req := { m.req with tail := tail }, unknown := m.unknown ++ ours }).fetchRing fn) s

/-- RSP_HEAD_WRITE (R410): slots before the head are free; held events proceed. -/
def execRspHeadWrite (fn index : Nat) (s : State) : Host.Outcome State Fault Refusal :=
  running (fun d => d.onFn fn fun m =>
    let head := index % 2 ^ 32
    let left := (m.rsp.tail + 2 ^ 32 - head) % 2 ^ 32
    let kept := m.entries.filter fun e => (e.index + 2 ^ 32 - head) % 2 ^ 32 < left
    let d := d.setMbox fn { m with rsp := { m.rsp with head := head }, entries := kept }
    (d.drainEvents fn).serveUnknown fn) s

/-- RX_HEAD_WRITE (R410). -/
def execRxHeadWrite (fn index : Nat) (s : State) : Host.Outcome State Fault Refusal :=
  running (fun d => d.onFn fn fun m =>
    let head := index % 2 ^ 32
    let left := (m.rx.tail + 2 ^ 32 - head) % 2 ^ 32
    let kept := m.copies.filter fun e => (e.index + 2 ^ 32 - head) % 2 ^ 32 < left
    d.setMbox fn { m with rx := { m.rx with head := head }, copies := kept }) s

/-- Whether the oldest entry that a ring has not reported has waited its time (R424). -/
def RingIrq.late (q : RingIrq) (now : Nat) : Bool := q.waiting != 0 && decide (q.oldest + q.timeUs * cyclesPerUs ≤ now)

/-- IRQ_COALESCE_TIMEOUT (R424): ring 0 is the response ring, 1 the receive ring. -/
def execIrqCoalesceTimeout (fn ring : Nat) (s : State) : Host.Outcome State Fault Refusal :=
  running (fun d =>
    let m := d.mbox fn
    if ring = 0 && m.irqRsp.late d.now then
      (d.setMbox fn { m with irqRsp := { m.irqRsp with waiting := 0, oldest := d.now } }).irqBit fn 0 m.irqRsp.vector true
    else if ring = 1 && m.irqRx.late d.now then
      (d.setMbox fn { m with irqRx := { m.irqRx with waiting := 0, oldest := d.now } }).irqBit fn 1 m.irqRx.vector true
    else d) s

/-! ### The boot mailbox and the heartbeat (R426, R430, R431) -/

/-- The bytes of the request that stands in the boot mailbox: its header's and those of its body. -/
def Mailbox.bootBytes (m : Mailbox) : Nat := 32 + Mem.read m.boot 2 % 2 ^ 32

/-- BOOT_GO (R426): ignored while boot_done is set or a request waits, and for a request of more than 256 bytes. -/
def execBootGo (fn : Nat) (s : State) : Host.Outcome State Fault Refusal :=
  running (fun d =>
    let m := d.mbox fn
    if 2 ≤ fn || m.bootDone || m.bootWaiting || 256 < m.bootBytes then d else d.setMbox fn { m with bootWaiting := true }) s

/-- BOOT_DONE_CLEAR (R426). -/
def execBootDoneClear (fn : Nat) (s : State) : Host.Outcome State Fault Refusal :=
  running (fun d => d.onFn fn fun m => d.setMbox fn { m with bootDone := false }) s

/-- HEARTBEAT_KICK. -/
def execHeartbeatKick (fn : Nat) (s : State) : Host.Outcome State Fault Refusal :=
  running (fun d => d.onFn fn fun m => d.setMbox fn { m with hbSince := d.now }) s

/-- HEARTBEAT_EXPIRY (R430): lost_cause 4. -/
def execHeartbeatExpiry (fn : Nat) (s : State) : Host.Outcome State Fault Refusal :=
  running (fun d => d.onFn fn fun m =>
    if m.hbTimeout != 0 && !m.hostLost && m.hbSince + m.hbTimeout * cyclesPerMs ≤ d.now then d.loseFunction fn 4
    else d) s

/-- HOST_LOST_CLEAR (R431). -/
def execHostLostClear (fn : Nat) (s : State) : Host.Outcome State Fault Refusal :=
  running (fun d => d.onFn fn fun m => d.setMbox fn { m with hostLost := false }) s

/-! ### Core failover (R427 to R429) -/

/-- The physical core that serves logical core `k`. -/
def Dev.coreOf (d : Dev) (k : Nat) : Nat := d.mbx.serves.get k k

/-- WATCHDOG_EXPIRY (R427): the core has failed, and the logical cores it served are absent; the service record is
written (R491). -/
def execWatchdogExpiry (core : Nat) (s : State) : Host.Outcome State Fault Refusal :=
  running (fun d =>
    if 5 ≤ core || d.outOfService (16 + core) then d
    else
      let gone := (List.range 4).filter fun k => d.coreOf k = core && !d.mbx.absent.contains k
      let old := d.boot.units.get { state := .inService, lastTest := 0 } (16 + core)
      { d with
        mbx := { d.mbx with
          spare := if d.mbx.spare == some core then none else d.mbx.spare
          absent := d.mbx.absent ++ gone }
        boot := { d.boot with units := d.boot.units.set (16 + core) { old with state := .failed } } }.writeService) s

/-- The physical core that takes logical core `k` without a spare: that of the next logical core that runs. -/
def Dev.neighbour (d : Dev) (k : Nat) : Option Nat :=
  (([1, 2, 3].map fun i => (k + i) % 4).find? fun j => !d.mbx.absent.contains j).map d.coreOf

/-- R428: what the taking core does: final statuses are written, held events and rings go on. -/
def Dev.resumeCore (d : Dev) (k : Nat) : Dev :=
  let mine := d.mbx.effects.filter fun e => e.1.core = k
  let d := { d with mbx := { d.mbx with effects := d.mbx.effects.filter fun e => e.1.core != k } }
  let d : Dev := mine.foldl (fun d e => d.finishNow e.1 e.2.1 e.2.2.1 e.2.2.2) d
  (allFns.filter fun f => f % 4 = k).foldl (fun d f => (d.drainEvents f).fetchRing f) d

/-- CORE_TAKEOVER (R427 to R429): CORE_FAILOVER carries whether no spare remains. -/
def execCoreTakeover (s : State) : Host.Outcome State Fault Refusal :=
  running (fun d =>
    match d.mbx.absent with
    | [] => d
    | k :: ks =>
      let taker := match d.mbx.spare with
        | some p => some p
        | none => d.neighbour k
      match taker with
      | none => d
      | some p =>
        let noSpare := d.mbx.spare.isNone
        let d := { d with mbx := { d.mbx with serves := d.mbx.serves.set k p, spare := none, absent := ks } }
        (d.resumeCore k).raise 0x1103 ownerMaint [b2n noSpare]) s

/-! ### Sessions (R411 to R413) -/

/-- SESSION_HELLO (R411): a new hello replaces the one before. -/
def execSessionHello (h : Hdr) (hostNonce : Nat) (s : State) : Host.Outcome State Fault Refusal :=
  runMessage { code := 0x1101, lenOk := exactly 32, maxBody := 320, open0 := true, changes := false } h (fun who d =>
    checked [(who.session != 0, .badState)] d fun d =>
      drawing who d fun d =>
        let x := d.draw
        let y := x.2.draw
        let d := y.2
        let eph := Config.freeDraw x.1
        let nonce := Config.freeDraw y.1 % 2 ^ 256
        let hello : Hello := { hostNonce := hostNonce, draw := eph, since := d.now }
        (.done .ok 320 [Config.idkPublic, eph, nonce, Config.idkSignature [hostNonce, nonce, eph, who.fn]],
         d.setMbox who.fn { d.mbox who.fn with hello := some hello })) s

/-- HELLO_EXPIRY (R411): 10 s after its response. -/
def execHelloExpiry (fn : Nat) (s : State) : Host.Outcome State Fault Refusal :=
  running (fun d =>
    let m := d.mbox fn
    match m.hello with
    | some x => if x.since + 10 * cyclesPerS ≤ d.now then d.setMbox fn { m with hello := none } else d
    | none => d) s

/-- Whether the Hem has network time that may bound a token (R401). -/
def Dev.timeHeld (d : Dev) : Bool := d.hem.mode == .locked || d.hem.mode == .holdover

/-- R401: whether a consent token opens a maintenance session for the key whose hash is `signer`. -/
def Dev.tokenOk (d : Dev) (t : Sys2Proof.Token) (signer : Nat) : Bool :=
  t.version = 1 && t.scope.testBit 0 && t.deviceOk && t.sigOk && t.subject = signer &&
    (t.flags.testBit 0 || (d.timeHeld && decide (d.stamp.sec ≤ t.notAfter)))

/-- The hash of the key that Table 17-1 asks of a role; a maintenance key is the token's subject. -/
def Dev.roleKey (d : Dev) (r : SessionOpenRec) : Option Nat :=
  match r.role with
  | 0 => d.ten.ownerKey.map Config.digest
  | 1 => (d.ten.tenantKeys.get? r.tenancy).map Config.digest
  | _ => d.ten.ownerKey.map fun _ => r.token.subject

/-- R412 step 1: whether role and function disagree with Table 17-1. -/
def Dev.wrongPlace (d : Dev) (who : Sender) (r : SessionOpenRec) : Bool :=
  match r.role with
  | 0 => who.fn != 0
  | 1 => who.fn < 2 || d.fnTenancy who.fn != some r.tenancy || who.stale (d.unit 14 (who.fn - 2)).epoch
  | 2 => who.fn != 1
  | _ => false

/-- The unexpired hello of a function. -/
def Dev.liveHello (d : Dev) (f : Nat) : Option Hello :=
  (d.mbox f).hello.filter fun x => decide (d.now < x.since + 10 * cyclesPerS)

/-- R412. -/
def sessionOpenChecks (who : Sender) (d : Dev) (r : SessionOpenRec) : List (Bool × Status) :=
  let key := d.roleKey r
  let sealedSessions := (List.range 4).filter fun k => ((d.mbox who.fn).sealed.get? (k + 1)).isSome
  [(d.wrongPlace who r, .notPermitted),
   (2 < r.role || (r.role = 1 && (r.tenancy = 0 || 15 < r.tenancy)) || (r.role != 1 && r.tenancy != 0) ||
      (r.role = 2 && (r.token.maxDurationS = 0 || 604800 < r.token.maxDurationS)), .badField),
   ((d.liveHello who.fn).isNone || key.isNone || (r.role = 1 && d.ten.debugUnlocked), .badState),
   (!r.sigOk || key != some r.signer || (r.role = 2 && !d.tokenOk r.token r.signer), .badSeal),
   (sealedSessions.length = 4, .noSpace)]

/-- R412 step 4: whether the token is what fails. -/
def tokenFails (who : Sender) (d : Dev) (r : SessionOpenRec) : Bool :=
  r.role = 2 && firstFail (sessionOpenChecks who d r) == some .badSeal && !d.tokenOk r.token r.signer

/-- The lowest sealed session number that is free. -/
def Mailbox.freeSession (m : Mailbox) : Nat := ((List.range 4).find? fun k => (m.sealed.get? (k + 1)).isNone).getD 0 + 1

/-- A sealed session as it opens. -/
def newSession (d : Dev) (r : SessionOpenRec) (x : Hello) : Session :=
  { role := if r.role = 0 then .owner else if r.role = 1 then .tenant else .maint,
    tenancy := r.tenancy, highest := 0, seen := [], rspSeq := 0, mask := 0xFFFFFFFF, held := [], lost := 0,
    key := Config.sessionKey x.draw r.hostEph, openedAt := d.now, maxDuration := r.token.maxDurationS,
    timeFree := r.token.flags.testBit 0, notAfter := r.token.notAfter, serial := d.mbx.opens + 1 }

/-- SESSION_OPEN (R411, R412): the hello is consumed, and a rejected token told to the owner. -/
def execSessionOpen (h : Hdr) (r : SessionOpenRec) (s : State) : Host.Outcome State Fault Refusal :=
  runMessage { code := 0x1102, lenOk := exactly 428, maxBody := 4, open0 := true, changes := false } h (fun who d =>
    if who.session != 0 then (.say .badState, d)
    else
      let m := d.mbox who.fn
      let d' := d.setMbox who.fn { m with hello := none }
      match firstFail (sessionOpenChecks who d r), d.liveHello who.fn with
      | none, some x =>
        let k := m.freeSession
        let d' := { d' with mbx := { d'.mbx with opens := d'.mbx.opens + 1 } }
        (.opened k 4 [if r.role = 2 then r.token.maxDurationS else 0], d'.setSession who.fn k (newSession d r x))
      | some st, _ => (.say st, if tokenFails who d r then d'.raise 0x1006 [.owner] [] else d')
      | none, none => (.say .badState, d')) s

/-- SESSION_CLOSE (R413): its response, and SESSION_CLOSED as the last entry. Session 0 is not closed so. -/
def execSessionClose (h : Hdr) (s : State) : Host.Outcome State Fault Refusal :=
  runMessage { code := 0x1103, lenOk := exactly 0, maxBody := 0, changes := false } h (fun who d =>
    checked [(who.session = 0, .badState)] d fun d =>
      (.answered, (d.finish who.tok .ok 0 []).closeSession who.fn who.session 0)) s

/-- EVENT_MASK_SET (R422). -/
def execEventMaskSet (h : Hdr) (mask : Nat) (s : State) : Host.Outcome State Fault Refusal :=
  runMessage { code := 0x1104, lenOk := exactly 8, maxBody := 0, changes := false } h (fun who d =>
    match d.session who.fn who.session with
    | some x => (.say .ok, d.setSession who.fn who.session { x with mask := mask % 2 ^ 32 })
    | none => (.say .badState, d)) s

/-- Table 17-9 for function `f`. -/
def mbxRow (d : Dev) (f : Nat) : List Nat :=
  ([.requests, .responses, .events, .badSeal, .badSequence, .ringErrors, .eventsLost, .completionsDiscarded, .rxCopies,
    .rxRingDrop] : List Ctr).map fun c => d.ctr c f 0

/-- MBX_STATS_GET (R434). -/
def execMbxStatsGet (h : Hdr) (s : State) : Host.Outcome State Fault Refusal :=
  runMessage { code := 0x1105, lenOk := exactly 0, maxBody := 2048, changes := false } h (fun who d =>
    let fs := if who.role == .tenant then allFns.filter fun f => 2 ≤ f && d.fnTenancy f == some who.tenancy else allFns
    (.list (fs.flatMap fun f => f :: mbxRow d f), d)) s

end Sys2Proof.Machine
end

