-- ==== Sys2Proof/Machine/BootOps.lean ====
section
/-! DEFINITION. What the endpoint and start-up share (18, 20): SYS_STATE.stage, images from host memory, and the
Sleeves, cores and banks in service. -/

namespace Sys2Proof.Machine

/-! ### Stages (R444, R476) -/

/-- SYS_STATE.stage takes a value; bit 5 of HST_IRQ_STATUS of every function is set where it changes. From stage 3,
0x0E and 0x0F on, configuration requests to PF0 and PF1 are answered (R455, R476, R479). -/
def Dev.setStage (d : Dev) (n : Nat) : Dev :=
  if d.boot.stage = n then d
  else
    let d := { d with boot := { d.boot with stage := n },
                      host := { d.host with configOpen := d.host.configOpen || n = 3 || n = 0x0E || n = 0x0F } }
    (allFns.filter d.fnExists).foldl (fun d f => d.irqMisc f 5) d

/-! ### Images (R398, R478, R493) -/

/-- Whether the Clasp accepts an image of a type (R398). -/
def Dev.imageOk (d : Dev) (type : Nat) (i : FwImage) : Bool :=
  i.accepted && i.imageType = type && decide (d.ten.rollback ≤ i.securityVersion)

/-- The result of Table 20-5 for the image of an area, with the digest that the directory names for it, if one does. -/
def Dev.tryArea (d : Dev) (area : Nat) (digest : Option Nat) : Nat :=
  match d.island.images.get? area with
  | none => 2
  | some i =>
    if !i.accepted || i.imageType != 1 then 2
    else if i.securityVersion < d.ten.rollback then 3
    else if digest.any (· != i.digest) then 4
    else 1

/-- The boot directory in force: the valid copy with the higher sequence (R478). -/
def IslandState.directory (i : IslandState) : Option BootDir :=
  if i.dir0.valid && (!i.dir1.valid || decide (i.dir1.sequence ≤ i.dir0.sequence)) then some i.dir0
  else if i.dir1.valid then some i.dir1
  else none

/-- The firmware area that the directory names active; A without a valid copy. -/
def IslandState.activeArea (i : IslandState) : Nat := (i.directory.map (·.active)).getD 0 % 2

/-- The image type that a FW_STORE target takes (R398, R493). -/
def storeType : Nat → Nat
  | 0 => 1
  | 1 => 2
  | _ => 3

/-- The flash area that a FW_STORE target names (R493). -/
def Dev.storeArea (d : Dev) (target : Nat) : Nat :=
  match target with
  | 0 => 1 - d.island.activeArea
  | 1 => 2
  | _ => 3

/-- FW_STORE once its image has come: R398, and the wait for the first erase (R493). -/
def Dev.storeArrived (d : Dev) (tok : Token) (r : FwStoreRec) : Dev :=
  if !d.imageOk (storeType r.target) r.image then d.finish tok .badSeal 0 []
  else
    let w : FwStoring := { target := r.target, area := d.storeArea r.target, image := r.image, ucode := r.ucode }
    { d with boot := { d.boot with storing := some w } }.flashWait .sectorErase (.image (some tok))

/-- BOOT_IMAGE_LOAD once its image has come (R479): an accepted image is started, a rejected one leaves ROM in
recovery. -/
def Dev.bootArrived (d : Dev) (tok : Token) (i : FwImage) : Dev :=
  if d.boot.stage != 0x0E then d
  else if d.imageOk 1 i then
    let d := d.finish tok .ok 0 []
    { d with boot := { d.boot with running := some i, runningArea := none, bank := 0 } }.setStage 1
  else d.finish tok .badSeal 0 []

/-! ### Serviced units (Table 20-7, R484) -/

/-- The entry of a serviced unit. -/
def Dev.svcUnit (d : Dev) (u : Nat) : SvcUnit := d.boot.units.get { state := .inService, lastTest := 0 } u

/-- A serviced unit's state replaced. -/
def Dev.setSvc (d : Dev) (u : Nat) (st : SvcState) : Dev :=
  { d with boot := { d.boot with units := d.boot.units.set u { d.svcUnit u with state := st } } }

/-- Whether a Sleeve serves a Cuff. -/
def Dev.serving (d : Dev) (s : Nat) : Bool := (List.range 24).any fun c => (d.cuff c).sleeve = s

/-- Whether a Sleeve is SPARE: enabled, in no other state, and without a Cuff. -/
def Dev.isSpare (d : Dev) (s : Nat) : Bool := (d.sleeve s).enabled && !d.outOfService s && !d.serving s

end Sys2Proof.Machine
end

