-- ==== Sys2Proof/Machine/Endpoint.lean ====
section
/-! DEFINITION. The host endpoint (18): registers, the link, resets and losses of functions, and reads of host
memory. -/

namespace Sys2Proof.Machine

/-! ### Registers (R13 to R15, R439, R444) -/

/-- A ring's address bits [63:12] written; ignored while the ring is enabled (R408). -/
def Ring.setBase (r : Ring) (v : Nat) : Ring := if r.enabled then r else { r with base := v % 2 ^ 64 / 4096 * 4096 }

/-- A ring's size written; ignored while the ring is enabled (R408). -/
def Ring.setSize (r : Ring) (v : Nat) : Ring := if r.enabled then r else { r with size := v % 16 }

/-- HST_IRQ_RSP or HST_IRQ_RX written: a vector at or above the table size and a time above 1,000 µs are reserved
encodings and leave their field unchanged (R15, R444). -/
def RingIrq.write (q : RingIrq) (vectors v : Nat) : RingIrq :=
  let vec := bits v 0 8
  let us := bits v 32 10
  { q with vector := if vec < vectors then vec else q.vector, countM1 := bits v 16 8,
           timeUs := if us ≤ 1000 then us else q.timeUs }

/-- HST_HB_TIMEOUT written. -/
def Mailbox.setHb (m : Mailbox) (v now : Nat) : Mailbox :=
  let n := v % 2 ^ 16
  if n ≤ 60000 then { m with hbTimeout := n, hbSince := now } else m

/-- HST_IRQ_MISC written. -/
def EndFn.setMisc (e : EndFn) (vectors v : Nat) : EndFn :=
  let vec := bits v 0 8
  { e with miscVector := if vec < vectors then vec else e.miscVector, miscEnable := v.testBit 8 }

/-- The mask bit of an MSI-X vector written; a vector that is unmasked sends the interrupt it has pending. -/
def Dev.maskVector (d : Dev) (f v : Nat) (on : Bool) : Dev :=
  let e := d.fend f
  if vectorsOf f ≤ v then d
  else if on then d.setFend f { e with msixMasked := v :: e.msixMasked.filter (· != v) }
  else
    let sent := e.msixPending.contains v
    let d := d.setFend f { e with msixMasked := e.msixMasked.filter (· != v),
                                  msixPending := e.msixPending.filter (· != v) }
    if sent then d.msix f v else d

/-- The timing word of Table 14-3 written: the encoding 3 of rate is reserved and leaves rate unchanged; bits [6:0] read
zero. -/
def timingWord (old v : Nat) : Nat :=
  let rate := if bits v 126 2 = 3 then bits old 126 2 else bits v 126 2
  rate * 2 ^ 126 + bits v 7 119 * 128

/-- A register of a mailbox written. -/
def Dev.regMbox (d : Dev) (f : Nat) (act : Mailbox → Mailbox) : Dev := d.onFn f fun m => d.setMbox f (act m)

/-- A register of the interrupt status block written. -/
def Dev.regFend (d : Dev) (f : Nat) (act : EndFn → EndFn) : Dev := d.onFn f fun _ => d.setFend f (act (d.fend f))

/-- One register field written by its access code; read-only and reserved fields ignore the write (R13, R14). -/
def Dev.writeReg (d : Dev) (f v : Nat) : Reg → Dev
  | .reqBase => d.regMbox f fun m => { m with req := m.req.setBase v }
  | .reqSize => d.regMbox f fun m => { m with req := m.req.setSize v }
  | .rspBase => d.regMbox f fun m => { m with rsp := m.rsp.setBase v }
  | .rspSize => d.regMbox f fun m => { m with rsp := m.rsp.setSize v }
  | .rxBase => d.regMbox f fun m => { m with rx := m.rx.setBase v }
  | .rxSize => d.regMbox f fun m => { m with rx := m.rx.setSize v }
  | .irqRsp => d.regMbox f fun m => { m with irqRsp := m.irqRsp.write (vectorsOf f) v }
  | .irqRx => d.regMbox f fun m => { m with irqRx := m.irqRx.write (vectorsOf f) v }
  | .hbTimeout => d.regMbox f fun m => m.setHb v d.now
  | .bootMbx w => d.regMbox f fun m => if f < 2 && w < 32 then { m with boot := Mem.write m.boot w (v % 2 ^ 64) } else m
  | .irqMisc => d.regFend f fun e => e.setMisc (vectorsOf f) v
  | .irqMask => d.regFend f fun e => { e with irqMask := v % 64 }
  | .reqErrorClear => d.regMbox f fun m => if v.testBit 0 then { m with reqError := false } else m
  | .msixMask n => if d.fnExists f then d.maskVector f n (v.testBit 0) else d
  | .readOnly => d
  | .reserved => d
  | .drcTiming p set => if 6 ≤ p then d else d.drcWrite p set fun s => { s with timing := timingWord s.timing v }
  | .drcLane p lane set =>
    if 6 ≤ p || 9 ≤ lane then d
    else d.drcWrite p set fun s => { s with lanes := s.lanes.set lane (bits v 12 52 * 2 ^ 12) }
  | .drcCa p set => if 6 ≤ p then d else d.drcWrite p set fun s => { s with ca := bits v 34 30 * 2 ^ 34 }
  | .drcMonitor p lane =>
    if 6 ≤ p || 8 ≤ lane then d
    else d.setChan p { d.chan p with monitors := (d.chan p).monitors.set lane v }

/-- REGISTER_WRITE (R13 to R15, R443). -/
def execRegisterWrite (fn : Nat) (reg : Reg) (value : Nat) (s : State) : Host.Outcome State Fault Refusal :=
  running (fun d => d.writeReg fn value reg) s

/-- IRQ_STATUS_CLEAR (R444): the bits written as 1 clear. -/
def execIrqStatusClear (fn mask : Nat) (s : State) : Host.Outcome State Fault Refusal :=
  running (fun d => d.regFend fn fun e => { e with irqStatus := maskOf ((List.range 6).filter fun i => e.irqStatus.testBit i && !mask.testBit i) }) s

/-- BAR_MISALIGNED_ACCESS (R439): writes are ignored and reads return zero; either counts. -/
def execBarMisalignedAccess (fn : Nat) (_write : Bool) (s : State) : Host.Outcome State Fault Refusal :=
  running (fun d => d.onFn fn fun _ => d.inc .misalignedAccess fn 0) s

/-! ### The link and the functions (R430, R436 to R438, R449 to R453) -/

/-- The functions that exist, PF0 first. -/
def Dev.liveFns (d : Dev) : List Nat := allFns.filter d.fnExists

/-- Functions lost with a cause, and answering configuration requests with CRS from now on where `crs` (R451). -/
def Dev.loseAll (d : Dev) (fs : List Nat) (cause : Nat) (crs : Bool) : Dev :=
  fs.foldl (fun d f =>
    let d := d.loseFunction f cause
    if crs then d.setFend f { d.fend f with crs := true } else d) d

/-- VF Enable cleared: every virtual function is lost as by a function-level reset (R450, R451). -/
def Dev.clearVfs (d : Dev) : Dev :=
  let d := d.loseAll (d.liveFns.filter (2 ≤ ·)) 3 true
  { d with host := { d.host with vfEnable := false, numVfs := 0 } }

/-- PCIE_LINK_UP (R436, R456): the link enters L0. -/
def execPcieLinkUp (speed width : Nat) (s : State) : Host.Outcome State Fault Refusal :=
  running (fun d =>
    if speed = 0 || 5 < speed || !([1, 2, 4, 8].contains width) then d
    else
      let h := d.host
      let d := if h.linkUp then d.inc .linkRetrains 0 0 else d
      let d := { d with host := { d.host with linkUp := true, speed := speed, width := width } }
      if h.linkUp && h.speed = speed && h.width = width then d else d.raise 0x1201 ownerMaint [speed, width]) s

/-- PCIE_LINK_DOWN (R430): every function is lost. -/
def execPcieLinkDown (s : State) : Host.Outcome State Fault Refusal :=
  running (fun d =>
    if !d.host.linkUp then d
    else
      let d := { d with host := { d.host with linkUp := false } }.inc .linkDowns 0 0
      (d.raise 0x1201 ownerMaint [d.host.speed, d.host.width]).loseAll d.liveFns 1 false) s

/-- HOT_RESET (R451, R453). -/
def execHotReset (s : State) : Host.Outcome State Fault Refusal := running (fun d => d.loseAll d.liveFns 5 true) s

/-- FUNCTION_LEVEL_RESET (R450): that of PF0 clears VF Enable too. -/
def execFunctionLevelReset (fn : Nat) (s : State) : Host.Outcome State Fault Refusal :=
  running (fun d => d.onFn fn fun _ =>
    let d := d.loseAll [fn] 3 true
    if fn = 0 then d.clearVfs else d) s

/-- BUS_MASTER_CLEAR (R449). -/
def execBusMasterClear (fn : Nat) (s : State) : Host.Outcome State Fault Refusal :=
  running (fun d => d.onFn fn fun _ =>
    if (d.fend fn).crs || !(d.fend fn).busMaster then d
    else (d.setFend fn { d.fend fn with busMaster := false }).loseFunction fn 2) s

/-- BUS_MASTER_SET (R449): accepted into the Command register; requests stay stopped while teardown is pending or
host_lost is set. -/
def execBusMasterSet (fn : Nat) (s : State) : Host.Outcome State Fault Refusal :=
  running (fun d => d.onFn fn fun _ =>
    if (d.fend fn).crs then d
    else
      let d := d.setFend fn { d.fend fn with busMaster := true }
      (d.drainEvents fn).fetchRing fn) s

/-- D3HOT_ENTRY (R452): as bus-master enable cleared, with lost_cause 6. -/
def execD3hotEntry (fn : Nat) (s : State) : Host.Outcome State Fault Refusal :=
  running (fun d => d.onFn fn fun _ =>
    if (d.fend fn).crs || (d.fend fn).d3hot then d
    else (d.setFend fn { d.fend fn with d3hot := true }).loseFunction fn 6) s

/-- D0_RETURN (R452): nothing is reset. -/
def execD0Return (fn : Nat) (s : State) : Host.Outcome State Fault Refusal :=
  running (fun d => d.onFn fn fun _ =>
    if (d.fend fn).crs then d else d.setFend fn { d.fend fn with d3hot := false }) s

/-- Whether function `f` answers a configuration request without CRS (R451, R455). -/
def Dev.answersConfig (d : Dev) (f : Nat) : Bool := d.fnExists f && d.host.configOpen && !(d.fend f).crs

/-- VF_ENABLE_SET (R438). -/
def execVfEnableSet (numVfs : Nat) (s : State) : Host.Outcome State Fault Refusal :=
  running (fun d =>
    if !d.answersConfig 0 || d.host.vfEnable || 30 < numVfs then d
    else { d with host := { d.host with vfEnable := true, numVfs := numVfs } }) s

/-- VF_ENABLE_CLEAR (R451). -/
def execVfEnableClear (s : State) : Host.Outcome State Fault Refusal :=
  running (fun d => if !d.answersConfig 0 || !d.host.vfEnable then d else d.clearVfs) s

/-- CONFIG_REQUEST (R445, R451, R455): answered normally or with CRS; a write sets the Completion Timeout Value, whose
reserved encodings leave it unchanged. -/
def execConfigRequest (fn : Nat) (write : Bool) (ctoValue : Nat) (s : State) : Host.Outcome State Fault Refusal :=
  running (fun d => d.onFn fn fun _ =>
    if !d.answersConfig fn then { d with host := { d.host with answer := .retry } }
    else
      let d := { d with host := { d.host with answer := .normal } }
      if write && ctoKnown ctoValue then d.setFend fn { d.fend fn with ctoValue := ctoValue } else d) s

/-! ### Reads of host memory (R442, R445 to R448) -/

/-- A read taken off the list of outstanding ones; a read that waits takes the tag if it is free. -/
def Dev.dropRead (d : Dev) (r : DmaRead) : Dev :=
  { d with host := { d.host with reads := d.host.reads.erase r } }

/-- What a read fetched is delivered to its unit (R442). -/
def Dev.deliverRead (d : Dev) (r : DmaRead) : Dev :=
  match r.use with
  | .ringFetch upTo =>
    let m := d.mbox r.fn
    let n := (upTo + 2 ^ 32 - m.req.head) % 2 ^ 32
    if m.req.enabled && m.available < n && n ≤ 2 ^ m.req.size then
      (d.setMbox r.fn { m with fetched := upTo }).serveUnknown r.fn
    else d
  | .message tok (.ucodeLoad _ img) => d.loadImage tok img
  | .message tok (.fwStore x) => d.storeArrived tok x
  | .message tok (.bulkSegment x) => d.bulkArrived tok x
  | .message tok (.bootLoad i) => d.bootArrived tok i
  | .message _ (.learnQuota _) => d
  | .message _ (.pool _) => d
  | .message _ (.recStore _) => d
  | .message _ (.portTenancy _) => d
  | .message _ (.enrol _) => d

/-- The first completed read whose unit has no earlier read outstanding. -/
def firstReady : List Nat → List DmaRead → Option DmaRead
  | _, [] => none
  | blocked, r :: rs =>
    if r.discard then firstReady blocked rs
    else if r.arrived.isSome && !blocked.contains r.unit then some r
    else firstReady (r.unit :: blocked) rs

/-- Completed reads delivered in the order of issue of each unit (R442). -/
def Dev.deliverReads (d : Dev) : Dev :=
  (List.range d.host.reads.length).foldl (fun d _ =>
    match firstReady [] d.host.reads with
    | some r => (d.dropRead r).deliverRead r
    | none => d) d

/-- A read's operation fails (R446, R448): a message with BUS_MASTER_OFF; a ring fetch is made again after 1 ms, or at
the next doorbell. -/
def Dev.readFails (d : Dev) (r : DmaRead) : Dev :=
  if r.discard then d
  else
    match r.use with
    | .ringFetch _ => d.setFend r.fn { d.fend r.fn with refetchAt := some (d.now + cyclesPerMs) }
    | .message _ _ => d.failRead r

/-- Whom an event of function `f` goes to (Table 18-8). -/
def Dev.fnAud (d : Dev) (f : Nat) : List Aud :=
  ownerMaint ++ match d.fnTenancy f with
    | some t => if t = 0 then [] else [.tenancy t]
    | none => []

/-- A timeout of R445 and R446: the operation fails and the tag enters quarantine for twice the timeout. -/
def Dev.timeOut (d : Dev) (r : DmaRead) : Dev :=
  let d := (d.dropRead r).inc .completionTimeouts r.fn 0
  let d := d.setFend r.fn { d.fend r.fn with aerTimeout := true }
  let q := (r.tag, r.fn, d.now + 2 * r.timeout)
  let d := { d with host := { d.host with quarantine := d.host.quarantine ++ [q] } }
  let d := d.raiseFirst 0x1202 r.fn 0 (d.fnAud r.fn) [r.fn, d.ctr .completionTimeouts r.fn 0]
  (d.readFails r).deliverReads

/-- The outstanding read with a tag. -/
def Dev.readOf (d : Dev) (tag : Nat) : Option DmaRead := d.host.reads.find? fun r => r.tag = tag && r.arrived.isNone

/-- A completion that no read waits for (R447): late where its tag is in quarantine. -/
def Dev.strayCompletion (d : Dev) (tag : Nat) : Dev :=
  match d.host.quarantine.find? fun q => q.1 = tag with
  | some q =>
    ((d.setFend q.2.1 { d.fend q.2.1 with aerUnexpected := true }).inc .lateCompletions q.2.1 0).inc
      .correctableErrors 0 0
  | none => d.inc .correctableErrors 0 0

/-- DMA_COMPLETION_ARRIVAL (R442, R447, R448): a timeout that is due takes effect first. -/
def execDmaCompletionArrival (tag : Nat) (status : DmaStatus) (s : State) : Host.Outcome State Fault Refusal :=
  running (fun d =>
    match d.readOf tag with
    | none => d.strayCompletion tag
    | some r =>
      if r.issued + r.timeout ≤ d.now then (d.timeOut r).strayCompletion tag
      else if r.discard then ((d.dropRead r).inc .masterOffDiscards r.fn 0).issueWaiting
      else
        match status with
        | .ok =>
          let put (x : DmaRead) : DmaRead := if x = r then { x with arrived := some .ok } else x
          { d with host := { d.host with reads := d.host.reads.map put } }.deliverReads.issueWaiting
        | .bad => ((((d.dropRead r).inc .badCompletions r.fn 0).readFails r).deliverReads).issueWaiting) s

/-- COMPLETION_TIMEOUT (R445). -/
def execCompletionTimeout (tag : Nat) (s : State) : Host.Outcome State Fault Refusal :=
  running (fun d =>
    match d.readOf tag with
    | some r => if r.issued + r.timeout ≤ d.now then d.timeOut r else d
    | none => d) s

/-- TAG_QUARANTINE_END (R446). -/
def execTagQuarantineEnd (tag : Nat) (s : State) : Host.Outcome State Fault Refusal :=
  running (fun d =>
    let past (q : Nat × Nat × Nat) : Bool := q.1 = tag && decide (q.2.2 ≤ d.now)
    { d with host := { d.host with quarantine := d.host.quarantine.filter fun q => !past q } }.issueWaiting) s

/-- REQ_RING_FETCH_RETRY (R446). -/
def execReqRingFetchRetry (fn : Nat) (s : State) : Host.Outcome State Fault Refusal :=
  running (fun d =>
    match (d.fend fn).refetchAt with
    | some t => if t ≤ d.now then (d.setFend fn { d.fend fn with refetchAt := none }).fetchRing fn else d
    | none => d) s

/-! ### The end of a teardown (R450, R451, Table 18-6) -/

/-- Configuration space, BAR0 blocks and MSI-X table at their reset values, the sticky bits of AER kept. -/
def EndFn.restored (e : EndFn) : EndFn :=
  { EndFn.reset with aerTimeout := e.aerTimeout, aerUnexpected := e.aerUnexpected }

/-- A function restored after a reset or a link that went down; PF0's holds VF Enable. -/
def Dev.restoreFn (d : Dev) (f : Nat) : Dev :=
  let d := (d.setFend f (d.fend f).restored).setMbox f .reset
  if f = 0 then { d with host := { d.host with vfEnable := false, numVfs := 0 } } else d

/-- TEARDOWN_FINISH (R450). -/
def execTeardownFinish (fn : Nat) (s : State) : Host.Outcome State Fault Refusal :=
  running (fun d =>
    let e := d.fend fn
    if 32 ≤ fn || !e.teardown then d
    else
      let d := (d.setFend fn { e with teardown := false, crs := false }).inc .teardowns fn 0
      let d := if e.lostCause = 1 || e.lostCause = 3 || e.lostCause = 5 then d.restoreFn fn else d.irqMisc fn 4
      (d.raise 0x1203 (d.fnAud fn) [fn, e.lostCause]).fetchRing fn) s

/-! ### HOST_STATUS_GET (R456) -/

/-- SYS_STATE as a register value (Table 18-4). -/
def Dev.sysState (d : Dev) : Nat :=
  let cores := 4 - d.mbx.absent.length
  d.boot.stage % 256 + 2 ^ 8 * b2n d.ten.debugUnlocked + 2 ^ 9 * (if d.boot.stage = 2 || d.boot.stage = 3 then cores else 0)

/-- SYS_FN_STATUS of function `f` (Table 18-4). -/
def Dev.fnStatus (d : Dev) (f : Nat) : Nat :=
  let e := d.fend f
  b2n e.teardown + 2 * e.lostCause + 2 ^ 16 * (d.host.quarantine.filter fun q => q.2.1 = f).length

/-- Table 18-7 for function `f`. -/
def hostRow (d : Dev) (f : Nat) : List Nat :=
  d.fnStatus f :: ([.dmaReads, .dmaWrites, .completionTimeouts, .lateCompletions, .badCompletions, .masterOffDiscards,
    .misalignedAccess, .teardowns] : List Ctr).map fun c => d.ctr c f 0

/-- HOST_STATUS_GET (R456). The ASPM state is the link's own, to which the spec gives no value. -/
def execHostStatusGet (h : Hdr) (s : State) : Host.Outcome State Fault Refusal :=
  runMessage { code := 0x1201, lenOk := exactly 0, maxBody := 2048, changes := false } h (fun who d =>
    let x := d.draw
    let d := x.2
    let link := [d.host.speed, d.host.width, b2n (Config.freeBit x.1)]
    let fs := if who.role == .tenant then allFns.filter fun f => 2 ≤ f && d.fnTenancy f == some who.tenancy else allFns
    let dev := if who.role == .tenant then []
      else d.sysState :: ([.linkDowns, .linkRetrains, .correctableErrors] : List Ctr).map fun c => d.ctr c 0 0
    (.list (link ++ dev ++ fs.flatMap fun f => f :: hostRow d f), d)) s

end Sys2Proof.Machine
end

