-- ==== Sys2Proof/Machine/Startup.lean ====
section
/-! DEFINITION. Start-up, service of spared units, firmware change and ejection (20). -/

namespace Sys2Proof.Machine

/-! ### Power and fundamental reset (R16, R473 to R476, R510) -/

/-- The device after a fundamental reset: what the island, flash, fuses and board pins hold stays; the planning flags
are on (R472); cycles are counted from now. A post-mortem write that waits is kept, and an operation in progress goes
on, for no message any more (R510). -/
def Dev.fundamental (d : Dev) (p : Power) : Dev :=
  let again (r : FlashReq) : FlashReq := { r with since := 0, recheckAt := none }
  let w := (d.island.waiting.filter fun r => r.use == .postmortem).map again
  let c := { d.island.config with flags := d.island.config.flags ||| 3 }
  { Dev.reset with
    power := p
    rnd := d.rnd
    island := { d.island with waiting := w, config := c,
                              busy := d.island.busy.map fun r => { r with use := r.use.forget } }
    ten := { TenState.reset with rollback := d.ten.rollback, lifecycle := d.ten.lifecycle }
    boot := { BootState.reset with ejectReqLow := d.boot.ejectReqLow } }

/-- ISLAND_POWER_ON_RESET (R471, R510): the island's registers are zero and no operation waits or runs. -/
def execIslandPowerOnReset (s : State) : Host.Outcome State Fault Refusal :=
  always (fun d => { d with island := { d.island with
    config := gusConfigZero, waiting := [], busy := none, powerFail := false,
    buffer := .empty } }) s

/-- PERST_ASSERT (R475, R510): the device is held in reset; a flash operation in progress goes on. -/
def execPerstAssert (s : State) : Host.Outcome State Fault Refusal := always (fun d => d.fundamental .reset) s

/-- PERST_RELEASE (R474, R476): the fundamental reset, and steps 1 and 2 of Table 20-2; a fuse check that fails sets
stage 0x0F. -/
def execPerstRelease (fusesOk : Bool) (s : State) : Host.Outcome State Fault Refusal :=
  always (fun d =>
    if d.power != .reset then d
    else
      let d := d.fundamental .on
      if fusesOk then d else d.setStage 0x0F) s

/-- RAIL_FAULT (R475): with PERST# high the device is in an undefined state until the next fundamental reset. -/
def execRailFault (s : State) : Host.Outcome State Fault Refusal :=
  always (fun d => if d.power = .reset then d else { d with power := .undefined }) s

/-! ### ROM (R478, R479) -/

/-- ROM enters recovery (R479). -/
def Dev.recovery (d : Dev) (cause a b : Nat) : Dev :=
  { d with boot := { d.boot with romCause := cause, romResultA := a, romResultB := b } }.setStage 0x0E

/-- The image of an area is read, checked and decrypted into code bank 0 (step 4 of Table 20-2). -/
def Dev.loadArea (d : Dev) (area : Nat) (other : Option Nat) (a b : Nat) : Dev :=
  { d with boot := { d.boot with running := d.island.images.get? area, runningArea := some area, bank := 0,
                                 fallback := other.map fun r => (area, r), romResultA := a,
                                 romResultB := b } }.setStage 1

/-- The digest that a directory names for an area (Table 20-4). -/
def BootDir.digestOf (b : BootDir) (area : Nat) : Nat := if area = 0 then b.digestA else b.digestB

/-- ROM_IMAGE_SELECT (R478, R479): the active image, else the other, else recovery. -/
def execRomImageSelect (flashOk : Bool) (s : State) : Host.Outcome State Fault Refusal :=
  running (fun d =>
    if d.boot.stage != 0 then d
    else if !flashOk then d.recovery 1 0 0
    else
      let dir := d.island.directory
      let x := d.island.activeArea
      let r1 := d.tryArea x (dir.map fun b => b.digestOf x)
      if r1 = 1 then d.loadArea x none (if x = 0 then 1 else 0) (if x = 0 then 0 else 1)
      else
        let y := 1 - x
        let r2 := d.tryArea y (dir.map fun b => b.digestOf y)
        let a := if x = 0 then r1 else r2
        let b := if x = 0 then r2 else r1
        if r2 = 1 then d.loadArea y (some r1) a b else d.recovery 2 a b) s

/-- BOOT_INFO (R479, Table 20-5): ROM in recovery answers it; firmware knows no such opcode. -/
def execBootInfo (h : Hdr) (s : State) : Host.Outcome State Fault Refusal :=
  running (fun d =>
    if d.romHolds h then
      let b := d.boot
      (d.romTake h.fn).respond (romToken 0x1480 h) .ok false 16
        [b.romCause + 2 ^ 8 * b.romResultA + 2 ^ 16 * b.romResultB + 2 ^ 24 * d.ten.lifecycle +
           2 ^ 32 * (Config.serial % 2 ^ 32), Config.serial / 2 ^ 32 % 2 ^ 32 + 2 ^ 32 * d.ten.rollback]
    else (d.refuseUnknown 0x1480 h).getD d) s

/-- BOOT_IMAGE_LOAD (R479) on PF0: the image is read from host memory. -/
def execBootImageLoad (h : Hdr) (len : Nat) (img : FwImage) (s : State) : Host.Outcome State Fault Refusal :=
  running (fun d =>
    if d.romHolds h then
      let d := d.romTake h.fn
      let tok := romToken 0x1481 h
      if h.fn != 0 then d.respond tok .badOpcode false 0 []
      else if len < 512 || 1573376 < len then d.respond tok .badField false 0 []
      else if d.mayRequest 0 then d.dmaRead 0 1 (.message tok (.bootLoad img))
      else d.respond tok .busMasterOff false 0 []
    else (d.refuseUnknown 0x1481 h).getD d) s

/-! ### Firmware (R469, R472, R476, R480, R491) -/

/-- GUS_POSTMORTEM for each unread record (R469). -/
def Dev.reportSlots (d : Dev) : Dev :=
  (List.range 4).foldl (fun d k =>
    match d.island.slots.get? k with
    | some r =>
      if r.reported then d
      else
        { d with island := { d.island with slots := d.island.slots.set k { r with reported := true } } }.raise 0x1304
          ownerMaint [k, r.bootEpoch, b2n r.dip, b2n r.buffer.shutdown]
    | none => d) d

/-- The latest boot epoch of the history that is earlier than the one before the current boot and has no post-mortem
record (R469). -/
def IslandState.missing (i : IslandState) : Option Nat :=
  let es := (i.history.map (·.bootEpoch)).filter fun e =>
    decide (e < i.epoch) && !(i.slots.cells.any fun c => c.2.bootEpoch = e)
  if es.isEmpty then none else some (es.foldl max 0)

/-- Band thresholds from the newest history record (R464, R472). -/
def Dev.historyBands (d : Dev) : Dev :=
  match d.island.history.getLast? with
  | none => d
  | some r =>
    (List.range 7).foldl (fun d s =>
      let n : Int := (min (r.tcamMargin.getD s 0) 10 : Nat)
      let t := d.tcam.sleeves.get .reset s
      let t : TcamSleeve := { t with threshold1 := 95 - n, threshold2 := 105 - n }
      { d with tcam := { d.tcam with sleeves := d.tcam.sleeves.set s t } }) d

/-- The keys and values of Table 16-7 that are drawn at each start: context key, journal keys, learn salt. -/
def Dev.drawKeys (d : Dev) : Dev :=
  let x := d.draw
  let y := x.2.draw
  let d := y.2
  let d := { d with ten := { d.ten with contextKey := some (Config.freeDraw x.1 % 2 ^ 256) },
                    tables := { d.tables with salt := Config.freeDraw y.1 % 2 ^ 32 } }
  (List.range 16).foldl (fun d t =>
    let z := d.draw
    { z.2 with ten := { z.2.ten with
        journalKeys := z.2.ten.journalKeys.set t (Config.freeDraw z.1 % 2 ^ 256) } }) d

/-- FIRMWARE_START (step 5 of Table 20-2). -/
def execFirmwareStart (s : State) : Host.Outcome State Fault Refusal :=
  running (fun d =>
    if d.boot.stage != 1 || !d.ten.rngOk then d
    else
      let i := d.island
      let d : Dev := { d with
        island := { i with config := i.board.getD i.config }
        ten := { d.ten with ownerKey := i.ownerKey, tenantKeys := i.tenantKeys }
        host := { d.host with beatFrom := some d.now } }
      let d := i.service.foldl (fun d u => if u < 144 then d.setSvc u .failed else d) d.historyBands.drawKeys
      let d := match d.boot.fallback with
        | some x => d.raise 0x1405 ownerMaint [x.1, x.2]
        | none => d
      let d := d.reportSlots
      let d := match d.island.missing with
        | some e => d.raise 0x1305 ownerMaint [e]
        | none => d
      d.eraseNext.setStage 2) s

/-- Step 2 of Table 20-6: the stored patch set is applied to every Sleeve, the stored customer image loaded, and the
hooks that tenants had accepted reinstated. -/
def Dev.reinstate (d : Dev) : Dev :=
  let d : Dev := match d.island.images.get? 2 with
    | some i =>
      if d.imageOk 2 i then
        let ps : Tab Nat := ⟨(List.range 7).map fun s => (s, i.digest)⟩
        { d with boot := { d.boot with patches := ps } }
      else d
    | none => d
  match d.island.images.get? 3, d.island.customer with
  | some i, some u =>
    if !d.imageOk 3 i || (imageFault u).isSome then d
    else
      let d := d.storeImage u
      let took (t : Nat) : Bool := t = 0 || d.island.accepts.contains (t, u.digest)
      let mark (l : LoadedImage) : LoadedImage :=
        if l.digest = u.digest then { l with accepted := (List.range 16).filter fun t => t != 0 && took t } else l
      let hooks := (u.bindings.filter fun b => took b.tenancy).map fun b =>
        (hookKey 0 b.tenancy b.stage (b.profile = 1), b.word)
      { d with micro := { d.micro with images := d.micro.images.map mark, hooks := ⟨hooks⟩,
                                       genDigest := d.micro.genDigest.set 0 u.digest } }
  | _, _ => d

/-- The kind of Table 19-2 of a serviced unit, and its number there. -/
def svcKind (u : Nat) : Nat × Nat := if u < 16 then (1, u) else if u < 32 then (2, u - 16) else (4, u - 32)

/-- The serviced unit of a kind and number. -/
def svcKey (kind unit : Nat) : Nat := if kind = 1 then unit else if kind = 2 then 16 + unit else 32 + unit

/-- A test begins: the unit is TESTING. -/
def Dev.beginTest (d : Dev) (u : Nat) : Dev :=
  let k := svcKind u
  let o : SvcOp := { kind := k.1, unit := k.2, op := 3, deadline := 0, before := (d.svcUnit u).state, token := none }
  let d := d.setSvc u .testing
  { d with boot := { d.boot with ops := d.boot.ops ++ [o] } }

/-- FIRMWARE_READY (R435, step 6 of Table 20-2): fw_ready on every function, CRS ends, and the steps of Table 20-6
begin, the retest of marked units among them. -/
def execFirmwareReady (s : State) : Host.Outcome State Fault Refusal :=
  running (fun d =>
    if d.boot.stage != 2 then d
    else
      let d := { d with mbx := { d.mbx with fwReady := true }, host := { d.host with subsystemId := Config.subsystem } }
      let marked := (d.boot.units.cells.filter fun c => c.2.state == .failed).map (·.1)
      let d := (ascending marked).foldl (fun d u => d.beginTest u) d.reinstate.beginEpoch
      let d := d.setStage 3
      allFns.foldl (fun d f => d.fetchRing f) d) s

/-- The lowest-numbered Sleeve that can take a failed Sleeve's Cuffs at start. -/
def Dev.startSpare (d : Dev) : Option Nat := (List.range 7).find? fun s => !d.outOfService s && !d.serving s

/-- Step 6 of Table 20-6: the Cuffs of a Sleeve that stays FAILED go to the lowest-numbered spare. -/
def Dev.moveCuffs (d : Dev) (s : Nat) : Dev :=
  if !d.outOfService s || !d.serving s then d
  else
    match d.startSpare with
    | none => d
    | some t => (List.range 24).foldl (fun d c =>
        if (d.cuff c).sleeve = s then d.setCuff c { d.cuff c with sleeve := t } else d) d

/-- A Sleeve is enabled: its generator is seeded (R43, R138) and its first search window begins (R164). -/
def Dev.enableSleeve (d : Dev) (s : Nat) : Dev :=
  let d := (d.reseed s).beginWindow s 0
  d.setSleeve s { d.sleeve s with enabled := true, enabledAt := d.now }

/-- The preparation of slot 1 begins (R197), unless one has begun (R172). -/
def Dev.prepareFirst (d : Dev) : Dev :=
  let busy := (List.range 4).any fun v => (d.vslot v).state = .preparing || (d.vslot v).state = .prepared
  if busy || (d.vslot 1).state != .free then d
  else
    (List.range 7).foldl (fun d k => d.setSleeve k { d.sleeve k with
      updates := (d.sleeve k).updates ++ (List.range 16).map Bubble.rowMask })
      (d.setVslot 1 { d.vslot 1 with state := .preparing })

/-- SLEEVES_ENABLE (step 7 of Table 20-6): once the DRAM controller is enabled and every retest has ended. -/
def execSleevesEnable (s : State) : Host.Outcome State Fault Refusal :=
  running (fun d =>
    if d.boot.stage != 3 || d.boot.ready || !d.dram.enabled || d.boot.ops.any (·.op = 3) then d
    else
      let d : Dev := (List.range 7).foldl (fun d s => d.moveCuffs s) d.prepareFirst
      let d : Dev := (List.range 7).foldl (fun d s => d.enableSleeve s) d
      let d : Dev := { d with boot := { d.boot with ready := true } }
      d.raise 0x1401 ownerMaint [d.cipher.bootEpoch, (d.boot.running.map fun i => i.digest).getD 0]) s

/-! ### Units in and out of service (R484 to R491) -/

/-- The codes of Table 20-7's states in SERVICE_STATE and SVC_STATUS_GET, in the table's order. -/
def Dev.svcCode (d : Dev) (u : Nat) : Nat :=
  let spare := if u < 16 then !d.serving u else u < 32 && d.mbx.spare == some (u - 16)
  match (d.svcUnit u).state with
  | .inService => b2n spare
  | .outOfService => 2
  | .testing => 3
  | .failed => 4

/-- The code of a DRAM channel's service state (last column of Table 20-7). -/
def ChState.svcCode : ChState → Nat
  | .active => 0
  | .selfRefresh => 0
  | .migrating => 0
  | .spare => 1
  | .outOfService => 2
  | .untrained => 2
  | .fenced => 4

/-- A Sleeve as its test leaves it (R486): learning tables, customer memory and fragment tables empty, meter states
with full buckets, tables, row masks and control stores rewritten. -/
def Dev.testedSleeve (d : Dev) (s : Nat) : Dev :=
  let d := { d with
    tables := { d.tables with learn := d.tables.learn.filter (fun k _ => k / 2 ^ 19 != s),
                              flowBad := d.tables.flowBad.filter (· / 2 ^ 19 != s) }
    micro := { d.micro with custMem := d.micro.custMem.filter fun c => c.1 / 4096 / 20 != s }
    parse := { d.parse with frags := d.parse.frags.filter fun k _ => k / 4096 != s }
    tcam := { d.tcam with suspects := d.tcam.suspects.filter (· / 32768 != s) } }
  let d := d.meter.bindings.cells.foldl (fun d c =>
    d.setMeterCell s c.1 (fullCell c.2.data (d.sleeveCycles s))) d
  (List.range 20).foldl (fun d st =>
    d.setEngine s st { d.engine s st with overlay := [], bad := [] }) d

/-- R427: physical core `p` has failed, and the logical cores it served are absent. -/
def Dev.coreFails (d : Dev) (p : Nat) : Dev :=
  let gone := (List.range 4).filter fun k => d.coreOf k = p && !d.mbx.absent.contains k
  { d with mbx := { d.mbx with spare := if d.mbx.spare == some p then none else d.mbx.spare,
                               absent := d.mbx.absent ++ gone } }

/-- The first operation that `p` picks, taken off the list. -/
def Dev.takeOp (d : Dev) (p : SvcOp → Bool) : Option (SvcOp × Dev) :=
  (d.boot.ops.find? p).map fun o => (o, { d with boot := { d.boot with ops := d.boot.ops.erase o } })

/-- The end of a unit's test: OUT_OF_SERVICE, or at start back in its place, or FAILED. -/
def Dev.endTest (d : Dev) (u : Nat) (passed : Bool) : Dev :=
  let st : SvcState := if !passed then .failed else if d.boot.ready then .outOfService else .inService
  let n := if passed then 1 else 2
  let d := { d with boot := { d.boot with units := d.boot.units.set u { state := st, lastTest := n } } }
  let d := if u < 16 then d.testedSleeve u
    else if u < 32 && !passed && !d.boot.ready then d.coreFails (u - 16)
    else d
  let k := svcKind u
  d.writeService.raise 0x1402 ownerMaint [k.1, k.2, 3 + 2 ^ 8 * d.svcCode u, n]

/-- SVC_TEST_DONE (R486, R488, R489, R491). -/
def execSvcTestDone (passed : Bool) (s : State) : Host.Outcome State Fault Refusal :=
  running (fun d =>
    match d.takeOp (·.op = 3) with
    | some (o, d) => d.endTest (svcKey o.kind o.unit) passed
    | none => d) s

/-- Whether nothing of a Sleeve is in flight and no replay runs on it (R485). -/
def Dev.drained (d : Dev) (s : Nat) : Bool :=
  (List.range 4).all (fun v => d.inflight v s = 0) && (d.replayOn s).isNone

/-- SVC_OUT_OF_SERVICE_DONE (R485): the Sleeve whose in-flight counts have drained; one that has received a Cuff
meanwhile is not SPARE any more. -/
def execSvcOutOfServiceDone (s : State) : Host.Outcome State Fault Refusal :=
  running (fun d =>
    match d.takeOp fun o => o.kind = 1 && o.op = 1 && d.drained o.unit && d.isSpare o.unit with
    | some (o, d) => (d.setSvc o.unit .outOfService).answer o.token .ok 0 []
    | none => d) s

/-- SVC_DEADLINE (R485): the unit stays as it was. -/
def execSvcDeadline (s : State) : Host.Outcome State Fault Refusal :=
  running (fun d =>
    match d.takeOp fun o => o.op = 1 && decide (o.deadline ≤ d.now) with
    | some (o, d) => d.answer o.token .timeout 0 []
    | none => d) s

/-- CORE_HANDOVER_DONE (R489): the spare continues as the logical cores of the core that stops. -/
def execCoreHandoverDone (s : State) : Host.Outcome State Fault Refusal :=
  running (fun d =>
    match d.mbx.spare, d.takeOp fun o => o.kind = 2 && o.op = 1 with
    | some q, some (o, d) =>
      let ks := (List.range 4).filter fun k => d.coreOf k = o.unit && !d.mbx.absent.contains k
      let serves := ks.foldl (fun t k => t.set k q) d.mbx.serves
      let d := { d with mbx := { d.mbx with serves := serves, spare := none } }
      (d.setSvc (16 + o.unit) .outOfService).answer o.token .ok 0 []
    | _, _ => d) s

/-- R499 steps 1 and 3 for a kind and unit (Table 20-9). -/
def badUnit (kind unit : Nat) : Bool :=
  !((kind = 1 && unit ≤ 6) || (kind = 2 && unit ≤ 4) || (kind = 4 && unit < 112))

/-- Whether physical core `p` runs a logical core. -/
def Dev.runsCore (d : Dev) (p : Nat) : Bool :=
  !d.outOfService (16 + p) && (List.range 4).any fun k => d.coreOf k = p && !d.mbx.absent.contains k

/-- Whether a unit is in the state that an op of SVC_UNIT_SET needs (R485 to R489). -/
def Dev.svcMay (d : Dev) (r : SvcUnitRec) : Bool :=
  let u := svcKey r.kind r.unit
  if r.op = 2 then (d.svcUnit u).state == .outOfService
  else
    match r.kind with
    | 1 => d.isSpare r.unit
    | 2 => d.runsCore r.unit && d.mbx.spare.isSome
    | _ => !d.outOfService u && (d.isSpare (r.unit / 16) || (d.svcUnit (r.unit / 16)).state == .outOfService ||
        (d.unit 3 (r.unit % 16)).tenancy.isNone)

/-- Whether a service operation runs on a unit. -/
def Dev.svcBusy (d : Dev) (kind unit : Nat) : Bool := d.boot.ops.any fun o => o.kind = kind && o.unit = unit

/-- R499. -/
def svcUnitChecks (who : Sender) (d : Dev) (r : SvcUnitRec) : List (Bool × Status) :=
  [(!who.isOwner, .notPermitted),
   (badUnit r.kind r.unit || r.op = 0 || 2 < r.op || r.deadlineMs < 1 || 10000 < r.deadlineMs, .badField),
   (!d.boot.ready || (!d.svcBusy r.kind r.unit && !d.svcMay r), .badState), (d.svcBusy r.kind r.unit, .slotBusy)]

/-- A logical core that the next one's core serves beside its own (R429). -/
def Dev.doubled (d : Dev) : Option Nat :=
  (List.range 4).find? fun k => (List.range 4).any fun j => j != k && d.coreOf j = d.coreOf k && j = (k + 1) % 4

/-- Op 2 of a core (R489): it takes a doubled logical core at once, or is the spare. -/
def Dev.returnCore (d : Dev) (p : Nat) : Dev :=
  match d.doubled with
  | some k => { d with mbx := { d.mbx with serves := d.mbx.serves.set k p } }
  | none => { d with mbx := { d.mbx with spare := some p } }

/-- Op 2 of a bank (R488): it is rewritten from the shadow, so none of its rows is suspect. -/
def Dev.rewriteBank (d : Dev) (u : Nat) : Dev :=
  { d with tcam := { d.tcam with suspects := d.tcam.suspects.filter fun k => k / 2048 != u } }

/-- SVC_UNIT_SET (R485 to R489). -/
def execSvcUnitSet (h : Hdr) (r : SvcUnitRec) (s : State) : Host.Outcome State Fault Refusal :=
  runMessage { code := 0x1401, lenOk := exactly 8, maxBody := 0 } h (fun who d =>
    checked (svcUnitChecks who d r) d fun d =>
      let u := svcKey r.kind r.unit
      if r.op = 2 then
        let d := d.setSvc u .inService
        (.say .ok, if r.kind = 2 then d.returnCore r.unit else if r.kind = 4 then d.rewriteBank r.unit else d)
      else if r.kind = 4 then (.say .ok, d.setSvc u .outOfService)
      else
        let o : SvcOp := { kind := r.kind, unit := r.unit, op := 1, deadline := d.now + r.deadlineMs * cyclesPerMs,
                           before := .inService, token := some who.tok }
        (.wait, { d with boot := { d.boot with ops := d.boot.ops ++ [o] } })) s

/-- R499 for SVC_TEST: the unit is OUT_OF_SERVICE or FAILED, and no replay runs on it. -/
def svcTestChecks (who : Sender) (d : Dev) (r : SvcTestRec) : List (Bool × Status) :=
  let st := (d.svcUnit (svcKey r.kind r.unit)).state
  [(!who.isOwner, .notPermitted), (badUnit r.kind r.unit, .badField),
   (!d.boot.ready || (!d.svcBusy r.kind r.unit &&
      (!(st == .outOfService || st == .failed) || (r.kind = 1 && (d.replayOn r.unit).isSome))), .badState),
   (d.svcBusy r.kind r.unit, .slotBusy)]

/-- SVC_TEST (R486, R488, R489). -/
def execSvcTest (h : Hdr) (r : SvcTestRec) (s : State) : Host.Outcome State Fault Refusal :=
  runMessage { code := 0x1402, lenOk := exactly 4, maxBody := 0 } h (fun who d =>
    setting (svcTestChecks who d r) d fun d => d.beginTest (svcKey r.kind r.unit)) s

/-- SVC_STATUS_GET: each unit's state and last test result, then the DRAM channels. -/
def execSvcStatusGet (h : Hdr) (s : State) : Host.Outcome State Fault Refusal :=
  runMessage { code := 0x1403, lenOk := exactly 0, maxBody := 2048, changes := false } h (fun who d =>
    checked [(who.role == .tenant, .notPermitted)] d fun d =>
      let us := List.range 7 ++ (List.range 5).map (16 + ·) ++ (List.range 112).map (32 + ·)
      (.list (us.map (fun u => d.svcCode u + 256 * (d.svcUnit u).lastTest) ++
        (List.range 6).map fun p => (d.chan p).state.svcCode), d)) s

/-! ### Firmware change (R492 to R495) -/

/-- Whether a FW_STORE, FW_SWITCH or PATCH_ROLL runs. -/
def Dev.fwBusy (d : Dev) : Bool :=
  let storing (r : DmaRead) : Bool := match r.use with
    | .message _ (.fwStore _) => !r.discard
    | _ => false
  d.boot.storing.isSome || d.boot.switching.isSome || d.boot.rolling.isSome ||
    (d.host.reads ++ d.host.waitingReads).any storing

/-- The size of a FW_STORE target's area (Table 20-3); a firmware payload is at most 1,572,864 bytes (R477). -/
def storeSize : Nat → Nat
  | 0 => 1573376
  | _ => 8388608

/-- R499 for FW_STORE; R398 is checked when the image has come. -/
def fwStoreChecks (who : Sender) (d : Dev) (r : FwStoreRec) : List (Bool × Status) :=
  [(!who.isOwner, .notPermitted), (who.session = 0, .badSeal),
   (2 < r.target || r.imageLen < 512 || storeSize r.target < r.imageLen, .badField),
   (!d.boot.ready, .badState), (d.fwBusy, .slotBusy)]

/-- FW_STORE (R493). -/
def execFwStore (h : Hdr) (r : FwStoreRec) (s : State) : Host.Outcome State Fault Refusal :=
  runMessage { code := 0x1404, lenOk := exactly 16, maxBody := 0 } h (fun who d =>
    checked (fwStoreChecks who d r) d fun d => fetching who 1 (.fwStore r) d) s

/-- FW_STORE_COMPLETE (R493): the last page is written, or the write has failed. -/
def execFwStoreComplete (ok : Bool) (s : State) : Host.Outcome State Fault Refusal :=
  running (fun d =>
    let waits (r : FlashReq) : Bool := match r.use with
      | .image _ => true
      | _ => false
    match d.boot.storing with
    | none => d
    | some w =>
      if d.island.waiting.any waits || d.island.busy.any waits then d
      else
        let d := { d with boot := { d.boot with storing := none } }
        let i := d.island
        let d : Dev := if !ok then d
          else if w.area = 3 then
            { d with island := { i with images := i.images.set 3 w.image, customer := w.ucode } }
          else { d with island := { i with images := i.images.set w.area w.image } }
        d.raise 0x1403 ownerMaint [w.target, w.image.digest, b2n ok]) s

/-- The area that holds the stored inactive firmware image of a digest (R494). -/
def Dev.inactiveArea (d : Dev) (digest : Nat) : Option Nat :=
  (List.range 2).find? fun a => d.boot.runningArea != some a && (d.island.images.get? a).any (·.digest = digest)

/-- R499 for a stored image that a message names: sealed, accepted under R398, and in the state that is needed. -/
def storedChecks (who : Sender) (d : Dev) (type : Nat) (i : Option FwImage) (may : FwImage → Bool) :
    List (Bool × Status) :=
  [(!who.isOwner, .notPermitted), (who.session = 0 || i.any (fun x => !d.imageOk type x), .badSeal),
   (!d.boot.ready || !i.any may, .badState), (d.fwBusy, .slotBusy)]

/-- FW_SWITCH (R494). -/
def execFwSwitch (h : Hdr) (digest : Nat) (s : State) : Host.Outcome State Fault Refusal :=
  runMessage { code := 0x1405, lenOk := exactly 48, maxBody := 0 } h (fun who d =>
    let a := d.inactiveArea digest
    let i := a.bind fun x => d.island.images.get? x
    checked (storedChecks who d 1 i (·.handoverOk)) d fun d =>
      match a, i with
      | some a, some i =>
        let w : FwSwitching := { token := who.tok, image := i, area := a, stopped := false, at4 := 0 }
        (.wait, { d with boot := { d.boot with switching := some w } })
      | _, _ => (.say .badState, d)) s

/-- FW_SWITCH_LOADED (steps 2 to 4 of R494): the cores have stopped and start the new bank. -/
def execFwSwitchLoaded (s : State) : Host.Outcome State Fault Refusal :=
  running (fun d =>
    match d.boot.switching with
    | some w =>
      if w.stopped then d
      else { d with boot := { d.boot with switching := some { w with stopped := true, at4 := d.now } } }
    | none => d) s

/-- The cores go on with the messages whose final status waits, with events and with rings (R428). -/
def Dev.resumeRings (d : Dev) : Dev := (List.range 4).foldl (fun d k => if d.coreUp k then d.resumeCore k else d) d

/-! ### Ejection (R496, R497) -/

/-- EJECT_STATE to the owner, maintenance and every tenant. -/
def Dev.ejectEvent (d : Dev) (v : Nat) : Dev := d.raise 0x1406 (.tenants :: ownerMaint) [v]

/-- R497: what an ejection waits for. -/
def Dev.ejectWaits (d : Dev) : Bool :=
  d.boot.switching.isSome || d.boot.rolling.isSome || d.dram.migration.isSome

/-- A capture that takes records or waits to. -/
def Capture.going (c : Capture) : Bool := c.state == .armed || c.state == .running || c.state == .triggered

/-- Every capture that goes on stopped. -/
def Dev.stopCaptures (d : Dev) : Dev :=
  (List.range 16).foldl (fun d t => if (d.lining.captures.get? t).any (·.going) then d.stopCapture t else d) d

/-- Step 1 of R496 and the history record of step 2. -/
def Dev.ejectProceed (d : Dev) : Dev :=
  let b : BootState := { d.boot with eject := .proceeding, ejectGo := false, ejectAt := d.now }
  let d : Dev := (({ d with boot := b } : Dev).disablePorts.ejectEvent 2).stopCaptures
  if d.boot.stage = 3 then d.flashWait .pageProgram (.history (d.historyRec 1)) else d

/-- A request that may proceed does so, unless R497 makes it wait. -/
def Dev.ejectTry (d : Dev) : Dev :=
  if d.boot.eject == .requested && d.boot.ejectGo && !d.ejectWaits then d.ejectProceed else d

/-- A request from now on free to proceed. -/
def Dev.ejectAllow (d : Dev) : Dev :=
  if d.boot.eject == .requested then { d with boot := { d.boot with ejectGo := true } }.ejectTry else d

/-- EJECT_REQUEST (R496): EJECT_REQ_N has been low for 1 ms. -/
def execEjectRequest (s : State) : Host.Outcome State Fault Refusal :=
  running (fun d =>
    let d := { d with boot := { d.boot with ejectReqLow := true } }
    if d.boot.eject != .idle then d
    else
      let d := { d with boot := { d.boot with eject := .requested, ejectAt := d.now } }.ejectEvent 1
      if d.boot.ejectMode = 1 || !d.boot.ready then d.ejectAllow else d) s

/-- EJECT_CANCEL (R497): EJECT_REQ_N goes high; before step 1 the request is cancelled. -/
def execEjectCancel (s : State) : Host.Outcome State Fault Refusal :=
  running (fun d =>
    let d := { d with boot := { d.boot with ejectReqLow := false } }
    if d.boot.eject == .requested || d.boot.eject == .held then
      { d with boot := { d.boot with eject := .idle, ejectGo := false } }.ejectEvent 4
    else d) s

/-- EJECT_GRACE_EXPIRY (R496): grace_ms have passed; or what a request that may proceed waits for has ended. -/
def execEjectGraceExpiry (s : State) : Host.Outcome State Fault Refusal :=
  running (fun d =>
    if d.boot.ejectAt + d.boot.ejectGrace * cyclesPerMs ≤ d.now then d.ejectAllow else d.ejectTry) s

/-- EJECT_FLASH_ABANDON (R496): 100 ms after step 1 the deferred writes are given up. -/
def execEjectFlashAbandon (s : State) : Host.Outcome State Fault Refusal :=
  running (fun d =>
    if d.boot.eject != .proceeding || d.now < d.boot.ejectAt + 100 * cyclesPerMs then d
    else
      (d.island.waiting.filter fun r => r.recheckAt.isSome && r.use != .postmortem).foldl
        (fun d r => d.abandonFlash r) d) s

/-- EJECT_READY (steps 3 and 4 of R496): with no flash operation left, every active channel enters self-refresh and
EJECT_RDY_N goes low. -/
def execEjectReady (s : State) : Host.Outcome State Fault Refusal :=
  running (fun d =>
    let d := d.ejectTry
    if d.boot.eject != .proceeding || d.island.busy.isSome || !d.island.waiting.isEmpty then d
    else
      let sleep (_ : Nat) (c : DramChannel) : DramChannel :=
        if c.state = .active then { c with state := .selfRefresh, srAt := some d.now } else c
      let d := { d with dram := { d.dram with channels := d.dram.channels.map sleep },
                        boot := { d.boot with eject := .ready, ejectRdyLow := true } }
      d.ejectEvent 3) s

/-- EJECT_CONFIG_SET (R496). -/
def execEjectConfigSet (h : Hdr) (r : EjectConfigRec) (s : State) : Host.Outcome State Fault Refusal :=
  runMessage { code := 0x1408, lenOk := exactly 4, maxBody := 0 } h (fun who d =>
    setting [(!who.isOwner, .notPermitted), (1 < r.mode || 60000 < r.graceMs, .badField)] d fun d =>
      let d := { d with boot := { d.boot with ejectMode := r.mode, ejectGrace := r.graceMs } }
      if r.mode = 1 then d.ejectAllow else d) s

/-- SVC_EJECT (R496): op 1 lets a request proceed, op 2 holds it until EJECT_REQ_N goes high. -/
def execSvcEject (h : Hdr) (op : Nat) (s : State) : Host.Outcome State Fault Refusal :=
  runMessage { code := 0x1409, lenOk := exactly 1, maxBody := 0 } h (fun who d =>
    setting [(!who.isOwner, .notPermitted), (op = 0 || 2 < op, .badField), (d.boot.eject != .requested, .badState)] d
      fun d =>
        if op = 1 then d.ejectAllow
        else { d with boot := { d.boot with eject := .held, ejectGo := false } }) s

/-! ### The ends of firmware operations -/

/-- FW_SWITCH_RESUME (step 5 of R494). -/
def execFwSwitchResume (s : State) : Host.Outcome State Fault Refusal :=
  running (fun d =>
    match d.boot.switching with
    | some w =>
      if !w.stopped then d
      else
        let old : Nat := (d.boot.running.map fun i => i.digest).getD 0
        let d := { d with boot := { d.boot with switching := none, running := some w.image, runningArea := some w.area,
                                                bank := 1 - d.boot.bank } }
        (((d.resumeRings.finish w.token .ok 0 []).raise 0x1404 ownerMaint [old, w.image.digest])).ejectTry
    | none => d) s

/-- FW_SWITCH_TIMEOUT (R494): 200 ms after step 4 the old bank goes on. -/
def execFwSwitchTimeout (s : State) : Host.Outcome State Fault Refusal :=
  running (fun d =>
    match d.boot.switching with
    | some w =>
      if w.stopped && decide (w.at4 + 200 * cyclesPerMs ≤ d.now) then
        let d := { d with boot := { d.boot with switching := none } }
        (d.resumeRings.finish w.token .timeout 0 []).ejectTry
      else d
    | none => d) s

/-- The next directory: it names the running image's area, over the copy with the lower sequence (R478, R495). -/
def Dev.nextDirectory (d : Dev) (area : Nat) : Nat × BootDir :=
  let i := d.island
  let dig (a : Nat) : Nat := ((i.images.get? a).map (·.digest)).getD 0
  let seq := (i.directory.map (·.sequence)).getD 0
  let copy := if i.dir0.valid && (!i.dir1.valid || decide (i.dir1.sequence ≤ i.dir0.sequence)) then 1 else 0
  (copy, { valid := true, sequence := seq + 1, active := area, digestA := dig 0, digestB := dig 1 })

/-- FW_COMMIT (R495): the directory is written to name the running image. -/
def execFwCommit (h : Hdr) (digest : Nat) (s : State) : Host.Outcome State Fault Refusal :=
  runMessage { code := 0x1406, lenOk := exactly 48, maxBody := 0 } h (fun who d =>
    let i := d.boot.running.filter fun x => x.digest = digest && d.boot.runningArea.isSome
    checked [(!who.isOwner, .notPermitted), (who.session = 0 || i.any (fun x => !d.imageOk 1 x), .badSeal),
             (!d.boot.ready || i.isNone || d.boot.runningArea.any (fun a => !(d.island.images.get? a).any (·.digest = digest)),
              .badState)] d fun d =>
      match d.boot.runningArea with
      | some a =>
        let x := d.nextDirectory a
        (.wait, d.flashWait .pageProgram (.directory x.1 x.2 (some who.tok)))
      | none => (.say .badState, d)) s

/-- PATCH_ROLL (R492): the SPARE Sleeve first, then the others in ascending number. -/
def execPatchRoll (h : Hdr) (digest : Nat) (s : State) : Host.Outcome State Fault Refusal :=
  runMessage { code := 0x1407, lenOk := exactly 48, maxBody := 0 } h (fun who d =>
    let i := (d.island.images.get? 2).filter (·.digest = digest)
    setting (storedChecks who d 2 i (·.mixedOk)) d fun d =>
      let on := (List.range 7).filter fun s => (d.sleeve s).enabled
      let first := (on.find? d.isSpare).toList
      let w : PatchRolling := { digest := digest, left := first ++ on.filter fun s => !first.contains s }
      { d with boot := { d.boot with rolling := some w } }) s

/-- PATCH_ROLL_SLEEVE_DONE (R492): the next Sleeve, which serves no Cuff and has drained, is patched and tested. -/
def execPatchRollSleeveDone (passed : Bool) (s : State) : Host.Outcome State Fault Refusal :=
  running (fun d =>
    match d.boot.rolling with
    | none => d
    | some w =>
      match w.left with
      | [] => d
      | t :: ts =>
        if d.serving t || !d.drained t || d.svcBusy 1 t then d
        else
          let old := d.svcCode t
          let n := if passed then 1 else 2
          let st : SvcState := if passed then (if old = 4 then .inService else (d.svcUnit t).state) else .failed
          let d := d.testedSleeve t
          let b := d.boot
          let left : Option PatchRolling := if ts.isEmpty then none else some { w with left := ts }
          let d := { d with boot := { b with patches := b.patches.set t w.digest, rolling := left,
                                             units := b.units.set t { state := st, lastTest := n } } }
          ((d.writeService).raise 0x1402 ownerMaint [1, t, old + 2 ^ 8 * d.svcCode t, n]).ejectTry) s

end Sys2Proof.Machine
end

