-- ==== Sys2Proof/Machine/Board.lean ====
section
/-! DEFINITION. The board interface (21): clocks, SMBus and JTAG. -/

namespace Sys2Proof.Machine

/-! ### Clocks (R513) -/

/-- REFCLK_STOP: with PERST# high the device is in an undefined state until the next fundamental reset. -/
def execRefclkStop (s : State) : Host.Outcome State Fault Refusal :=
  always (fun d => if d.power = .reset then d else { d with power := .undefined }) s

/-- SRD_REFCLK_LOSS: the lanes of Cuffs 4`bank` to 4`bank` + 3 lose every lock (R79 to R82). -/
def execSrdRefclkLoss (bank : Nat) (s : State) : Host.Outcome State Fault Refusal :=
  running (fun d =>
    if 6 ≤ bank then d
    else (List.range 16).foldl (fun d i =>
      ([.signal, .cdr, .pcs, .fec] : List LockKind).foldl (fun d k => d.loseLock (16 * bank + i) k) d) d) s

/-! ### The SMBus target (R515, R516) -/

/-- A sensor's byte in SENSORS: °C + 40, saturating. -/
def sensorByte (t : Int) : Nat := (max 0 (min 255 (t / 4 + 40))).toNat

/-- FLAGS (Table 21-10) of a running device. -/
def Dev.smbFlags (d : Dev) : Nat :=
  let band2 := (List.range 7).any fun s => (d.tcam.sleeves.get .reset s).band = 2
  let unread := d.island.slots.cells.any fun c => !c.2.reported
  2 * b2n band2 + 4 * b2n (d.boot.eject == .ready) + 8 * b2n unread + 16 * b2n d.ten.debugUnlocked

/-- The values of Table 21-10 now. -/
def Dev.smbNow (d : Dev) : SmbSample :=
  { tj := d.junction.getD 0, stage := d.boot.stage, flags := d.smbFlags, coreMv := d.gus.mv,
    eom := d.eomMask % 2 ^ 16, sensors := (List.range 24).map fun i => sensorByte (d.gus.temps.getD i (-160)) }

/-- Whether a new sample asserts SMB_ALERT_N (R516): bit 0, 1 or 3 of FLAGS rises, or EOM changes. -/
def alerts (old new : SmbSample) : Bool :=
  ([0, 1, 3] : List Nat).any (fun i => new.flags.testBit i && !old.flags.testBit i) || old.eom != new.eom

/-- SMBUS_SAMPLE_UPDATE (R515): every 300,000 cycles. -/
def execSmbusSampleUpdate (s : State) : Host.Outcome State Fault Refusal :=
  running (fun d =>
    let b := d.board
    if d.now < b.sampledAt + 300000 then d
    else
      let x := d.smbNow
      { d with board := { b with sample := x, sampledAt := d.now, alert := b.alert || alerts b.sample x } }) s

/-- A transfer to the SMBus target, which answers in every power state except reset. -/
def smbTransfer (f : BoardState → BoardState) (s : State) : Host.Outcome State Fault Refusal :=
  powered (fun d =>
    if d.power = .reset then { d with board := { d.board with reply := .none } }
    else { d with board := f d.board }) s

/-- SMBUS_TJ: 16 bits, signed. -/
def execSmbusTj (s : State) : Host.Outcome State Fault Refusal :=
  smbTransfer (fun b => { b with reply := .word (b.sample.tj % 2 ^ 16).toNat }) s

/-- SMBUS_STAGE. -/
def execSmbusStage (s : State) : Host.Outcome State Fault Refusal :=
  smbTransfer (fun b => { b with reply := .byte b.sample.stage }) s

/-- SMBUS_FLAGS. -/
def execSmbusFlags (s : State) : Host.Outcome State Fault Refusal :=
  smbTransfer (fun b => { b with reply := .byte b.sample.flags }) s

/-- SMBUS_CORE_MV. -/
def execSmbusCoreMv (s : State) : Host.Outcome State Fault Refusal :=
  smbTransfer (fun b => { b with reply := .word b.sample.coreMv }) s

/-- SMBUS_EOM. -/
def execSmbusEom (s : State) : Host.Outcome State Fault Refusal :=
  smbTransfer (fun b => { b with reply := .word b.sample.eom }) s

/-- SMBUS_SENSORS. -/
def execSmbusSensors (s : State) : Host.Outcome State Fault Refusal :=
  smbTransfer (fun b => { b with reply := .block b.sample.sensors }) s

/-- SMBUS_ALERT_RESPONSE (R516): only a target that asserts SMB_ALERT_N answers, with 0x5A. -/
def execSmbusAlertResponse (s : State) : Host.Outcome State Fault Refusal :=
  smbTransfer (fun b => if b.alert then { b with reply := .byte 0x5A, alert := false } else { b with reply := .nack }) s

/-- SMBUS_WRITE_NACK. -/
def execSmbusWriteNack (s : State) : Host.Outcome State Fault Refusal :=
  smbTransfer (fun b => { b with reply := .nack }) s

/-! ### JTAG (R402, R518) -/

/-- Whether debug is locked: lifecycle bit 0 is blown and DEBUG_UNLOCK has not been carried out since the reset. -/
def Dev.debugLocked (d : Dev) : Bool := d.ten.lifecycle.testBit 0 && !d.ten.debugUnlocked

/-- The instruction that an instruction acts as. -/
def Dev.jtagActs (d : Dev) : Jtag → Jtag
  | .other c => if d.debugLocked then .bypass else .other c
  | .bypass => .bypass
  | .idcode => .idcode
  | .samplePreload => .samplePreload
  | .extest => .extest

/-- The value that an instruction's data register captures, where it is stated: IDCODE, and the 0 of BYPASS. -/
def jtagCapture : Jtag → Option Nat
  | .idcode => some 0x19600D4B
  | .bypass => some 0
  | .samplePreload => none
  | .extest => none
  | .other _ => none

/-- JTAG_INSTRUCTION. -/
def execJtagInstruction (inst : Jtag) (s : State) : Host.Outcome State Fault Refusal :=
  powered (fun d =>
    let i := d.jtagActs inst
    { d with board := { d.board with jtag := i, jtagData := jtagCapture i } }) s

end Sys2Proof.Machine
end

