-- ==== Sys2Proof/Machine/Hem.lean ====
section
/-! DEFINITION. The Hem (02): the advance of network time, frequency, steps, the states of Table 2-5, time inputs and
outputs, and the time records. -/

namespace Sys2Proof.Machine

/-! ### The increment (R45, R60) -/

/-- A quotient rounded to the nearest integer, half away from zero. -/
def roundHalfAway (n : Int) (k : Nat) : Int :=
  let q : Int := ((2 * n.natAbs + k) / (2 * k) : Nat)
  if n < 0 then -q else q

/-- HEM_INCR for a frequency adjustment in 2^-8 ppb (R45). -/
def incrOf (adj : Int) : Nat := ((hemBase : Int) + roundHalfAway (hemBase * adj) 256000000000).toNat

/-- The adjustment that an increment stands for. -/
def adjOf (incr : Nat) : Int := roundHalfAway (((incr : Int) - hemBase) * 256000000000) hemBase

/-- HEM_INCR set, with the adjustment that it stands for. -/
def Dev.setIncr (d : Dev) (incr : Nat) (adj : Int) : Dev :=
  let h := d.hem
  let hist := if incr = h.incr then h.history else (d.now, incr) :: h.history
  { d with hem := { h with incr := incr, freqAdj := adj, history := hist } }

/-- The sum of the increments in force over the cycles from `lo` to `hi`, from the changes, newest first, that lie
before cycle `e`; before the first of them the increment was nominal. -/
def incrSum (lo hi : Int) : List (Nat × Nat) → Int → Int
  | [], e => hemBase * max 0 (min e hi - lo)
  | (c, v) :: l, e => v * max 0 (min e hi - max (c : Int) lo) + incrSum lo hi l c

/-- The holdover mean (R60): over 180,000,000,000 cycles that end 6,000,000,000 before now. -/
def Dev.holdoverMean (d : Dev) : Nat :=
  let hi : Int := d.now - 6000000000
  (roundHalfAway (incrSum (hi - 180000000000) hi d.hem.history hi) 180000000000).toNat

/-! ### States (Table 2-5, R57, R60) -/

/-- The code of a Hem state (Table 2-8). -/
def HemMode.code : HemMode → Nat
  | .freerun => 0
  | .acquiring => 1
  | .locked => 2
  | .holdover => 3

/-- PPS_OUT held low where it is disabled, or in FREERUN without bit 1 (R57). -/
def Dev.holdPps (d : Dev) : Dev :=
  let h := d.hem
  let on := h.io.ppsOutFlags.testBit 0 && (h.mode != .freerun || h.io.ppsOutFlags.testBit 1)
  if on then d else { d with hem := { h with ppsOut := false } }

/-- The Hem enters a state, with TIME_STATE. HOLDOVER sets HEM_INCR to the holdover mean; clock_class is 248 in FREERUN
and in the other states what firmware's configuration says, which the spec does not give. -/
def Dev.enterMode (d : Dev) (m : HemMode) : Dev :=
  if d.hem.mode = m then d
  else
    let d := if m = .holdover then
        (d.setIncr d.holdoverMean (adjOf d.holdoverMean)).inc .holdoverEntries 0 0
      else d
    let x := d.draw
    let d := x.2
    let cc := if m = .freerun then 248 else Config.freeWord x.1 % 256
    let h : HemState := { d.hem with mode := m, clockClass := cc, withinSince := none,
                                     everLocked := d.hem.everLocked || m = .locked }
    (({ d with hem := h } : Dev).holdPps).raise 0x0202 timeAud [m.code]

/-! ### Time (R45, R63 to R66) -/

/-- HEM_TIME_ADVANCE: `cycles` core cycles pass. -/
def execHemTimeAdvance (cycles : Nat) (s : State) : Host.Outcome State Fault Refusal :=
  running (fun d =>
    { d with now := d.now + cycles, hem := { d.hem with acc := (d.hem.acc + cycles * d.hem.incr) % unitWrap } }) s

/-- A time step: network time takes value `acc` in one cycle, the step generation advances, and every consumer of Table
2-6 acts. -/
def Dev.timeStep (d : Dev) (acc : Nat) : Dev :=
  let old := d.stamp
  let h : HemState := { d.hem with acc := acc % unitWrap, stepGen := (d.hem.stepGen + 1) % 256 }
  let d : Dev := ({ d with hem := h } : Dev).inc .timeSteps 0 0
  let new := d.stamp
  let d : Dev := (List.range 96).foldl (fun d p => d.stepGates p) d
  let d : Dev := (List.range 96).foldl (fun d p => d.stepCalendar p) d
  (((d.stepSamples old new).markStep old new).closeLapsed).raise 0x0201 timeAud [stamp64 old, stamp64 new, new.gen]

/-- Network time moved by an offset in 2^-48 ns. -/
def Dev.stepBy (d : Dev) (z : Int) : Dev := d.timeStep (((d.hem.acc : Int) + z) % (unitWrap : Int)).toNat

/-! ### The internal servo and its sources (R60 to R62) -/

/-- Whether the internal servo runs: servo_mode 0, and the core of L0 present and not stopped (R427, R489, R494). -/
def Dev.servoRuns (d : Dev) : Bool := d.hem.io.servoMode = 0 && d.served 0

/-- The servo's slew (R61): the adjustment within the slew maximum. -/
def Dev.slew (d : Dev) (adj : Int) : Dev :=
  let m : Int := d.hem.io.slewMax
  let a := max (-m) (min m adj)
  d.setIncr (incrOf a) a

/-- LOCKED is entered when the offset has been within 100 ns for 60 s. -/
def Dev.judgeLock (d : Dev) (offset : Int) : Dev :=
  if 100 < offset.natAbs then { d with hem := { d.hem with withinSince := none } }
  else
    let t := d.hem.withinSince.getD d.now
    let d := { d with hem := { d.hem with withinSince := some t } }
    if d.hem.mode = .acquiring && t + 60 * cyclesPerS ≤ d.now then d.enterMode .locked else d

/-- SERVO_UPDATE (R61): an offset of network time against the source, and the adjustment that firmware's servo sets for
it. A step is taken in ACQUIRING only. -/
def execServoUpdate (offsetNs freqAdj : Int) (s : State) : Host.Outcome State Fault Refusal :=
  running (fun d =>
    if !d.servoRuns || !(d.hem.mode = .acquiring || d.hem.mode = .locked) then d
    else
      let d := { d with hem := { d.hem with offsetNs := offsetNs } }
      let d : Dev := if d.hem.mode = .acquiring && d.hem.io.stepThreshold < offsetNs.natAbs then
          d.stepBy (-(offsetNs * (unitNs : Int)))
        else d.slew freqAdj
      d.judgeLock offsetNs) s

/-- A selected source is lost (R60, R62): from LOCKED, or once LOCKED has been reached, HOLDOVER, else FREERUN; under
servo_mode 1 no state changes. -/
def Dev.loseSource (d : Dev) (source : Nat) : Dev :=
  let d := { d with hem := { d.hem with valid := d.hem.valid.filter (· != source) } }
  let d := d.raise 0x0203 timeAud [source]
  if d.hem.io.servoMode != 0 || !(d.hem.mode = .acquiring || d.hem.mode = .locked) then d
  else if d.hem.everLocked then d.enterMode .holdover
  else d.enterMode .freerun

/-- Whether a source is the one selected (Table 2-9). -/
def Dev.selects (d : Dev) (source : Nat) : Bool := source != 0 && d.hem.io.source = source

/-- SOURCE_LOST. -/
def execSourceLost (source : Nat) (s : State) : Host.Outcome State Fault Refusal :=
  running (fun d => if d.selects source && d.hem.valid.contains source then d.loseSource source else d) s

/-- SOURCE_VALID. -/
def execSourceValid (source : Nat) (s : State) : Host.Outcome State Fault Refusal :=
  running (fun d =>
    if !d.selects source then d
    else
      let v := source :: d.hem.valid.filter (· != source)
      let d := { d with hem := { d.hem with valid := v } }
      if d.hem.io.servoMode = 0 && (d.hem.mode = .freerun || d.hem.mode = .holdover) then d.enterMode .acquiring
      else d) s

/-! ### PPS and ToD (R56 to R58) -/

/-- PPS_IN_EDGE (R56): an edge less than 0.5 s after the accepted one before it is ignored. -/
def execPpsInEdge (s : State) : Host.Outcome State Fault Refusal :=
  running (fun d =>
    let early := d.hem.ppsInAt.any fun t => decide (d.now < t + 1500000000)
    if early then d.inc .ppsInSpurious 0 0
    else
      let raw : Int := ((d.hem.acc / 2 ^ 45 : Nat) : Int) - d.hem.io.ppsInDelay
      let t := (raw % (unitWrap / 2 ^ 45 : Nat)).toNat * 2 ^ 45
      { d with hem := { d.hem with ppsInAt := some d.now, ppsInStamp := t } }) s

/-- PPS_IN_MISSING (R56): 1.1 s after the accepted edge. -/
def execPpsInMissing (s : State) : Host.Outcome State Fault Refusal :=
  running (fun d =>
    match d.hem.ppsInAt with
    | some t =>
      if t + 3300000000 ≤ d.now then
        let d := { d with hem := { d.hem with ppsInAt := none } }.inc .ppsInMissing 0 0
        if d.selects 2 && d.hem.valid.contains 2 then d.loseSource 2 else d.raise 0x0203 timeAud [2]
      else d
    | none => d) s

/-- Network time with the PPS_OUT offset, in 2^-48 ns. -/
def Dev.ppsTime (d : Dev) : Nat := (((d.hem.acc : Int) + d.hem.io.ppsOutOffset * 2 ^ 45) % (unitWrap : Int)).toNat

/-- PPS_OUT_EDGE (R57): in the cycle in which the time reaches a whole second, 0.5 s or more after the edge before. -/
def execPpsOutEdge (s : State) : Host.Outcome State Fault Refusal :=
  running (fun d =>
    let h := d.hem
    let on := h.io.ppsOutFlags.testBit 0 && (h.mode != .freerun || h.io.ppsOutFlags.testBit 1)
    let early := h.ppsOutAt.any fun t => decide (d.now < t + 1500000000)
    if !on || early || h.incr ≤ d.ppsTime % unitS then d
    else { d with hem := { h with ppsOut := true, ppsOutAt := some d.now, ppsOutSec := d.ppsTime / unitS } }) s

/-- PPS_OUT_PULSE_END (R57). -/
def execPpsOutPulseEnd (s : State) : Host.Outcome State Fault Refusal :=
  running (fun d =>
    let past := d.hem.ppsOutAt.any fun t => decide (t + 3 * d.hem.io.ppsOutWidth ≤ d.now)
    if d.hem.ppsOut && past then { d with hem := { d.hem with ppsOut := false } } else d) s

/-- One bit of a CRC-16 with polynomial 0x1021, most significant first. -/
def crc16Bit (c : Nat) : Nat := if c.testBit 15 then Nat.xor (c * 2 % 65536) 0x1021 else c * 2 % 65536

/-- One byte of it. -/
def crc16Byte (c b : Nat) : Nat := (List.range 8).foldl (fun c _ => crc16Bit c) (Nat.xor c (b % 256 * 256))

/-- The CRC of Table 2-4. -/
def crc16 (bs : List Nat) : Nat := bs.foldl crc16Byte 0xFFFF

/-- The ToD message for the latest PPS_OUT edge (Table 2-4), with the two leap-second flags as firmware has them. -/
def Dev.todMessage (d : Dev) (leap59 leap61 : Bool) : List Nat :=
  let h := d.hem
  let flags := b2n (h.mode = .locked || h.mode = .holdover) + 2 * b2n (h.mode = .holdover) + 4 * b2n leap59 + 8 * b2n leap61
  let m := [0x54, 0x44, 1, flags] ++ beBytes 6 h.ppsOutSec ++ beBytes 2 (wrap 16 h.utcOffset) ++ [h.clockClass, 0]
  m ++ beBytes 2 (crc16 m)

/-- TOD_TX (R58): 10 ms after the PPS_OUT edge it names. -/
def execTodTx (s : State) : Host.Outcome State Fault Refusal :=
  running (fun d =>
    match d.hem.ppsOutAt with
    | some t =>
      if d.hem.io.todDir != 2 || d.now < t + 10 * cyclesPerMs || d.hem.todFor = some t then d
      else
        let x := d.draw
        let y := x.2.draw
        let d := y.2
        let m := d.todMessage (Config.freeBit x.1) (Config.freeBit y.1)
        { d with hem := { d.hem with todSent := m :: d.hem.todSent, todFor := some t } }
    | none => d) s

/-- Whether a received ToD message is well formed (R58). -/
def todGood (bs : List Nat) : Bool :=
  bs.length = 16 && bs.take 3 == [0x54, 0x44, 1] && beNat (bs.drop 14) = crc16 (bs.take 14)

/-- TOD_RX (R58): it names the PPS_IN edge before it. -/
def execTodRx (bytes : List Nat) (s : State) : Host.Outcome State Fault Refusal :=
  running (fun d =>
    if d.hem.io.todDir != 1 then d
    else if todGood bytes && d.hem.ppsInAt.isSome then { d with hem := { d.hem with todIn := some bytes } }
    else d.inc .todRxBad 0 0) s

/-! ### SyncE (R59) -/

/-- An output resumed. -/
def SyncOut.resume (o : SyncOut) (now : Nat) : SyncOut :=
  match o.relockAt with
  | some t => if t + 100 * cyclesPerMs ≤ now then { running := true, relockAt := none } else o
  | none => o

/-- SYNCE_RESUME: 100 ms after the lane has regained lock. -/
def execSynceResume (out : Nat) (s : State) : Host.Outcome State Fault Refusal :=
  running (fun d =>
    if out = 0 then { d with hem := { d.hem with sync0 := d.hem.sync0.resume d.now } }
    else if out = 1 then { d with hem := { d.hem with sync1 := d.hem.sync1.resume d.now } }
    else d) s

/-- The state of an output that is given a port: its clock runs where the port's lane is locked. -/
def Dev.syncSelect (d : Dev) (old new : Nat) (o : SyncOut) : SyncOut :=
  if old = new then o
  else { running := decide (new < 96) && (d.lane new).locked ((d.port new).cfg.fec != 0), relockAt := none }

/-! ### PTP settings (R55) -/

/-- What PTP_PORT_SET checks. -/
def ptpPortChecks (who : Sender) (r : PtpPortRec) : List (Bool × Status) :=
  [(!who.isOwner, .notPermitted),
   (95 < r.port || (r.flags.testBit 0 && bits r.flags 1 3 = 0) || 2 ^ 31 < r.ingressAsym.natAbs ||
      2 ^ 31 < r.egressAsym.natAbs, .badField)]

/-- PTP_PORT_SET: the settings wait for each direction's next frame boundary. -/
def execPtpPortSet (h : Hdr) (r : PtpPortRec) (s : State) : Host.Outcome State Fault Refusal :=
  runMessage { code := 0x0201, lenOk := exactly 12, maxBody := 0 } h (fun who d =>
    setting (ptpPortChecks who r) d fun d =>
      let x : PtpPort := { flags := r.flags % 32, domain := r.domain % 256, ingressAsym := r.ingressAsym,
                           egressAsym := r.egressAsym }
      { d with hem := { d.hem with ptpNextRx := d.hem.ptpNextRx.set r.port x,
                                   ptpNextTx := d.hem.ptpNextTx.set r.port x } }) s

/-- PTP_SETTING_EFFECT: a frame boundary of a direction that has settings waiting. -/
def execPtpSettingEffect (port : Nat) (dir : Dir) (s : State) : Host.Outcome State Fault Refusal :=
  running (fun d =>
    let x := d.port port
    let h := d.hem
    match dir with
    | .rx =>
      match h.ptpNextRx.get? port with
      | some p =>
        if x.rxFrame.isSome then d
        else { d with hem := { h with ptpRx := h.ptpRx.set port p, ptpNextRx := h.ptpNextRx.del port } }
      | none => d
    | .tx =>
      match h.ptpNextTx.get? port with
      | some p =>
        if x.txFrame.isSome then d
        else { d with hem := { h with ptpTx := h.ptpTx.set port p, ptpNextTx := h.ptpNextTx.del port } }
      | none => d) s

/-! ### Time records (R62, R68 to R70) -/

/-- TIME_STATUS_GET (Table 2-8). -/
def execTimeStatusGet (h : Hdr) (s : State) : Host.Outcome State Fault Refusal :=
  runMessage { code := 0x0202, lenOk := exactly 0, maxBody := 32, open0 := true, changes := false } h (fun _ d =>
    let t := d.stamp
    let x := d.hem
    let port := if x.io.source = 1 || x.io.source = 4 then x.io.sourcePort else 0xFFFF
    (.done .ok 32 [t.sec, t.ns, t.frac, x.mode.code, t.gen, wrap 16 x.utcOffset, x.clockClass, x.io.source, port,
                   wrap 32 x.freqAdj, wrap 32 x.offsetNs], d)) s

/-- Whether a TIME_IO_SET record has a value out of range (Table 2-9, R68). -/
def timeIoBad (r : TimeIoRec) : Bool :=
  4 < r.source || 1 < r.servoMode || ((r.source = 1 || r.source = 4) && 95 < r.sourcePort) ||
    r.stepThreshold < 100 || 1000000000 < r.stepThreshold || r.slewMax < 1 || 51200000 < r.slewMax ||
    2 < r.todDir || r.ppsOutWidth < 100 || 500000000 < r.ppsOutWidth || 8000 < r.ppsOutOffset.natAbs ||
    8000 < r.ppsInDelay || (95 < r.synce0Port && r.synce0Port != 0xFFFF) || 1 < r.synce0Freq ||
    (95 < r.synce1Port && r.synce1Port != 0xFFFF) || 1 < r.synce1Freq || (r.todDir = 1 && r.source != 2)

/-- R62: what a change of servo_mode does to the state. -/
def Dev.servoChanged (d : Dev) (old : Nat) : Dev :=
  let x := d.hem.io
  if old = x.servoMode then d
  else if x.servoMode = 0 && x.source != 0 && d.hem.valid.contains x.source then d.enterMode .acquiring
  else d.enterMode .freerun

/-- TIME_IO_SET (R62, R68). -/
def execTimeIoSet (h : Hdr) (r : TimeIoRec) (s : State) : Host.Outcome State Fault Refusal :=
  runMessage { code := 0x0203, lenOk := exactly 36, maxBody := 0 } h (fun who d =>
    setting [(!who.isOwner, .notPermitted), (timeIoBad r, .badField)] d fun d =>
      let old := d.hem.io
      let r : TimeIoRec := { r with ppsOutFlags := r.ppsOutFlags % 4 }
      let s0 := d.syncSelect old.synce0Port r.synce0Port d.hem.sync0
      let s1 := d.syncSelect old.synce1Port r.synce1Port d.hem.sync1
      let x : HemState := { d.hem with io := r, sync0 := s0, sync1 := s1 }
      ((({ d with hem := x } : Dev).servoChanged old.servoMode).holdPps)) s

/-- Whether a TIME_ADJUST record has a value out of range (Table 2-10). -/
def timeAdjustBad (r : TimeAdjustRec) : Bool :=
  r.op = 0 || 4 < r.op || (r.op = 4 && 3 < r.state) || (r.op != 4 && r.state != 0) ||
    (r.op = 1 && r.value = 0) || (r.op = 2 && (r.value < 0 || 2 ^ 48 ≤ r.value || 999999999 < r.nanoseconds)) ||
    (r.op ≤ 2 && 65535 < r.fraction) || (r.op = 3 && 51200000 < r.freqAdj.natAbs)

/-- R68. -/
def timeAdjustChecks (who : Sender) (d : Dev) (r : TimeAdjustRec) : List (Bool × Status) :=
  let outside := d.hem.io.servoMode = 1
  [(!who.isOwner, .notPermitted), (timeAdjustBad r, .badField),
   (!outside && (r.op = 4 || !(d.hem.mode = .freerun && d.hem.io.source = 0)), .badState)]

/-- A Hem state by its code. -/
def modeOf : Nat → HemMode
  | 0 => .freerun
  | 1 => .acquiring
  | 2 => .locked
  | _ => .holdover

/-- TIME_ADJUST (R62, R63, R68). -/
def execTimeAdjust (h : Hdr) (r : TimeAdjustRec) (s : State) : Host.Outcome State Fault Refusal :=
  runMessage { code := 0x0204, lenOk := exactly 24, maxBody := 0 } h (fun who d =>
    setting (timeAdjustChecks who d r) d fun d =>
      match r.op with
      | 1 => d.stepBy (r.value * unitNs + (r.fraction * 2 ^ 32 : Nat))
      | 2 => d.timeStep (nsToAcc r.value.toNat r.nanoseconds + r.fraction * 2 ^ 32)
      | 3 => d.setIncr (incrOf r.freqAdj) r.freqAdj
      | _ => d.enterMode (modeOf r.state)) s

/-- HEM_COUNTERS_GET (R70, Table 2-11): the device's counters, then four for each port. -/
def execHemCountersGet (h : Hdr) (s : State) : Host.Outcome State Fault Refusal :=
  runMessage { code := 0x0205, lenOk := exactly 0, maxBody := 2048, changes := false } h (fun who d =>
    checked [(who.role == .tenant, .notPermitted)] d fun d =>
      let dev := ([.timeSteps, .holdoverEntries, .ppsInMissing, .ppsInSpurious, .todRxBad] : List Ctr).map fun c => d.ctr c 0 0
      let row (p : Nat) : List Nat :=
        ([.ptpRxTrapped, .ptpOneStep, .ptpTwoStep, .tsFifoOverflow] : List Ctr).map fun c => d.ctr c p 0
      (.list (dev ++ (List.range 96).flatMap row), d)) s

end Sys2Proof.Machine
end

