-- ==== Sys2Proof/Machine/Dispatch.lean ====
section
/-! DEFINITION. The dispatch: one arm per command, one direct call of its meaning. -/

namespace Sys2Proof.Machine

/-- The effect of a command on everything but the queue. -/
def exec (i : Instr) (s : State) : Host.Outcome State Fault Refusal :=
  match i with
  | .frameRxStart port fid lag bytes => Sys2Proof.Machine.execFrameRxStart port fid lag bytes s
  | .tenancyMapLookup fid => Sys2Proof.Machine.execTenancyMapLookup fid s
  | .rxNextPocket fid => Sys2Proof.Machine.execRxNextPocket fid s
  | .sliceOffer fid => Sys2Proof.Machine.execSliceOffer fid s
  | .frameRxEnd fid fcsOk => Sys2Proof.Machine.execFrameRxEnd fid fcsOk s
  | .macsecRxVerify fid => Sys2Proof.Machine.execMacsecRxVerify fid s
  | .macsecRxDeliver fid => Sys2Proof.Machine.execMacsecRxDeliver fid s
  | .fecCodewordDecode lane result => Sys2Proof.Machine.execFecCodewordDecode lane result s
  | .slotGrant sleeve work => Sys2Proof.Machine.execSlotGrant sleeve work s
  | .parse fid => Sys2Proof.Machine.execParse fid s
  | .payloadPatternMatch fid => Sys2Proof.Machine.execPayloadPatternMatch fid s
  | .fragmentLookup fid => Sys2Proof.Machine.execFragmentLookup fid s
  | .fragmentWriteBack fid => Sys2Proof.Machine.execFragmentWriteBack fid s
  | .fragSweepVisit sleeve => Sys2Proof.Machine.execFragSweepVisit sleeve s
  | .flowKeyBuild fid => Sys2Proof.Machine.execFlowKeyBuild fid s
  | .flowLookup fid ecc => Sys2Proof.Machine.execFlowLookup fid ecc s
  | .learnLookup fid ecc => Sys2Proof.Machine.execLearnLookup fid ecc s
  | .tcamSearch fid spurious missed => Sys2Proof.Machine.execTcamSearch fid spurious missed s
  | .meterAccess fid ecc => Sys2Proof.Machine.execMeterAccess fid ecc s
  | .colourAction fid => Sys2Proof.Machine.execColourAction fid s
  | .actionSelect fid => Sys2Proof.Machine.execActionSelect fid s
  | .forwardResolve fid => Sys2Proof.Machine.execForwardResolve fid s
  | .ttlCopyMirror fid => Sys2Proof.Machine.execTtlCopyMirror fid s
  | .rewriteCompile fid => Sys2Proof.Machine.execRewriteCompile fid s
  | .releaseClassify fid => Sys2Proof.Machine.execReleaseClassify fid s
  | .enqueueDecision fid => Sys2Proof.Machine.execEnqueueDecision fid s
  | .egressHandoff fid => Sys2Proof.Machine.execEgressHandoff fid s
  | .seamClaim port => Sys2Proof.Machine.execSeamClaim port s
  | .seamLaunch port => Sys2Proof.Machine.execSeamLaunch port s
  | .enqueue fid => Sys2Proof.Machine.execEnqueue fid s
  | .copyMirrorRead fid served => Sys2Proof.Machine.execCopyMirrorRead fid served s
  | .rxRingCopyWrite fn => Sys2Proof.Machine.execRxRingCopyWrite fn s
  | .spillWriteDone fid => Sys2Proof.Machine.execSpillWriteDone fid s
  | .spillReturn port queue => Sys2Proof.Machine.execSpillReturn port queue s
  | .spillReturnRetry port queue => Sys2Proof.Machine.execSpillReturnRetry port queue s
  | .calendarRelease port => Sys2Proof.Machine.execCalendarRelease port s
  | .schedulerSelect port => Sys2Proof.Machine.execSchedulerSelect port s
  | .frameTxStart port ecc => Sys2Proof.Machine.execFrameTxStart port ecc s
  | .frameTxEnd port => Sys2Proof.Machine.execFrameTxEnd port s
  | .cachePrefetch unit pool => Sys2Proof.Machine.execCachePrefetch unit pool s
  | .cacheIdleReturn unit => Sys2Proof.Machine.execCacheIdleReturn unit s
  | .cacheLowWaterReturn pool => Sys2Proof.Machine.execCacheLowWaterReturn pool s
  | .sojournCheck port => Sys2Proof.Machine.execSojournCheck port s
  | .linkDownFlush port => Sys2Proof.Machine.execLinkDownFlush port s
  | .linkHoldExpiry port => Sys2Proof.Machine.execLinkHoldExpiry port s
  | .laneLockAcquire lane kind => Sys2Proof.Machine.execLaneLockAcquire lane kind s
  | .laneLockLoss lane kind => Sys2Proof.Machine.execLaneLockLoss lane kind s
  | .synceResume out => Sys2Proof.Machine.execSynceResume out s
  | .remoteFaultRx port present => Sys2Proof.Machine.execRemoteFaultRx port present s
  | .downHoldExpiry port => Sys2Proof.Machine.execDownHoldExpiry port s
  | .anResolved port mode fec => Sys2Proof.Machine.execAnResolved port mode fec s
  | .trainingComplete port => Sys2Proof.Machine.execTrainingComplete port s
  | .trainingTimeout port => Sys2Proof.Machine.execTrainingTimeout port s
  | .upHoldExpiry port => Sys2Proof.Machine.execUpHoldExpiry port s
  | .cuffFenceDrained cuff => Sys2Proof.Machine.execCuffFenceDrained cuff s
  | .cuffMoveTimeout cuff => Sys2Proof.Machine.execCuffMoveTimeout cuff s
  | .portSettingEffect port dir => Sys2Proof.Machine.execPortSettingEffect port dir s
  | .ptpSettingEffect port dir => Sys2Proof.Machine.execPtpSettingEffect port dir s
  | .macsecSettingEffect port dir => Sys2Proof.Machine.execMacsecSettingEffect port dir s
  | .tenancyLossEffect port dir => Sys2Proof.Machine.execTenancyLossEffect port dir s
  | .hemTimeAdvance cycles => Sys2Proof.Machine.execHemTimeAdvance cycles s
  | .servoUpdate offsetNs freqAdj => Sys2Proof.Machine.execServoUpdate offsetNs freqAdj s
  | .sourceLost source => Sys2Proof.Machine.execSourceLost source s
  | .sourceValid source => Sys2Proof.Machine.execSourceValid source s
  | .ppsInEdge => Sys2Proof.Machine.execPpsInEdge s
  | .ppsInMissing => Sys2Proof.Machine.execPpsInMissing s
  | .ppsOutEdge => Sys2Proof.Machine.execPpsOutEdge s
  | .ppsOutPulseEnd => Sys2Proof.Machine.execPpsOutPulseEnd s
  | .todTx => Sys2Proof.Machine.execTodTx s
  | .todRx bytes => Sys2Proof.Machine.execTodRx bytes s
  | .flowIdleScan tenancy => Sys2Proof.Machine.execFlowIdleScan tenancy s
  | .learnEngineTurn sleeve => Sys2Proof.Machine.execLearnEngineTurn sleeve s
  | .learnScannerVisit sleeve => Sys2Proof.Machine.execLearnScannerVisit sleeve s
  | .generatorReseed => Sys2Proof.Machine.execGeneratorReseed s
  | .tcamScrubPassStart sleeve differing => Sys2Proof.Machine.execTcamScrubPassStart sleeve differing s
  | .tcamBandEval => Sys2Proof.Machine.execTcamBandEval s
  | .searchWindowBoundary sleeve => Sys2Proof.Machine.execSearchWindowBoundary sleeve s
  | .slotDrainComplete slot => Sys2Proof.Machine.execSlotDrainComplete slot s
  | .preparationStart => Sys2Proof.Machine.execPreparationStart s
  | .preparationComplete => Sys2Proof.Machine.execPreparationComplete s
  | .commitSlotReady => Sys2Proof.Machine.execCommitSlotReady s
  | .commitDeadline commit => Sys2Proof.Machine.execCommitDeadline commit s
  | .journalWriteDone ok => Sys2Proof.Machine.execJournalWriteDone ok s
  | .commitCycle => Sys2Proof.Machine.execCommitCycle s
  | .overlayDrain sleeve stage => Sys2Proof.Machine.execOverlayDrain sleeve stage s
  | .csScrubRead sleeve stage ecc => Sys2Proof.Machine.execCsScrubRead sleeve stage ecc s
  | .csWordRepair sleeve stage addr => Sys2Proof.Machine.execCsWordRepair sleeve stage addr s
  | .hookGenDrained => Sys2Proof.Machine.execHookGenDrained s
  | .gateEntryAdvance port => Sys2Proof.Machine.execGateEntryAdvance port s
  | .gateCycleBoundary port => Sys2Proof.Machine.execGateCycleBoundary port s
  | .gateConfigChange port => Sys2Proof.Machine.execGateConfigChange port s
  | .samplerTick port tenancy => Sys2Proof.Machine.execSamplerTick port tenancy s
  | .keyTakeEffect slot => Sys2Proof.Machine.execKeyTakeEffect slot s
  | .keyEraseComplete slot => Sys2Proof.Machine.execKeyEraseComplete slot s
  | .bulkJobStart => Sys2Proof.Machine.execBulkJobStart s
  | .bulkJobComplete engine => Sys2Proof.Machine.execBulkJobComplete engine s
  | .bulkKeyChange slot => Sys2Proof.Machine.execBulkKeyChange slot s
  | .bootEpochAdvance readback => Sys2Proof.Machine.execBootEpochAdvance readback s
  | .bootEpochRetry readback => Sys2Proof.Machine.execBootEpochRetry readback s
  | .dramCommandIssue channel => Sys2Proof.Machine.execDramCommandIssue channel s
  | .dramReadComplete channel ecc => Sys2Proof.Machine.execDramReadComplete channel ecc s
  | .dramSpareTakeover => Sys2Proof.Machine.execDramSpareTakeover s
  | .journalRecopyDone => Sys2Proof.Machine.execJournalRecopyDone s
  | .dramRefreshIntervalBoundary => Sys2Proof.Machine.execDramRefreshIntervalBoundary s
  | .dramRefreshSlot channel => Sys2Proof.Machine.execDramRefreshSlot channel s
  | .dramMr4Poll temps => Sys2Proof.Machine.execDramMr4Poll temps s
  | .dramIdleSrEntry channel => Sys2Proof.Machine.execDramIdleSrEntry channel s
  | .dramSrExit channel => Sys2Proof.Machine.execDramSrExit channel s
  | .dramRateChannelDone channel => Sys2Proof.Machine.execDramRateChannelDone channel s
  | .dramMigrationComplete => Sys2Proof.Machine.execDramMigrationComplete s
  | .dramSweepDone channel windows => Sys2Proof.Machine.execDramSweepDone channel windows s
  | .dramSystemScrub channel errors => Sys2Proof.Machine.execDramSystemScrub channel errors s
  | .dramTrainingDone passed => Sys2Proof.Machine.execDramTrainingDone passed s
  | .liningRecordWrite tenancy served => Sys2Proof.Machine.execLiningRecordWrite tenancy served s
  | .liningRingDrain => Sys2Proof.Machine.execLiningRingDrain s
  | .snapshotSweepDone tenancy => Sys2Proof.Machine.execSnapshotSweepDone tenancy s
  | .replayEpochSwitch sleeve => Sys2Proof.Machine.execReplayEpochSwitch sleeve s
  | .replayStreamEnd sleeve => Sys2Proof.Machine.execReplayStreamEnd sleeve s
  | .replayRestoreDone sleeve => Sys2Proof.Machine.execReplayRestoreDone sleeve s
  | .resScrubCommit res => Sys2Proof.Machine.execResScrubCommit res s
  | .resDrainDone res => Sys2Proof.Machine.execResDrainDone res s
  | .resUnitScrubDone res => Sys2Proof.Machine.execResUnitScrubDone res s
  | .resEpochIssue res => Sys2Proof.Machine.execResEpochIssue res s
  | .assignCounterTurn => Sys2Proof.Machine.execAssignCounterTurn s
  | .maintSessionExpiry fn session => Sys2Proof.Machine.execMaintSessionExpiry fn session s
  | .maintNotAfterCheck => Sys2Proof.Machine.execMaintNotAfterCheck s
  | .debugNonceExpiry => Sys2Proof.Machine.execDebugNonceExpiry s
  | .rollbackFuseBlow => Sys2Proof.Machine.execRollbackFuseBlow s
  | .claspHealthTestFail => Sys2Proof.Machine.execClaspHealthTestFail s
  | .drawTimeout => Sys2Proof.Machine.execDrawTimeout s
  | .helloExpiry fn => Sys2Proof.Machine.execHelloExpiry fn s
  | .watchdogExpiry core => Sys2Proof.Machine.execWatchdogExpiry core s
  | .coreTakeover => Sys2Proof.Machine.execCoreTakeover s
  | .heartbeatExpiry fn => Sys2Proof.Machine.execHeartbeatExpiry fn s
  | .irqCoalesceTimeout fn ring => Sys2Proof.Machine.execIrqCoalesceTimeout fn ring s
  | .reqRingEnableWrite fn on => Sys2Proof.Machine.execReqRingEnableWrite fn on s
  | .rspRingEnableWrite fn on => Sys2Proof.Machine.execRspRingEnableWrite fn on s
  | .rxRingEnableWrite fn on => Sys2Proof.Machine.execRxRingEnableWrite fn on s
  | .reqDoorbell fn tail unknown => Sys2Proof.Machine.execReqDoorbell fn tail unknown s
  | .rspHeadWrite fn index => Sys2Proof.Machine.execRspHeadWrite fn index s
  | .rxHeadWrite fn index => Sys2Proof.Machine.execRxHeadWrite fn index s
  | .heartbeatKick fn => Sys2Proof.Machine.execHeartbeatKick fn s
  | .bootGo fn => Sys2Proof.Machine.execBootGo fn s
  | .bootDoneClear fn => Sys2Proof.Machine.execBootDoneClear fn s
  | .hostLostClear fn => Sys2Proof.Machine.execHostLostClear fn s
  | .irqStatusClear fn mask => Sys2Proof.Machine.execIrqStatusClear fn mask s
  | .registerWrite fn reg value => Sys2Proof.Machine.execRegisterWrite fn reg value s
  | .drcSetSwap channel => Sys2Proof.Machine.execDrcSetSwap channel s
  | .drcModeRegisterAccess channel ok => Sys2Proof.Machine.execDrcModeRegisterAccess channel ok s
  | .drcTrainingRowAccess channel write => Sys2Proof.Machine.execDrcTrainingRowAccess channel write s
  | .drcReadCompare channel errors => Sys2Proof.Machine.execDrcReadCompare channel errors s
  | .barMisalignedAccess fn write => Sys2Proof.Machine.execBarMisalignedAccess fn write s
  | .pcieLinkUp speed width => Sys2Proof.Machine.execPcieLinkUp speed width s
  | .pcieLinkDown => Sys2Proof.Machine.execPcieLinkDown s
  | .hotReset => Sys2Proof.Machine.execHotReset s
  | .functionLevelReset fn => Sys2Proof.Machine.execFunctionLevelReset fn s
  | .busMasterClear fn => Sys2Proof.Machine.execBusMasterClear fn s
  | .busMasterSet fn => Sys2Proof.Machine.execBusMasterSet fn s
  | .d3hotEntry fn => Sys2Proof.Machine.execD3hotEntry fn s
  | .d0Return fn => Sys2Proof.Machine.execD0Return fn s
  | .vfEnableSet numVfs => Sys2Proof.Machine.execVfEnableSet numVfs s
  | .vfEnableClear => Sys2Proof.Machine.execVfEnableClear s
  | .configRequest fn write ctoValue => Sys2Proof.Machine.execConfigRequest fn write ctoValue s
  | .dmaCompletionArrival tag status => Sys2Proof.Machine.execDmaCompletionArrival tag status s
  | .completionTimeout tag => Sys2Proof.Machine.execCompletionTimeout tag s
  | .tagQuarantineEnd tag => Sys2Proof.Machine.execTagQuarantineEnd tag s
  | .reqRingFetchRetry fn => Sys2Proof.Machine.execReqRingFetchRetry fn s
  | .teardownFinish fn => Sys2Proof.Machine.execTeardownFinish fn s
  | .gussetVoltageEval => Sys2Proof.Machine.execGussetVoltageEval s
  | .pmbusReadback mv acked => Sys2Proof.Machine.execPmbusReadback mv acked s
  | .pmbusHoldoffEnd => Sys2Proof.Machine.execPmbusHoldoffEnd s
  | .pmbusAlert => Sys2Proof.Machine.execPmbusAlert s
  | .thermalSample temps => Sys2Proof.Machine.execThermalSample temps s
  | .ringOscSample site ratio slack => Sys2Proof.Machine.execRingOscSample site ratio slack s
  | .sramVminTest mv => Sys2Proof.Machine.execSramVminTest mv s
  | .serdesAdaptStep lane eye => Sys2Proof.Machine.execSerdesAdaptStep lane eye s
  | .dramWindowCheck channel windows centre => Sys2Proof.Machine.execDramWindowCheck channel windows centre s
  | .tcamMarginTest sleeve bank steps => Sys2Proof.Machine.execTcamMarginTest sleeve bank steps s
  | .flashOpCheck code => Sys2Proof.Machine.execFlashOpCheck code s
  | .flashDeferRecheck code => Sys2Proof.Machine.execFlashDeferRecheck code s
  | .flashOpComplete => Sys2Proof.Machine.execFlashOpComplete s
  | .flashWriteDeadline => Sys2Proof.Machine.execFlashWriteDeadline s
  | .powerFailAssert code => Sys2Proof.Machine.execPowerFailAssert code s
  | .powerFailDeassert => Sys2Proof.Machine.execPowerFailDeassert s
  | .postmortemBufferRefresh => Sys2Proof.Machine.execPostmortemBufferRefresh s
  | .historyAppend kind => Sys2Proof.Machine.execHistoryAppend kind s
  | .islandPowerOnReset => Sys2Proof.Machine.execIslandPowerOnReset s
  | .perstRelease fusesOk => Sys2Proof.Machine.execPerstRelease fusesOk s
  | .perstAssert => Sys2Proof.Machine.execPerstAssert s
  | .railFault => Sys2Proof.Machine.execRailFault s
  | .romImageSelect flashOk => Sys2Proof.Machine.execRomImageSelect flashOk s
  | .firmwareStart => Sys2Proof.Machine.execFirmwareStart s
  | .firmwareReady => Sys2Proof.Machine.execFirmwareReady s
  | .sleevesEnable => Sys2Proof.Machine.execSleevesEnable s
  | .ejectRequest => Sys2Proof.Machine.execEjectRequest s
  | .ejectCancel => Sys2Proof.Machine.execEjectCancel s
  | .ejectGraceExpiry => Sys2Proof.Machine.execEjectGraceExpiry s
  | .ejectReady => Sys2Proof.Machine.execEjectReady s
  | .fwStoreComplete ok => Sys2Proof.Machine.execFwStoreComplete ok s
  | .fwSwitchLoaded => Sys2Proof.Machine.execFwSwitchLoaded s
  | .fwSwitchResume => Sys2Proof.Machine.execFwSwitchResume s
  | .fwSwitchTimeout => Sys2Proof.Machine.execFwSwitchTimeout s
  | .patchRollSleeveDone passed => Sys2Proof.Machine.execPatchRollSleeveDone passed s
  | .svcOutOfServiceDone => Sys2Proof.Machine.execSvcOutOfServiceDone s
  | .svcDeadline => Sys2Proof.Machine.execSvcDeadline s
  | .svcTestDone passed => Sys2Proof.Machine.execSvcTestDone passed s
  | .coreHandoverDone => Sys2Proof.Machine.execCoreHandoverDone s
  | .refclkStop => Sys2Proof.Machine.execRefclkStop s
  | .srdRefclkLoss bank => Sys2Proof.Machine.execSrdRefclkLoss bank s
  | .smbusSampleUpdate => Sys2Proof.Machine.execSmbusSampleUpdate s
  | .smbusTj => Sys2Proof.Machine.execSmbusTj s
  | .smbusStage => Sys2Proof.Machine.execSmbusStage s
  | .smbusFlags => Sys2Proof.Machine.execSmbusFlags s
  | .smbusCoreMv => Sys2Proof.Machine.execSmbusCoreMv s
  | .smbusEom => Sys2Proof.Machine.execSmbusEom s
  | .smbusSensors => Sys2Proof.Machine.execSmbusSensors s
  | .smbusAlertResponse => Sys2Proof.Machine.execSmbusAlertResponse s
  | .smbusWriteNack => Sys2Proof.Machine.execSmbusWriteNack s
  | .jtagInstruction inst => Sys2Proof.Machine.execJtagInstruction inst s
  | .slotShareSet h r => Sys2Proof.Machine.execSlotShareSet h r s
  | .slotStatusGet h sleeve => Sys2Proof.Machine.execSlotStatusGet h sleeve s
  | .ptpPortSet h r => Sys2Proof.Machine.execPtpPortSet h r s
  | .timeStatusGet h => Sys2Proof.Machine.execTimeStatusGet h s
  | .timeIoSet h r => Sys2Proof.Machine.execTimeIoSet h r s
  | .timeAdjust h r => Sys2Proof.Machine.execTimeAdjust h r s
  | .hemCountersGet h => Sys2Proof.Machine.execHemCountersGet h s
  | .cuffAttach h r => Sys2Proof.Machine.execCuffAttach h r s
  | .portConfigSet h r => Sys2Proof.Machine.execPortConfigSet h r s
  | .portStatusGet h port => Sys2Proof.Machine.execPortStatusGet h port s
  | .macStatsGet h port => Sys2Proof.Machine.execMacStatsGet h port s
  | .parsePortSet h r => Sys2Proof.Machine.execParsePortSet h r s
  | .patternSet h r => Sys2Proof.Machine.execPatternSet h r s
  | .patternClear h index => Sys2Proof.Machine.execPatternClear h index s
  | .fragConfigSet h r => Sys2Proof.Machine.execFragConfigSet h r s
  | .parseStatsGet h kind unit tenancy => Sys2Proof.Machine.execParseStatsGet h kind unit tenancy s
  | .flowProfileSet h r => Sys2Proof.Machine.execFlowProfileSet h r s
  | .flowAdd h r => Sys2Proof.Machine.execFlowAdd h r s
  | .flowDel h r => Sys2Proof.Machine.execFlowDel h r s
  | .flowRead h => Sys2Proof.Machine.execFlowRead h s
  | .learnPolicySet h r => Sys2Proof.Machine.execLearnPolicySet h r s
  | .learnQuotaSet h r => Sys2Proof.Machine.execLearnQuotaSet h r s
  | .learnPortSet h r => Sys2Proof.Machine.execLearnPortSet h r s
  | .learnStaticSet h r => Sys2Proof.Machine.execLearnStaticSet h r s
  | .learnFlush h r => Sys2Proof.Machine.execLearnFlush h r s
  | .learnRead h sleeve => Sys2Proof.Machine.execLearnRead h sleeve s
  | .tableStatsGet h sleeve => Sys2Proof.Machine.execTableStatsGet h sleeve s
  | .tcamProfileSet h r => Sys2Proof.Machine.execTcamProfileSet h r s
  | .tcamWrite h r => Sys2Proof.Machine.execTcamWrite h r s
  | .tcamClear h index => Sys2Proof.Machine.execTcamClear h index s
  | .tcamIterate h r => Sys2Proof.Machine.execTcamIterate h r s
  | .tcamThrottleSet h r => Sys2Proof.Machine.execTcamThrottleSet h r s
  | .tcamStatusGet h sleeve => Sys2Proof.Machine.execTcamStatusGet h sleeve s
  | .tblCommit h deadlineMs => Sys2Proof.Machine.execTblCommit h deadlineMs s
  | .tblAbort h => Sys2Proof.Machine.execTblAbort h s
  | .versionStatusGet h => Sys2Proof.Machine.execVersionStatusGet h s
  | .actTenancySet h r => Sys2Proof.Machine.execActTenancySet h r s
  | .floodGroupSet h r => Sys2Proof.Machine.execFloodGroupSet h r s
  | .mirrorSessionSet h r => Sys2Proof.Machine.execMirrorSessionSet h r s
  | .copyLimitSet h r => Sys2Proof.Machine.execCopyLimitSet h r s
  | .actionSet h r => Sys2Proof.Machine.execActionSet h r s
  | .actionClear h index => Sys2Proof.Machine.execActionClear h index s
  | .actStatsGet h => Sys2Proof.Machine.execActStatsGet h s
  | .templateSet h r => Sys2Proof.Machine.execTemplateSet h r s
  | .ucodeLoad h r img => Sys2Proof.Machine.execUcodeLoad h r img s
  | .ucodeAccept h r => Sys2Proof.Machine.execUcodeAccept h r s
  | .ucodeActivate h r => Sys2Proof.Machine.execUcodeActivate h r s
  | .custMemWrite h r => Sys2Proof.Machine.execCustMemWrite h r s
  | .custMemRead h r => Sys2Proof.Machine.execCustMemRead h r s
  | .ucodeStatusGet h => Sys2Proof.Machine.execUcodeStatusGet h s
  | .poolSet h r => Sys2Proof.Machine.execPoolSet h r s
  | .queueBufSet h r => Sys2Proof.Machine.execQueueBufSet h r s
  | .bufGlobalSet h regionMib => Sys2Proof.Machine.execBufGlobalSet h regionMib s
  | .yokeStatsGet h => Sys2Proof.Machine.execYokeStatsGet h s
  | .poolStatusGet h pool pocket => Sys2Proof.Machine.execPoolStatusGet h pool pocket s
  | .meterBind h r => Sys2Proof.Machine.execMeterBind h r s
  | .meterUnbind h index => Sys2Proof.Machine.execMeterUnbind h index s
  | .meterTenancySet h r => Sys2Proof.Machine.execMeterTenancySet h r s
  | .meterStatsGet h index => Sys2Proof.Machine.execMeterStatsGet h index s
  | .schedPortSet h r => Sys2Proof.Machine.execSchedPortSet h r s
  | .schedQueueSet h r => Sys2Proof.Machine.execSchedQueueSet h r s
  | .gateConfigSet h r => Sys2Proof.Machine.execGateConfigSet h r s
  | .gateEntriesSet h r => Sys2Proof.Machine.execGateEntriesSet h r s
  | .samplerQuotaSet h r => Sys2Proof.Machine.execSamplerQuotaSet h r s
  | .samplerSet h r => Sys2Proof.Machine.execSamplerSet h r s
  | .sampleRead h maxRecords => Sys2Proof.Machine.execSampleRead h maxRecords s
  | .schedStatsGet h kind unit => Sys2Proof.Machine.execSchedStatsGet h kind unit s
  | .gateStatusGet h port => Sys2Proof.Machine.execGateStatusGet h port s
  | .relProfileSet h r => Sys2Proof.Machine.execRelProfileSet h r s
  | .relProfileClear h index => Sys2Proof.Machine.execRelProfileClear h index s
  | .relTenancySet h flags => Sys2Proof.Machine.execRelTenancySet h flags s
  | .relPortSet h port calLimit => Sys2Proof.Machine.execRelPortSet h port calLimit s
  | .relStatsGet h kind unit => Sys2Proof.Machine.execRelStatsGet h kind unit s
  | .relProfileRead h index => Sys2Proof.Machine.execRelProfileRead h index s
  | .macsecPortSet h r => Sys2Proof.Machine.execMacsecPortSet h r s
  | .macsecScSet h r => Sys2Proof.Machine.execMacsecScSet h r s
  | .macsecTxAnSet h sc an => Sys2Proof.Machine.execMacsecTxAnSet h sc an s
  | .keyLoad h r => Sys2Proof.Machine.execKeyLoad h r s
  | .keyErase h r => Sys2Proof.Machine.execKeyErase h r s
  | .macsecSaStatusGet h slot => Sys2Proof.Machine.execMacsecSaStatusGet h slot s
  | .bulkOpen h r => Sys2Proof.Machine.execBulkOpen h r s
  | .bulkSegment h r => Sys2Proof.Machine.execBulkSegment h r s
  | .bulkClose h message => Sys2Proof.Machine.execBulkClose h message s
  | .bulkConfigSet h quota => Sys2Proof.Machine.execBulkConfigSet h quota s
  | .macsecStatsGet h port => Sys2Proof.Machine.execMacsecStatsGet h port s
  | .bulkStatsGet h => Sys2Proof.Machine.execBulkStatsGet h s
  | .dramConfigSet h r => Sys2Proof.Machine.execDramConfigSet h r s
  | .dramChannelSet h r => Sys2Proof.Machine.execDramChannelSet h r s
  | .dramStatusGet h => Sys2Proof.Machine.execDramStatusGet h s
  | .recStoreSet h r => Sys2Proof.Machine.execRecStoreSet h r s
  | .recArm h r => Sys2Proof.Machine.execRecArm h r s
  | .recTrigger h => Sys2Proof.Machine.execRecTrigger h s
  | .recStop h => Sys2Proof.Machine.execRecStop h s
  | .recClear h => Sys2Proof.Machine.execRecClear h s
  | .recExport h r => Sys2Proof.Machine.execRecExport h r s
  | .recStatusGet h => Sys2Proof.Machine.execRecStatusGet h s
  | .replayRun h r => Sys2Proof.Machine.execReplayRun h r s
  | .replayAbort h sleeve => Sys2Proof.Machine.execReplayAbort h sleeve s
  | .replayReportRead h maxEntries => Sys2Proof.Machine.execReplayReportRead h maxEntries s
  | .portTenancySet h r => Sys2Proof.Machine.execPortTenancySet h r s
  | .resAssign h r => Sys2Proof.Machine.execResAssign h r s
  | .resStatusGet h kind => Sys2Proof.Machine.execResStatusGet h kind s
  | .ownerKeySet h key sigOk => Sys2Proof.Machine.execOwnerKeySet h key sigOk s
  | .tenantEnrol h r => Sys2Proof.Machine.execTenantEnrol h r s
  | .rollbackAdvance h target => Sys2Proof.Machine.execRollbackAdvance h target s
  | .attestGet h nonce => Sys2Proof.Machine.execAttestGet h nonce s
  | .debugNonceGet h => Sys2Proof.Machine.execDebugNonceGet h s
  | .debugUnlock h owner vendor => Sys2Proof.Machine.execDebugUnlock h owner vendor s
  | .sessionHello h hostNonce => Sys2Proof.Machine.execSessionHello h hostNonce s
  | .sessionOpen h r => Sys2Proof.Machine.execSessionOpen h r s
  | .sessionClose h => Sys2Proof.Machine.execSessionClose h s
  | .eventMaskSet h mask => Sys2Proof.Machine.execEventMaskSet h mask s
  | .mbxStatsGet h => Sys2Proof.Machine.execMbxStatsGet h s
  | .hostStatusGet h => Sys2Proof.Machine.execHostStatusGet h s
  | .gusConfigSet h r => Sys2Proof.Machine.execGusConfigSet h r s
  | .gusStatusGet h => Sys2Proof.Machine.execGusStatusGet h s
  | .gusHistoryRead h first count => Sys2Proof.Machine.execGusHistoryRead h first count s
  | .gusPostmortemRead h slot => Sys2Proof.Machine.execGusPostmortemRead h slot s
  | .svcUnitSet h r => Sys2Proof.Machine.execSvcUnitSet h r s
  | .svcTest h r => Sys2Proof.Machine.execSvcTest h r s
  | .svcStatusGet h => Sys2Proof.Machine.execSvcStatusGet h s
  | .fwStore h r => Sys2Proof.Machine.execFwStore h r s
  | .fwSwitch h digest => Sys2Proof.Machine.execFwSwitch h digest s
  | .fwCommit h digest => Sys2Proof.Machine.execFwCommit h digest s
  | .patchRoll h digest => Sys2Proof.Machine.execPatchRoll h digest s
  | .ejectConfigSet h r => Sys2Proof.Machine.execEjectConfigSet h r s
  | .svcEject h op => Sys2Proof.Machine.execSvcEject h op s
  | .bootInfo h => Sys2Proof.Machine.execBootInfo h s
  | .bootImageLoad h len img => Sys2Proof.Machine.execBootImageLoad h len img s
  | .ucodeActivateTimeout => Sys2Proof.Machine.execUcodeActivateTimeout s
  | .dramChannelTimeout => Sys2Proof.Machine.execDramChannelTimeout s
  | .scrubQueueDiscard port queue => Sys2Proof.Machine.execScrubQueueDiscard port queue s
  | .ejectFlashAbandon => Sys2Proof.Machine.execEjectFlashAbandon s

end Sys2Proof.Machine
end

