-- ==== Sys2Proof/Safety.lean ====
section
/-! DEFINITION. What counts as a safe run and a served request, in the terms the claims use. -/

namespace Sys2Proof.Machine

/-- The device runs: powered, out of reset, not shut down and not in an undefined state. -/
def State.On (s : State) : Prop := s.dev.power = .on

/-- No event waits: every event that a command raised has been delivered, held or counted (R421 to R423). -/
def State.Settled (s : State) : Prop := s.dev.outbox = []

/-- From `s` the command answers a next state with the same waiting commands, whose device satisfies `Q`. -/
def Runs (c : Instr) (s : State) (Q : Dev → Prop) : Prop :=
  ∃ t, exec c s = .next t ∧ t.pending = s.pending ∧ Q t.dev

/-- The request `h` with the opcode facts `o` is the next that the Collar starts, and passes every check of R417 that
comes before its opcode's own rules; `x` is its session. -/
structure State.Serves (s : State) (o : OpSpec) (h : Hdr) (x : Session) : Prop where
  power : s.dev.power = .on
  rom : s.dev.romHolds h = false
  first : h.boot = true ∨ (s.dev.mbox h.fn).unknown = []
  start : s.dev.canStart o h = true
  framed : h.boot = true ∨ misframed h (s.dev.mbox h.fn) = false
  envelope : envelope o h s.dev = none
  session : s.dev.session h.fn h.session = some x
  permitted : x.role = .maint → o.changes = false
  ready : o.early = true ∨ s.dev.boot.ready = true
  place : o.canAsync = true → h.flags.testBit 0 = true → h.boot = false → (s.dev.mbox h.fn).asyncs.length < 32

/-- The request `h` with the opcode facts `o` is the next that the Collar starts, and its framing is right (step 1 of
R417). -/
structure State.Starts (s : State) (o : OpSpec) (h : Hdr) : Prop where
  power : s.dev.power = .on
  rom : s.dev.romHolds h = false
  first : h.boot = true ∨ (s.dev.mbox h.fn).unknown = []
  start : s.dev.canStart o h = true
  framed : h.boot = true ∨ misframed h (s.dev.mbox h.fn) = false

/-- The request's seal flag is that of its session, and the seal of a sealed session is good (steps 2 and 3 of R417). -/
def sealGood (h : Hdr) : Prop :=
  h.flags.testBit 1 = (h.session != 0) ∧ (h.session ≠ 0 → h.sealOk = true)

/-- One slot of the four is CURRENT, and at most one is PREPARING or PREPARED (R172). -/
def Dev.slotsLegal (d : Dev) : Prop :=
  (∃ c, c < 4 ∧ ∀ v, v < 4 → ((d.vslot v).state = .current ↔ v = c)) ∧
  ∀ u v, u < 4 → v < 4 → (d.vslot u).state ∈ [SlotState.preparing, .prepared] →
    (d.vslot v).state ∈ [SlotState.preparing, .prepared] → u = v

/-- The sender of the request `h` on session `x`, as an opcode's own rules see it: its role, its tenancy and the epoch
that it expects. No rule of an opcode reads the rest of the token. -/
def Session.sends (x : Session) (h : Hdr) : Sender :=
  { role := x.role, tenancy := x.tenancy, epoch := h.epoch, fn := h.fn, session := h.session,
    tok := { fn := h.fn, session := h.session, tenancy := h.tenancy, seq := h.seq, code := 0, isAsync := false,
             reserve := 0, boot := h.boot, serial := x.serial } }

/-- The request came through a ring whose response ring can be written (R409, R449). -/
structure State.Hears (s : State) (h : Hdr) : Prop where
  ring : h.boot = false
  write : s.dev.canWrite h.fn = true

/-- The response ring of the request's function holds the response to it, with this status and body (R410). -/
def Dev.Replied (d : Dev) (h : Hdr) (st : Status) (body : List Nat) : Prop :=
  ∃ e ∈ (d.mbox h.fn).entries,
    e.requestSeq = h.seq ∧ e.session = h.session ∧ e.tenancy = h.tenancy ∧ e.status = st ∧ e.body = body

/-- Packet `fid` is the frame `f`, received by a Cuff and on its first pass, stands at phase `ph`, and no routine of the
customer is bound to any stage (R209), so that a row of the pipeline has its own effect alone. -/
structure State.Plain (s : State) (fid : Nat) (f : Frame) (ph : Phase) : Prop where
  power : s.dev.power = .on
  frame : s.dev.frame fid = some f
  phase : f.phase = ph
  origin : f.origin = .cuff
  pass : f.pass = 0
  hooks : ∀ k, s.dev.micro.hooks.get? k = none

/-- The data path: the device with everything erased that counting, raising, answering and delivering events may change
(R409, R421 to R424, R468): the free values drawn, the events on their way, the counters, the Lining's captures, the
mailboxes, the endpoint and the buffer of events. -/
def Dev.data (d : Dev) : Dev :=
  { d with rnd := 0, outbox := [], lastSeen := [], counters := [], lining := .reset, mbx := .reset, host := .reset,
           gus := .reset }

/-- The commands that a device in reset or shut down still takes: the resets and the rails, the persistent-store island,
the SMBus and JTAG (R402, R459, R475, R510, R513, R515). -/
def atRest : Instr → Bool
  | .perstAssert => true
  | .perstRelease _ => true
  | .railFault => true
  | .refclkStop => true
  | .islandPowerOnReset => true
  | .flashOpCheck _ => true
  | .flashDeferRecheck _ => true
  | .flashOpComplete => true
  | .powerFailAssert _ => true
  | .powerFailDeassert => true
  | .smbusTj => true
  | .smbusStage => true
  | .smbusFlags => true
  | .smbusCoreMv => true
  | .smbusEom => true
  | .smbusSensors => true
  | .smbusAlertResponse => true
  | .smbusWriteNack => true
  | .jtagInstruction _ => true
  | _ => false

/-- The commands that take effect in every state: those of R475 and R513, and those of the persistent-store island, which
answers to its own reset (R510). -/
def alwaysTakes : Instr → Bool
  | .perstAssert => true
  | .perstRelease _ => true
  | .railFault => true
  | .refclkStop => true
  | .islandPowerOnReset => true
  | .flashOpCheck _ => true
  | .flashDeferRecheck _ => true
  | .flashOpComplete => true
  | .powerFailAssert _ => true
  | .powerFailDeassert => true
  | _ => false

end Sys2Proof.Machine
end

