-- ==== Sys2Proof/Certificates/Slice0/Obligations.lean ====
section
/-! DEFINITION. The statements for the provers: one per family of commands, with a completion clause for every command,
and the statements about steps, power, requests, rings and version slots. -/

open Sys2Proof Sys2Proof.Machine

/-- 01: the slot arbiter and its messages. -/
def Obligations.SlotCommandsRun : Prop :=
  (∀ (k n : Nat) (work : List SlotWork) (s : State), s.On → k < 7 → (s.dev.sleeve k).lastGrant = some n →
    n < s.dev.now → (s.dev.sleeve k).owed = none →
    Runs (.slotGrant k work) s fun d =>
      d = (work.foldl (fun d w => d.queueWork k w)
        (Dev.grantSlot ((s.dev.setSleeve k { (s.dev.sleeve k).accrue s.dev.now with lastGrant := some s.dev.now }).bump
          .slotsIdle k 0 (s.dev.now - n - 1)) k)).flush) ∧
  (∀ (h : Hdr) (r : SlotShareRec) (s : State) (x : Session),
    s.Serves { code := 0x0101, lenOk := exactly 16, maxBody := 0 } h x → s.Hears h → x.role = .owner → r.sleeve ≤ 6 →
    1 ≤ r.replay → r.replay ≤ 1024 → r.recirc + r.inject + r.housekeeping ≤ 256 →
    16 ≤ r.updateGap → r.updateGap ≤ 65535 →
    (r.flags.testBit 0 = true ∨ withinBudget (s.dev.portsOf r.sleeve) (sharesOf r) = true) →
    Runs (.slotShareSet h r) s fun d => d.Replied h .ok [] ∧
      d.data = (s.dev.setSleeve r.sleeve
        { (s.dev.sleeve r.sleeve).accrue s.dev.now with shares := sharesOf r }).data) ∧
  (∀ (h : Hdr) (k : Nat) (s : State) (x : Session),
    s.Serves { code := 0x0102, lenOk := fun _ => true, maxBody := 256, changes := false } h x → s.Hears h →
    x.role ≠ .tenant → k ≤ 6 →
    Runs (.slotStatusGet h k) s fun d =>
      d.Replied h .ok (slotCounters s.dev k ++ [(s.dev.sleeve k).urgentWait] ++ shareFields (s.dev.sleeve k).shares) ∧
      d.data = (s.dev.setSleeve k { s.dev.sleeve k with urgentWait := 0 }).data)

/-- 02: the advance of network time (R45), and the servo and its sources (R60, R61). -/
def Obligations.HemTimeCommandsRun : Prop :=
  (∀ (n : Nat) (s : State), s.On →
    Runs (.hemTimeAdvance n) s fun d => d =
      Dev.flush { s.dev with
        now := s.dev.now + n
        hem := { s.dev.hem with acc := (s.dev.hem.acc + n * s.dev.hem.incr) % unitWrap } }) ∧
  (∀ (o a : Int) (s : State), s.On → s.dev.servoRuns = true → s.dev.hem.mode = .locked → o.natAbs ≤ 100 →
    a.natAbs ≤ s.dev.hem.io.slewMax →
    Runs (.servoUpdate o a) s fun d => d.hem.acc = s.dev.hem.acc ∧ d.hem.stepGen = s.dev.hem.stepGen ∧
      d.hem.incr = incrOf a ∧ d.hem.offsetNs = o ∧ d.hem.mode = .locked) ∧
  (∀ (o a : Int) (s : State), s.On → s.dev.servoRuns = true → s.dev.hem.mode = .acquiring →
    s.dev.hem.io.stepThreshold < o.natAbs → 100 < o.natAbs →
    Runs (.servoUpdate o a) s fun d => d = (Dev.judgeLock
      (Dev.stepBy { s.dev with hem := { s.dev.hem with offsetNs := o } } (-(o * (unitNs : Int)))) o).flush) ∧
  (∀ (k : Nat) (s : State), s.On → k ≠ 0 → s.dev.hem.io.source = k → k ∈ s.dev.hem.valid →
    s.dev.hem.io.servoMode = 0 → s.dev.hem.mode = .locked →
    Runs (.sourceLost k) s fun d => d.hem.valid = s.dev.hem.valid.filter (· != k) ∧
      d.hem.acc = s.dev.hem.acc ∧ (s.dev.hem.everLocked = true → d.hem.mode = .holdover ∧
        d.hem.incr = s.dev.holdoverMean)) ∧
  (∀ (k : Nat) (s : State), s.On → k ≠ 0 → s.dev.hem.io.source = k → s.dev.hem.io.servoMode = 0 →
    (s.dev.hem.mode = .freerun ∨ s.dev.hem.mode = .holdover) →
    Runs (.sourceValid k) s fun d => d.hem.mode = .acquiring ∧ k ∈ d.hem.valid ∧ d.hem.acc = s.dev.hem.acc ∧
      d.hem.incr = s.dev.hem.incr)

/-- 02: the time inputs and outputs (R56 to R59) and the settings of a port's timestamps (R55). -/
def Obligations.HemSignalCommandsRun : Prop :=
  (∀ (s : State), s.On → (∀ t, s.dev.hem.ppsInAt = some t → t + 1500000000 ≤ s.dev.now) →
    Runs .ppsInEdge s fun d => d.hem.ppsInAt = some s.dev.now ∧ d.hem.ppsInStamp % 2 ^ 45 = 0 ∧
      d.ctr .ppsInSpurious 0 0 = s.dev.ctr .ppsInSpurious 0 0) ∧
  (∀ (s : State) (t : Nat), s.On → s.dev.hem.ppsInAt = some t → t + 3300000000 ≤ s.dev.now →
    Runs .ppsInMissing s fun d => d.hem.ppsInAt = none ∧
      d.ctr .ppsInMissing 0 0 = (s.dev.ctr .ppsInMissing 0 0 + 1) % 2 ^ 64) ∧
  (∀ (s : State), s.On → s.dev.hem.io.ppsOutFlags.testBit 0 = true →
    (s.dev.hem.mode ≠ .freerun ∨ s.dev.hem.io.ppsOutFlags.testBit 1 = true) →
    (∀ t, s.dev.hem.ppsOutAt = some t → t + 1500000000 ≤ s.dev.now) → s.dev.ppsTime % unitS < s.dev.hem.incr →
    Runs .ppsOutEdge s fun d => d = Dev.flush { s.dev with hem := { s.dev.hem with
      ppsOut := true, ppsOutAt := some s.dev.now, ppsOutSec := s.dev.ppsTime / unitS } }) ∧
  (∀ (s : State) (t : Nat), s.On → s.dev.hem.ppsOut = true → s.dev.hem.ppsOutAt = some t →
    t + 3 * s.dev.hem.io.ppsOutWidth ≤ s.dev.now →
    Runs .ppsOutPulseEnd s fun d => d = Dev.flush { s.dev with hem := { s.dev.hem with ppsOut := false } }) ∧
  (∀ (s : State) (t : Nat), s.On → s.dev.hem.ppsOutAt = some t → s.dev.hem.io.todDir = 2 →
    t + 10 * cyclesPerMs ≤ s.dev.now → s.dev.hem.todFor ≠ some t →
    Runs .todTx s fun d => d.hem.todFor = some t ∧
      ∃ a b, d.hem.todSent = s.dev.todMessage a b :: s.dev.hem.todSent) ∧
  (∀ (bs : List Nat) (s : State), s.On → s.dev.hem.io.todDir = 1 → todGood bs = true → s.dev.hem.ppsInAt ≠ none →
    Runs (.todRx bs) s fun d => d = Dev.flush { s.dev with hem := { s.dev.hem with todIn := some bs } }) ∧
  (∀ (bs : List Nat) (s : State), s.On → s.dev.hem.io.todDir = 1 → todGood bs = false →
    Runs (.todRx bs) s fun d => d.hem = s.dev.hem ∧
      d.ctr .todRxBad 0 0 = (s.dev.ctr .todRxBad 0 0 + 1) % 2 ^ 64) ∧
  (∀ (s : State) (t : Nat), s.On → s.dev.hem.sync0.relockAt = some t → t + 100 * cyclesPerMs ≤ s.dev.now →
    Runs (.synceResume 0) s fun d => d = Dev.flush { s.dev with hem := { s.dev.hem with
      sync0 := { running := true, relockAt := none } } }) ∧
  (∀ (s : State) (t : Nat), s.On → s.dev.hem.sync1.relockAt = some t → t + 100 * cyclesPerMs ≤ s.dev.now →
    Runs (.synceResume 1) s fun d => d = Dev.flush { s.dev with hem := { s.dev.hem with
      sync1 := { running := true, relockAt := none } } }) ∧
  (∀ (p : Nat) (x : PtpPort) (s : State), s.On → s.dev.hem.ptpNextRx.get? p = some x →
    (s.dev.port p).rxFrame = none →
    Runs (.ptpSettingEffect p .rx) s fun d => d = Dev.flush { s.dev with hem := { s.dev.hem with
      ptpRx := s.dev.hem.ptpRx.set p x, ptpNextRx := s.dev.hem.ptpNextRx.del p } }) ∧
  (∀ (p : Nat) (x : PtpPort) (s : State), s.On → s.dev.hem.ptpNextTx.get? p = some x →
    (s.dev.port p).txFrame = none →
    Runs (.ptpSettingEffect p .tx) s fun d => d = Dev.flush { s.dev with hem := { s.dev.hem with
      ptpTx := s.dev.hem.ptpTx.set p x, ptpNextTx := s.dev.hem.ptpNextTx.del p } })

/-- 02: the messages of time (R55, R62, R68 to R70). -/
def Obligations.HemMessagesRun : Prop :=
  (∀ (h : Hdr) (r : PtpPortRec) (s : State) (x : Session),
    s.Serves { code := 0x0201, lenOk := exactly 12, maxBody := 0 } h x → s.Hears h → x.role = .owner → r.port ≤ 95 →
    (r.flags.testBit 0 = true → bits r.flags 1 3 ≠ 0) → r.ingressAsym.natAbs ≤ 2 ^ 31 →
    r.egressAsym.natAbs ≤ 2 ^ 31 →
    Runs (.ptpPortSet h r) s fun d => d.Replied h .ok [] ∧ d.hem.acc = s.dev.hem.acc ∧
      d.hem.ptpRx = s.dev.hem.ptpRx ∧ d.hem.ptpTx = s.dev.hem.ptpTx ∧
      d.hem.ptpNextRx.get? r.port = some ⟨r.flags % 32, r.domain % 256, r.ingressAsym, r.egressAsym⟩ ∧
      d.hem.ptpNextTx.get? r.port = some ⟨r.flags % 32, r.domain % 256, r.ingressAsym, r.egressAsym⟩) ∧
  (∀ (h : Hdr) (s : State) (x : Session),
    s.Serves { code := 0x0202, lenOk := exactly 0, maxBody := 32, open0 := true, changes := false } h x → s.Hears h →
    s.dev.hem.io.source = 0 →
    Runs (.timeStatusGet h) s fun d => d.Replied h .ok
        [s.dev.stamp.sec, s.dev.stamp.ns, s.dev.stamp.frac, s.dev.hem.mode.code, s.dev.stamp.gen,
         wrap 16 s.dev.hem.utcOffset, s.dev.hem.clockClass, 0, 0xFFFF, wrap 32 s.dev.hem.freqAdj,
         wrap 32 s.dev.hem.offsetNs] ∧
      d.data = s.dev.data) ∧
  (∀ (h : Hdr) (r : TimeIoRec) (s : State) (x : Session),
    s.Serves { code := 0x0203, lenOk := exactly 36, maxBody := 0 } h x → s.Hears h → x.role = .owner →
    timeIoBad r = false → r.servoMode = s.dev.hem.io.servoMode →
    Runs (.timeIoSet h r) s fun d => d.Replied h .ok [] ∧
      d.hem.io = { r with ppsOutFlags := r.ppsOutFlags % 4 } ∧ d.hem.mode = s.dev.hem.mode ∧
      d.hem.acc = s.dev.hem.acc ∧ d.hem.incr = s.dev.hem.incr) ∧
  (∀ (h : Hdr) (r : TimeAdjustRec) (s : State) (x : Session),
    s.Serves { code := 0x0204, lenOk := exactly 24, maxBody := 0 } h x → s.Hears h → x.role = .owner → r.op = 3 →
    timeAdjustBad r = false → s.dev.hem.io.servoMode = 1 →
    Runs (.timeAdjust h r) s fun d => d.Replied h .ok [] ∧ d.hem.incr = incrOf r.freqAdj ∧
      d.hem.freqAdj = r.freqAdj ∧ d.hem.acc = s.dev.hem.acc ∧ d.hem.stepGen = s.dev.hem.stepGen) ∧
  (∀ (h : Hdr) (s : State) (x : Session),
    s.Serves { code := 0x0205, lenOk := exactly 0, maxBody := 2048, changes := false } h x → s.Hears h →
    x.role ≠ .tenant →
    Runs (.hemCountersGet h) s fun d => d.data = s.dev.data ∧ d.Replied h .ok
      ([s.dev.ctr .timeSteps 0 0, s.dev.ctr .holdoverEntries 0 0, s.dev.ctr .ppsInMissing 0 0,
        s.dev.ctr .ppsInSpurious 0 0, s.dev.ctr .todRxBad 0 0] ++
       (List.range 96).flatMap fun p => [s.dev.ctr .ptpRxTrapped p 0, s.dev.ctr .ptpOneStep p 0,
         s.dev.ctr .ptpTwoStep p 0, s.dev.ctr .tsFifoOverflow p 0]))

/-- 03: the reception of a frame up to the offer of its slice, and its end (R18, R19, R88, R237, R378). -/
def Obligations.ReceptionCommandsRun : Prop :=
  (∀ (p fid lag : Nat) (bs : List Nat) (s : State), s.On → p < 96 → fid < 2 ^ 32 → s.dev.isUp p = true →
    s.dev.companion p = false → s.dev.allLocks p = true → (s.dev.port p).rxFrame = none → s.dev.frame fid = none →
    s.dev.sliceCount (p / 4) < 64 → (s.dev.sleeve (s.dev.sleeveOf p)).enabled = true →
    Runs (.frameRxStart p fid lag bs) s fun d =>
      (d.port p).rxFrame = some fid ∧ d.frame fid = some (s.dev.newFrame p lag bs) ∧ d.yoke = s.dev.yoke) ∧
  (∀ (p fid lag : Nat) (bs : List Nat) (s : State), s.On → p < 96 → fid < 2 ^ 32 → s.dev.isUp p = true →
    s.dev.companion p = false → s.dev.allLocks p = true → (s.dev.port p).rxFrame = none → s.dev.frame fid = none →
    64 ≤ s.dev.sliceCount (p / 4) →
    Runs (.frameRxStart p fid lag bs) s fun d => d.yoke = s.dev.yoke ∧
      d.frame fid = some { s.dev.newFrame p lag bs with rxDrop := 1, phase := .done }) ∧
  (∀ (fid t k n : Nat) (f : Frame) (e : Dev) (s : State), s.On → s.dev.frame fid = some f → f.receiving = true →
    f.tenancy = none → f.ended = false → 16 ≤ f.bytes.length → beAt f.bytes 12 2 ≠ 0x8808 →
    f.map.tenancyOf f.bytes = some t → s.dev.yoke.rxPool.get? t = some k → s.dev.allocate f.sleeve k = (some n, e) →
    Runs (.tenancyMapLookup fid) s fun d =>
      d = (e.setFrame fid { f with tenancy := some t, pool := k, pockets := [n] }).flush) ∧
  (∀ (fid : Nat) (f : Frame) (s : State), s.On → s.dev.frame fid = some f → f.receiving = true → f.tenancy = none →
    f.ended = false → 16 ≤ f.bytes.length → beAt f.bytes 12 2 ≠ 0x8808 → f.map.tenancyOf f.bytes = none →
    64 ≤ f.wireLen →
    Runs (.tenancyMapLookup fid) s fun d =>
      d = ((s.dev.inc .tenancyUnmapped f.port 0).setFrame fid (f.dropped 2)).flush) ∧
  (∀ (fid n : Nat) (f : Frame) (e : Dev) (s : State), s.On → s.dev.frame fid = some f → f.origin = .cuff →
    f.ended = false → f.noMore = false → f.pockets ≠ [] → f.pockets.length < pocketsOf f.len →
    s.dev.managed f = false → s.dev.allocate f.sleeve f.pool = (some n, e) →
    Runs (.rxNextPocket fid) s fun d => d = (e.setFrame fid { f with pockets := f.pockets ++ [n] }).flush) ∧
  (∀ (fid : Nat) (f : Frame) (e : Dev) (s : State), s.On → s.dev.frame fid = some f → f.origin = .cuff →
    f.ended = false → f.noMore = false → f.pockets ≠ [] → f.pockets.length < pocketsOf f.len →
    s.dev.allocate f.sleeve f.pool = (none, e) →
    Runs (.rxNextPocket fid) s fun d => d = (e.setFrame fid { f with noMore := true }).flush) ∧
  (∀ (fid : Nat) (f : Frame) (s : State), s.On → s.dev.frame fid = some f → f.receiving = true → f.pockets ≠ [] →
    64 ≤ f.wireLen → f.ended = false →
    Runs (.sliceOffer fid) s fun d => d.frame fid = some { f with offered := some s.dev.now } ∧
      (d.cuff (f.port / 4)).slices = (s.dev.cuff (f.port / 4)).slices ++ [fid] ∧ d.yoke = s.dev.yoke) ∧
  (∀ (fid : Nat) (ok : Bool) (f : Frame) (s : State), s.On → s.dev.frame fid = some f → f.origin = .cuff →
    f.ended = false → f.macsecHeld = false → f.wireEnd = none → (s.dev.port f.port).rxFrame = some fid →
    f.allAsked = true →
    Runs (.frameRxEnd fid ok) s fun d =>
      d = (Dev.rxEnd (s.dev.setPort f.port { s.dev.port f.port with rxFrame := none }) fid f (rxOutcome f ok)).flush)

/-- 03: FEC, lanes and the states of a link (R74, R78, R79, R82). -/
def Obligations.LinkCommandsRun : Prop :=
  (∀ (l p n : Nat) (s : State), s.On → s.dev.portOfLane l = some p → (s.dev.port p).cfg.fec ≠ 0 →
    Runs (.fecCodewordDecode l (.corrected n)) s fun d => d.data = s.dev.data ∧
      d.ctr .fecCorrected l 0 = (s.dev.ctr .fecCorrected l 0 + 1) % 2 ^ 64 ∧
      d.ctr .fecSymbolErr l 0 = (s.dev.ctr .fecSymbolErr l 0 + n) % 2 ^ 64) ∧
  (∀ (p q : Nat) (e : QEntry) (es : List QEntry) (s : State), s.On → s.dev.flushes p = true → q < 16 →
    s.dev.queue p q = e :: es → (∀ j, j < q → s.dev.queue p j = []) →
    Runs (.linkDownFlush p) s fun d =>
      d = (((s.dev.leaveQueue p q es).inc .txLinkDownDiscard p 0).discardEntry e).flush) ∧
  (∀ (p : Nat) (s : State), s.On → s.dev.isUp p = false → (s.dev.port p).txCfg.flags.testBit 3 = true →
    (s.dev.port p).flushing = false → (s.dev.port p).downAt + (s.dev.port p).txCfg.linkHold * cyclesPerMs ≤ s.dev.now →
    Runs (.linkHoldExpiry p) s fun d =>
      d.data = (s.dev.setPort p { s.dev.port p with flushing := true }).data) ∧
  (∀ (l : Nat) (k : LockKind) (s : State), s.On → l < 96 → s.dev.portOfLane l = none →
    Runs (.laneLockAcquire l k) s fun d => d = (s.dev.setLane l ((s.dev.lane l).withLock k true)).flush) ∧
  (∀ (l p : Nat) (k : LockKind) (s : State), s.On → l < 96 → s.dev.portOfLane l = some p →
    ((s.dev.lane l).withLock k true).locked ((s.dev.port p).cfg.fec != 0) = false →
    Runs (.laneLockAcquire l k) s fun d =>
      d = ((s.dev.setLane l ((s.dev.lane l).withLock k true)).advanceLink p).flush) ∧
  (∀ (l : Nat) (k : LockKind) (s : State), s.On → l < 96 → (s.dev.lane l).hasLock k = true →
    s.dev.portOfLane l = none → k = .signal →
    Runs (.laneLockLoss l k) s fun d =>
      d = ((s.dev.setLane l ((s.dev.lane l).withLock k false)).syncSquelch l).flush) ∧
  (∀ (p : Nat) (b : Bool) (s : State), s.On → p < 96 → s.dev.companion p = false →
    Runs (.remoteFaultRx p b) s fun d =>
      d = ((s.dev.setPort p { s.dev.port p with remoteFault := b }).advanceLink p).flush) ∧
  (∀ (p t : Nat) (s : State), s.On → (s.dev.port p).lossSince = some t → s.dev.isUp p = true →
    t + (s.dev.port p).cfg.downHold * cyclesPerUs ≤ s.dev.now →
    Runs (.downHoldExpiry p) s fun d => d = ((s.dev.leaveUp p).enterAlign p).flush) ∧
  (∀ (p : Nat) (s : State), s.On → (s.dev.port p).link = .an →
    Runs (.anResolved p (s.dev.port p).cfg.mode (s.dev.port p).cfg.fec) s fun d =>
      (d.port p).link = .train ∧ (d.port p).anResult = some ((s.dev.port p).cfg.mode, (s.dev.port p).cfg.fec) ∧
      (d.port p).cfg = (s.dev.port p).cfg) ∧
  (∀ (p m f : Nat) (s : State), s.On → (s.dev.port p).link = .an →
    ¬(m = (s.dev.port p).cfg.mode ∧ f = (s.dev.port p).cfg.fec) →
    Runs (.anResolved p m f) s fun d =>
      (d.port p).link = .an ∧ (d.port p).anResult = some (m, f) ∧ (d.port p).cfg = (s.dev.port p).cfg) ∧
  (∀ (p : Nat) (s : State), s.On → (s.dev.port p).link = .train →
    Runs (.trainingComplete p) s fun d => d = (s.dev.enterAlign p).flush) ∧
  (∀ (p : Nat) (s : State), s.On → (s.dev.port p).link = .train → (s.dev.port p).since + 500 * cyclesPerMs ≤ s.dev.now →
    Runs (.trainingTimeout p) s fun d => (d.port p).since = s.dev.now ∧
      (d.port p).link = if (s.dev.port p).cfg.flags.testBit 0 then .an else .train) ∧
  (∀ (p : Nat) (s : State), s.On → (s.dev.port p).link = .lockedWait →
    (s.dev.port p).since + (s.dev.port p).cfg.upHold * cyclesPerMs ≤ s.dev.now →
    Runs (.upHoldExpiry p) s fun d => (d.port p).link = .up ∧ (d.port p).flushing = false ∧
      (d.port p).since = s.dev.now ∧ d.queues = s.dev.queues)

/-- 03: the Cuff-to-Sleeve switch (R83, R84). -/
def Obligations.CuffSwitchCommandsRun : Prop :=
  (∀ (c : Nat) (m : CuffMove) (s : State), s.On → (s.dev.cuff c).move = some m → s.dev.cuffBusy c = false →
    Runs (.cuffFenceDrained c) s fun d => d.data = (Dev.moveSlices
      (s.dev.setCuff c { s.dev.cuff c with sleeve := m.target, move := none }) c m.target).data) ∧
  (∀ (c : Nat) (m : CuffMove) (s : State), s.On → (s.dev.cuff c).move = some m → s.dev.cuffBusy c = true →
    m.started + m.timeoutUs * cyclesPerUs ≤ s.dev.now →
    Runs (.cuffMoveTimeout c) s fun d => d.data = (s.dev.setCuff c { s.dev.cuff c with move := none }).data) ∧
  (∀ (h : Hdr) (r : CuffAttachRec) (s : State) (x : Session),
    s.Serves { code := 0x0301, lenOk := exactly 8, maxBody := 0, canAsync := true, early := false } h x →
    x.role = .owner → r.cuff ≤ 23 → r.sleeve ≤ 6 → 1 ≤ r.moveTimeout → r.moveTimeout ≤ 1000 →
    (s.dev.sleeve r.sleeve).enabled = true → s.dev.replayOn r.sleeve = none → s.dev.moving r.sleeve = false →
    (s.dev.cuff r.cuff).move = none → s.dev.barred r.sleeve = false →
    ((s.dev.sleeve r.sleeve).shares.oversubscribe = true ∨
      withinBudget (s.dev.portsWith r.sleeve r.cuff) (s.dev.sleeve r.sleeve).shares = true) →
    (s.dev.cuff r.cuff).sleeve ≠ r.sleeve →
    Runs (.cuffAttach h r) s fun d => (d.cuff r.cuff).sleeve = (s.dev.cuff r.cuff).sleeve ∧
      (d.cuff r.cuff).slices = (s.dev.cuff r.cuff).slices ∧
      ∃ m, (d.cuff r.cuff).move = some m ∧ m.target = r.sleeve ∧ m.started = s.dev.now ∧
        m.timeoutUs = r.moveTimeout ∧ m.token.seq = h.seq)

/-- 03: the messages of ports (R86 to R89), and the boundary at which their settings come into force. -/
def Obligations.PortMessagesRun : Prop :=
  (∀ (h : Hdr) (r : PortConfigRec) (s : State) (x : Session),
    s.Serves { code := 0x0302, lenOk := exactly 16, maxBody := 0 } h x → s.Hears h →
    firstFail (portConfigChecks (x.sends h) s.dev r) = none →
    restarts (s.dev.port r.port).cfg { r with flags := r.flags % 16 } = false →
    Runs (.portConfigSet h r) s fun d => d.Replied h .ok [] ∧ d.data =
      (s.dev.setPort r.port { s.dev.port r.port with cfg := { r with
        flags := r.flags % 16, urgentPcp := r.urgentPcp % 256, urgentUntagged := r.urgentUntagged % 2 } }).data) ∧
  (∀ (p : Nat) (s : State), s.On → p < 96 → (s.dev.port p).rxFrame = none →
    Runs (.portSettingEffect p .rx) s fun d =>
      d = (s.dev.setPort p { s.dev.port p with rxCfg := (s.dev.port p).cfg }).flush) ∧
  (∀ (p : Nat) (s : State), s.On → p < 96 → (s.dev.port p).txFrame = none →
    Runs (.portSettingEffect p .tx) s fun d =>
      d = (s.dev.setPort p { s.dev.port p with txCfg := (s.dev.port p).cfg }).flush) ∧
  (∀ (h : Hdr) (p : Nat) (s : State) (x : Session),
    s.Serves { code := 0x0303, lenOk := fun _ => true, maxBody := 2048, changes := false } h x → s.Hears h → p ≤ 95 →
    (x.role = .tenant → s.dev.wholly p = some x.tenancy) → (s.dev.port p).anResult = none →
    Runs (.portStatusGet h p) s fun d => d.data = s.dev.data ∧ d.Replied h .ok
      ([(s.dev.port p).link.code, 0, 0, 0, (s.dev.port p).rxCfg.fec, s.dev.sleeveOf p, (s.dev.port p).changed.sec,
        (s.dev.port p).changed.ns, (s.dev.port p).changed.frac] ++
       (s.dev.ownLanes p).map fun l => (s.dev.lane l).bits)) ∧
  (∀ (h : Hdr) (p : Nat) (s : State) (x : Session),
    s.Serves { code := 0x0304, lenOk := fun _ => true, maxBody := 2048, changes := false } h x → s.Hears h → p ≤ 95 →
    (x.role = .tenant → s.dev.wholly p = some x.tenancy) →
    Runs (.macStatsGet h p) s fun d => d.data = s.dev.data ∧ d.Replied h .ok
      ((if x.role = .maint then [] else trafficCtrs.map fun c => s.dev.ctr c p 0) ++ linkCounters s.dev p))

/-- 04: parsing, payload patterns and fragments (R91 to R112). -/
def Obligations.ParseCommandsRun : Prop :=
  (∀ (fid : Nat) (f : Frame) (s : State), s.Plain fid f .parse →
    let a := parsePacket (parseEnvOf s.dev f) f.ctx;
    Runs (.parse fid) s fun d => d.frame fid = some
        { f with phase := .pattern, ctx := a.c, note := a.note,
                 side := putBits f.side sClaimed.lo sClaimed.w a.claimed } ∧
      (pflag a.c 1 = true →
        d.ctr .parseMalformed f.port 0 = (s.dev.ctr .parseMalformed f.port 0 + 1) % 2 ^ 64)) ∧
  (∀ (fid : Nat) (f : Frame) (s : State), s.Plain fid f .pattern → pflag f.ctx 7 = false →
    matchingPatterns s.dev f (bytesAt f.bytes (fld f.ctx fPayOff) (windowLen s.dev f)) = [] →
    Runs (.payloadPatternMatch fid) s fun d => d.frame fid = some { f with phase := .fragment }) ∧
  (∀ (fid : Nat) (f : Frame) (i b : Nat) (hs : List (Nat × Nat)) (s : State), s.Plain fid f .pattern →
    pflag f.ctx 7 = false →
    matchingPatterns s.dev f (bytesAt f.bytes (fld f.ctx fPayOff) (windowLen s.dev f)) = (i, b) :: hs →
    Runs (.payloadPatternMatch fid) s fun d => ∃ v, (∀ k, v.testBit k = ((i, b) :: hs).any fun h => h.2 == k) ∧
      d.frame fid = some { f with phase := .fragment,
                                  ctx := putAll f.ctx [(fVector, v), (fPatIndex, i), (fPatValid, 1)] }) ∧
  (∀ (fid : Nat) (f : Frame) (s : State), s.Plain fid f .fragment → f.note.fragKey = none →
    Runs (.fragmentLookup fid) s fun d => d.frame fid = some { f with phase := .keyBuild } ∧
      d.parse = s.dev.parse) ∧
  (∀ (fid i : Nat) (k : FragKey) (f : Frame) (s : State), s.Plain fid f .fragment → f.note.fragKey = some k →
    f.note.fragBad = false → f.note.later = false → s.dev.fragFind f.sleeve k = none →
    (∀ w, w < 8 → s.dev.fragAt f.sleeve (fragSet k * 8 + w) = none) → i = fragSet k * 8 →
    s.dev.fragInUse f.sleeve (fragTenancy k) < s.dev.fragQuota f.sleeve (fragTenancy k) → f.sleeve < 7 →
    Runs (.fragmentLookup fid) s fun d =>
      d.frame fid = some { fragState f 1 with
        phase := .keyBuild, fragIndex := some i, ctx := putBits (fragState f 1).ctx fFragIndex.lo fFragIndex.w i } ∧
      d.fragAt f.sleeve i = some { key := k, created := fragClock s.dev f, decided := none,
                                   version := fld f.ctx fVersion * 2 ^ 14 + fld f.ctx fEpoch }) ∧
  (∀ (fid i dec ctx : Nat) (k : FragKey) (e : FragEntry) (f : Frame) (s : State), s.Plain fid f .fragment →
    f.note.fragKey = some k → f.note.fragBad = false → f.note.later = true →
    s.dev.expireSet f.sleeve (fragSet k) (fragClock s.dev f) = s.dev → s.dev.fragFind f.sleeve k = some (i, e) →
    e.decided = some (dec, ctx) →
    Runs (.fragmentLookup fid) s fun d => d.parse = s.dev.parse ∧ ∃ g, d.frame fid = some g ∧
      g.phase = .keyBuild ∧ g.fragIndex = some i ∧ g.stored = dec ∧ fld g.ctx fFragState = 3 ∧
      fld g.ctx fFragIndex = i % 4096 ∧ fld g.ctx fFlowCtx = ctx % 2 ^ 16) ∧
  (∀ (fid k dec ctx : Nat) (e : FragEntry) (s : State), s.On →
    s.dev.parse.writeBacks.find? (fun w => w.1 = fid) = some (fid, k, dec, ctx) →
    s.dev.parse.frags.get? k = some e →
    Runs (.fragmentWriteBack fid) s fun d =>
      d.parse.frags.get? k = some { e with decided := some (dec, ctx) } ∧
      ∀ w ∈ d.parse.writeBacks, w.1 ≠ fid) ∧
  (∀ (k n : Nat) (s : State), s.On → k < 7 → s.dev.parse.sweepSet.get 0 k = n → n < 511 →
    s.dev.parse.sweepFrom.get 0 k + n * s.dev.fragTimeout k / 2048 ≤ s.dev.sleeveCycles k →
    Runs (.fragSweepVisit k) s fun d => d.parse.sweepSet.get 0 k = n + 1 ∧
      ∀ w e, w < 8 → s.dev.fragAt k (n * 8 + w) = some e → fragExpired s.dev k (s.dev.sleeveCycles k % 2 ^ 32) e = true →
        d.fragAt k (n * 8 + w) = none)

/-- 04: the parser's messages (R113 to R116). -/
def Obligations.ParseMessagesRun : Prop :=
  (∀ (h : Hdr) (r : ParsePortRec) (s : State) (x : Session),
    s.Serves { code := 0x0401, lenOk := exactly 16, maxBody := 0 } h x → s.Hears h →
    firstFail (parsePortChecks (x.sends h) r) = none →
    Runs (.parsePortSet h r) s fun d => d.Replied h .ok [] ∧
      d.parse.ports.get? r.port = some { r with flags := r.flags % 8 }) ∧
  (∀ (h : Hdr) (r : PatternRec) (s : State) (x : Session),
    s.Serves { code := 0x0402, lenOk := exactly 48, maxBody := 0 } h x → s.Hears h →
    firstFail (patternSetChecks (x.sends h) s.dev r) = none →
    Runs (.patternSet h r) s fun d => d.Replied h .ok [] ∧
      d.data = (s.dev.stage x.tenancy (.patternAdd r.index r) [(7, r.index / 32)] 1).data) ∧
  (∀ (h : Hdr) (i : Nat) (s : State) (x : Session),
    s.Serves { code := 0x0403, lenOk := exactly 2, maxBody := 0 } h x → s.Hears h →
    firstFail (patternClearChecks (x.sends h) s.dev i) = none →
    Runs (.patternClear h i) s fun d => d.Replied h .ok [] ∧
      d.data = (s.dev.stage x.tenancy (.patternDel i (s.dev.patternRec i)) [(7, i / 32)] 1).data) ∧
  (∀ (h : Hdr) (r : FragConfigRec) (s : State) (x : Session) (k : Nat),
    s.Serves { code := 0x0404, lenOk := exactly 40, maxBody := 0 } h x → s.Hears h →
    firstFail (fragConfigChecks (x.sends h) r) = none → k ∈ sleevesNamed r.sleeve →
    Runs (.fragConfigSet h r) s fun d => d.Replied h .ok [] ∧ d.parse.timeoutUs.get? k = some r.timeoutUs ∧
      d.parse.quota.get? k = some r.quota) ∧
  (∀ (h : Hdr) (p t : Nat) (s : State) (x : Session),
    s.Serves { code := 0x0405, lenOk := fun _ => true, maxBody := 256, changes := false } h x → s.Hears h → p ≤ 95 →
    x.role = .owner →
    Runs (.parseStatsGet h 0 p t) s fun d => d.data = s.dev.data ∧ d.Replied h .ok
      [s.dev.ctr .parseMalformed p 0, s.dev.ctr .parseMalformedLate p 0, s.dev.ctr .parseTruncated p 0]) ∧
  (∀ (h : Hdr) (b t : Nat) (s : State) (x : Session),
    s.Serves { code := 0x0405, lenOk := fun _ => true, maxBody := 256, changes := false } h x → s.Hears h → b ≤ 15 →
    x.role ≠ .maint → s.dev.holds x.tenancy 7 b = true →
    Runs (.parseStatsGet h 1 b t) s fun d => d.data = s.dev.data ∧ d.Replied h .ok
      ((List.range 32).map fun i => s.dev.ctr .patternHits (b * 32 + i) 0)) ∧
  (∀ (h : Hdr) (k t : Nat) (s : State) (x : Session),
    s.Serves { code := 0x0405, lenOk := fun _ => true, maxBody := 256, changes := false } h x → s.Hears h → k ≤ 6 →
    t ≤ 15 → x.role = .maint →
    Runs (.parseStatsGet h 2 k t) s fun d => d.data = s.dev.data ∧ d.Replied h .ok [s.dev.fragInUse k t])

/-- 05: the flow key, the flow lookup and the learning lookups of stages 5 to 7 (R119 to R125, R134, R139). -/
def Obligations.LookupCommandsRun : Prop :=
  (∀ (fid p : Nat) (r : ProfileRec) (bs : List Nat) (f : Frame) (s : State), s.Plain fid f .keyBuild →
    fld f.ctx fFragState = 0 → stopsMalformed s.dev f = false →
    let g := { f with flowKey := none,
                      ctx := putBits (putBits f.ctx 96 80 0) fBd.lo fBd.w (bridgeDomain s.dev f) };
    selectProfile s.dev.tables.profiles (fld g.ctx fTenancy) (fld g.ctx fL3Type) = some (p, r) →
    extractAll g (r.extract.take r.count) = some bs →
    Runs (.flowKeyBuild fid) s fun d => d.tables = s.dev.tables ∧
      d.frame fid = some { g with phase := .flow, flowKey := some (p, maskedKey 16 r.keyMask bs) }) ∧
  (∀ (fid : Nat) (f : Frame) (s : State), s.Plain fid f .keyBuild → fld f.ctx fFragState = 3 →
    Runs (.flowKeyBuild fid) s fun d => d.tables = s.dev.tables ∧ d.frame fid = some { f with
      phase := .flow, flowKey := none, 
      ctx := putAll (putBits f.ctx 96 80 0) [(fFlowRef, fld f.ctx fFlowRef), (fFlowCtx, fld f.ctx fFlowCtx)] }) ∧
  (∀ (fid p i : Nat) (key : List Nat) (e : FlowEntry) (f : Frame) (s : State), s.Plain fid f .flow →
    f.flowKey = some (p, key) →
    s.dev.flowFind f.sleeve p (fld f.ctx fTenancy) (fld f.ctx fVersion) key = some (i, e) →
    Runs (.flowLookup fid .clean) s fun d => f.sleeve * 2 ^ 19 + i ∈ d.tables.flowHits ∧
      d.frame fid = some { f with
        phase := .learn, ctx := putAll f.ctx [(fFlowHit, 1), (fFlowRef, e.actionRef), (fFlowCtx, e.flowContext), (fFlowMeta, e.metaVal)] }) ∧
  (∀ (fid p : Nat) (key : List Nat) (ecc : Ecc) (f : Frame) (s : State), s.Plain fid f .flow →
    f.flowKey = some (p, key) →
    s.dev.flowFind f.sleeve p (fld f.ctx fTenancy) (fld f.ctx fVersion) key = none →
    Runs (.flowLookup fid ecc) s fun d => d.tables = s.dev.tables ∧ d.frame fid = some { f with phase := .learn }) ∧
  (∀ (fid i j : Nat) (dst src : LearnEntry) (f : Frame) (s : State), s.Plain fid f .learn →
    skipsLookups f = false → stopsMalformed s.dev f = false → (byteAt f.bytes 6).testBit 0 = false →
    s.dev.learnFind f.sleeve (fld f.ctx fTenancy) (fld f.ctx fBd) (beAt f.bytes 0 6) = some (i, dst) →
    s.dev.learnFind f.sleeve (fld f.ctx fTenancy) (fld f.ctx fBd) (beAt f.bytes 6 6) = some (j, src) →
    src.port = f.port →
    Runs (.learnLookup fid .clean) s fun d =>
      d.learnAt f.sleeve j = some { src with hit := true } ∧ d.frame fid = some { f with
        phase := .tcam, ctx := putBits (putAll f.ctx [(fDstHit, 1), (fDstPort, dst.port)]) fSrcHit.lo fSrcHit.w 1 }) ∧
  (∀ (fid : Nat) (f : Frame) (s : State), s.Plain fid f .learn → skipsLookups f = false →
    stopsMalformed s.dev f = false → (byteAt f.bytes 6).testBit 0 = false → raisesLearn s.dev f (fld f.ctx fTenancy) = true →
    s.dev.learnFind f.sleeve (fld f.ctx fTenancy) (fld f.ctx fBd) (beAt f.bytes 0 6) = none →
    s.dev.learnFind f.sleeve (fld f.ctx fTenancy) (fld f.ctx fBd) (beAt f.bytes 6 6) = none →
    Runs (.learnLookup fid .clean) s fun d => d.tables = s.dev.tables ∧ d.frame fid = some { f with
      phase := .tcam, ctx := putBits f.ctx fLearnReq.lo fLearnReq.w 1,
      learn := some { tenancy := fld f.ctx fTenancy, bd := fld f.ctx fBd, mac := beAt f.bytes 6 6, port := f.port } })

/-- 05: the learn engine, the scanner, the generators and idle flows (R131, R136 to R140). That an inserted entry has its
hit bit set is the model's reading of R140 (log entry 50). -/
def Obligations.LearnEngineCommandsRun : Prop :=
  (∀ (k i : Nat) (r : LearnReq) (rs : List LearnReq) (s : State), s.On → k < 7 →
    (∀ t, (s.dev.learner k).lastTurn = some t → t + 8 ≤ s.dev.now) → (s.dev.learner k).statics = [] →
    (s.dev.learner k).queue = r :: rs → s.dev.learnFind k r.tenancy r.bd r.mac = none →
    s.dev.atQuota k r.tenancy = false → s.dev.freeWay k (s.dev.learnBuckets r.tenancy r.bd r.mac).1 = some i →
    Runs (.learnEngineTurn k) s fun d => (d.learner k).queue = rs ∧ (d.learner k).lastTurn = some s.dev.now ∧
      d.learnAt k i = some { mac := r.mac, bd := r.bd, tenancy := r.tenancy, isStatic := false, port := r.port,
                             age := 0, hit := true }) ∧
  (∀ (k : Nat) (r : LearnReq) (rs : List LearnReq) (s : State), s.On → k < 7 →
    (∀ t, (s.dev.learner k).lastTurn = some t → t + 8 ≤ s.dev.now) → (s.dev.learner k).statics = [] →
    (s.dev.learner k).queue = r :: rs → s.dev.learnFind k r.tenancy r.bd r.mac = none →
    s.dev.atQuota k r.tenancy = true →
    Runs (.learnEngineTurn k) s fun d => (d.learner k).queue = rs ∧ d.tables.learn = s.dev.tables.learn ∧
      d.ctr .learnRefusedQuota (k * 16 + r.tenancy) 0 =
        (s.dev.ctr .learnRefusedQuota (k * 16 + r.tenancy) 0 + 1) % 2 ^ 64) ∧
  (∀ (k n : Nat) (s : State), s.On → k < 7 → s.dev.replayOn k = none → (s.dev.learner k).scanSlot = n → n ≠ 0 →
    n < 65551 →
    (s.dev.learner k).scanFrom + n * ((s.dev.learner k).shortest * cyclesPerS / 4) / 65552 ≤ s.dev.now →
    Runs (.learnScannerVisit k) s fun d => (d.learner k).scanSlot = n + 1 ∧
      ∀ i e, i ∈ visitSlot n → s.dev.learnAt k i = some e →
        (e.isStatic = true → d.learnAt k i = some e) ∧
        (e.isStatic = false → e.hit = true →
          (s.dev.learner k).sweeps % ceilDiv (s.dev.learnPolicy e.tenancy).ageingS (s.dev.learner k).shortest = 0 →
          d.learnAt k i = some { e with hit := false, age := 0 })) ∧
  (∀ (s : State), s.On → s.dev.ten.rngOk = true →
    Runs .generatorReseed s fun d => ∀ k, k < 7 → (s.dev.sleeve k).enabled = true → s.dev.replayOn k = none →
      (s.dev.learner k).seedAt + s.dev.tables.reseedS * cyclesPerS ≤ s.dev.now →
      (d.learner k).seedEpoch = ((s.dev.learner k).seedEpoch + 1) % 2 ^ 32 ∧ (d.learner k).seedAt = s.dev.now) ∧
  (∀ (t : Nat) (s : State), s.On → t < 16 →
    s.dev.tables.idleAt.get 0 t + (s.dev.learnPolicy t).flowIdleS * cyclesPerS ≤ s.dev.now →
    Runs (.flowIdleScan t) s fun d => d.tables.idleAt.get? t = some s.dev.now ∧ d.tables.flow = s.dev.tables.flow ∧
      ∀ k, k ∈ d.tables.flowHits ↔ k ∈ s.dev.tables.flowHits ∧
        ∀ c ∈ s.dev.tables.flow.cells, c.2.tenancy = t → c.2.idle = true → c.1 ≠ k % 2 ^ 19)

/-- 05: the flow messages (R126, R128, R145, R146). -/
def Obligations.FlowMessagesRun : Prop :=
  (∀ (h : Hdr) (r : ProfileRec) (s : State) (x : Session),
    s.Serves { code := 0x0501, lenOk := exactly 52, maxBody := 0 } h x → s.Hears h →
    firstFail (flowProfileChecks (x.sends h) s.dev r) = none →
    Runs (.flowProfileSet h r) s fun d => d.Replied h .ok [] ∧
      d.data = (s.dev.stage x.tenancy (.flowProfile (x.tenancy * 4 + r.profile) r
        (s.dev.tables.profiles.get? (x.tenancy * 4 + r.profile))) (s.dev.regionUnits x.tenancy) 0).data) ∧
  (∀ (h : Hdr) (r : FlowAddRec) (s : State) (x : Session) (b0 b1 i : Nat),
    s.Serves { code := 0x0502, lenOk := exactly 32, maxBody := 32 } h x → s.Hears h →
    firstFail (flowAddChecks (x.sends h) s.dev r) = none →
    s.dev.flowBuckets r.profile x.tenancy (s.dev.flowMasked x.tenancy r.profile r.key) = some (b0, b1) →
    s.dev.nextFlow x.tenancy r.profile (s.dev.flowMasked x.tenancy r.profile r.key) = none →
    s.dev.flowWay b0 = some i →
    Runs (.flowAdd h r) s fun d => d.Replied h .ok [0, 0, 0] ∧
      d.data = (s.dev.stage x.tenancy (.flowAdd i
        { key := beNat (s.dev.flowMasked x.tenancy r.profile r.key), tenancy := x.tenancy, profile := r.profile,
          live := 0, actionRef := r.actionRef, flowContext := r.flowContext, metaVal := r.metaVal,
          idle := r.flags.testBit 1, insertEpoch := 0, serial := 0 } [] none) (s.dev.regionUnits x.tenancy) 1).data) ∧
  (∀ (h : Hdr) (r : FlowDelRec) (s : State) (x : Session) (i : Nat),
    s.Serves { code := 0x0503, lenOk := exactly 20, maxBody := 0 } h x → s.Hears h →
    firstFail (flowDelChecks (x.sends h) s.dev r) = none →
    s.dev.nextFlow x.tenancy r.profile (s.dev.flowMasked x.tenancy r.profile r.key) = some i →
    Runs (.flowDel h r) s fun d => d.Replied h .ok [] ∧ d.data = (s.dev.removeFlow x.tenancy i).data) ∧
  (∀ (h : Hdr) (s : State) (x : Session),
    s.Serves { code := 0x0504, lenOk := fun _ => true, maxBody := 2048, changes := false } h x →
    s.Hears h → x.role ≠ .maint → s.dev.hasRegion x.tenancy = true →
    Runs (.flowRead h) s fun d => d.data = s.dev.data ∧ d.Replied h .ok
      ((s.dev.tables.flow.cells.filter fun c => c.2.tenancy = x.tenancy).flatMap flowRow))

/-- 05: the learning messages (R143, R147 to R149). -/
def Obligations.LearnMessagesRun : Prop :=
  (∀ (h : Hdr) (r : LearnPolicyRec) (s : State) (x : Session),
    s.Serves { code := 0x0505, lenOk := exactly 12, maxBody := 0 } h x → s.Hears h →
    firstFail (learnPolicyChecks (x.sends h) s.dev r) = none →
    Runs (.learnPolicySet h r) s fun d => d.Replied h .ok [] ∧
      d.learnPolicy x.tenancy = { r with flags := r.flags % 4 } ∧
      ∀ t, t ≠ x.tenancy → d.learnPolicy t = s.dev.learnPolicy t) ∧
  (∀ (h : Hdr) (r : LearnQuotaRec) (s : State) (x : Session) (t : Nat),
    s.Serves { code := 0x0506, lenOk := exactly 68, maxBody := 0 } h x → s.Hears h →
    firstFail (learnQuotaChecks (x.sends h) r) = none → renewsQuota s.dev r = false → t < 16 →
    Runs (.learnQuotaSet h r) s fun d => d.Replied h .ok [] ∧ d.learnQuota t = r.quota.getD t 0 ∧
      d.tables.reseedS = r.reseedS ∧ d.tables.learn = s.dev.tables.learn) ∧
  (∀ (h : Hdr) (r : LearnPortRec) (s : State) (x : Session),
    s.Serves { code := 0x0507, lenOk := exactly 4, maxBody := 0 } h x → s.Hears h → x.role = .owner → r.port ≤ 95 →
    r.defaultBd ≤ 4095 →
    Runs (.learnPortSet h r) s fun d => d.Replied h .ok [] ∧
      d.learnPort r.port = { r with flags := r.flags % 2 } ∧ ∀ p, p ≠ r.port → d.learnPort p = s.dev.learnPort p) ∧
  (∀ (h : Hdr) (r : LearnStaticRec) (s : State) (x : Session) (k : Nat),
    s.Serves { code := 0x0508, lenOk := fun _ => true, maxBody := 0, canAsync := true } h x →
    firstFail (learnStaticChecks (x.sends h) s.dev r) = none → k < 7 →
    Runs (.learnStaticSet h r) s fun d => d.tables.learn = s.dev.tables.learn ∧
      (d.learner k).statics = (s.dev.learner k).statics ++ [s.dev.tables.nextStatic] ∧
      ∃ w, d.tables.statics = s.dev.tables.statics ++ [w] ∧ w.id = s.dev.tables.nextStatic ∧
        w.tenancy = x.tenancy ∧ w.data = r ∧ w.done = [] ∧ w.token.seq = h.seq) ∧
  (∀ (h : Hdr) (r : LearnFlushRec) (s : State) (x : Session) (k : Nat) (e : LearnEntry),
    s.Serves { code := 0x0509, lenOk := fun _ => true, maxBody := 0, canAsync := true } h x → s.Hears h →
    h.flags.testBit 0 = false → x.role ≠ .maint → s.dev.learnQuota x.tenancy ≠ 0 →
    (x.sends h).stale (s.dev.tables.quotaEpochs.get 0 x.tenancy) = false →
    r.sleeves < 128 → r.port ≤ 95 → r.bd ≤ 4095 → r.mac < 2 ^ 48 →
    (k, e) ∈ s.dev.tables.learn.cells → r.sleeves.testBit (k / 2 ^ 19) = true → e.tenancy = x.tenancy →
    flushTakes r e = true →
    Runs (.learnFlush h r) s fun d => d.Replied h .ok [] ∧ d.tables.learn.get? k = none) ∧
  (∀ (h : Hdr) (k : Nat) (s : State) (x : Session),
    s.Serves { code := 0x050A, lenOk := fun _ => true, maxBody := 2048, changes := false } h x → s.Hears h → k ≤ 6 →
    firstFail (learnSender (x.sends h) s.dev) = none →
    Runs (.learnRead h k) s fun d => d.data = s.dev.data ∧ d.Replied h .ok
      ([s.dev.stamp.sec, s.dev.stamp.ns, s.dev.stamp.frac] ++
        ((s.dev.tables.learn.cells.filter fun c => c.1 / 2 ^ 19 = k && c.2.tenancy = x.tenancy).flatMap
          fun c => learnRow (c.1 % 2 ^ 19) c.2))) ∧
  (∀ (h : Hdr) (k : Nat) (s : State) (x : Session),
    s.Serves { code := 0x050B, lenOk := fun _ => true, maxBody := 2048, changes := false } h x → s.Hears h → k ≤ 6 →
    x.role = .tenant →
    Runs (.tableStatsGet h k) s fun d => d.data = s.dev.data ∧ d.Replied h .ok
      ([s.dev.ctr .learnQueueDrop k 0, s.dev.stashInUse k] ++ tableCounters s.dev k x.tenancy))

/-- 06: the search, the scrub and the throttle (R151 to R165). -/
def Obligations.TcamCommandsRun : Prop :=
  (∀ (fid p i : Nat) (r : ProfileRec) (bs : List Nat) (e : TcamEntry) (f : Frame) (s : State),
    s.Plain fid f .tcam → skipsLookups f = false →
    let g := { f with ctx := putBits f.ctx 37 59 0 };
    let t := fld g.ctx fTenancy;
    s.dev.held t 3 ≠ [] → selectProfile s.dev.tcam.profiles t (fld g.ctx fL3Type) = some (p, r) →
    extractAll g (r.extract.take r.count) = some bs →
    tcamCandidates s.dev f.sleeve t p (fld g.ctx fVersion) (maskedKey 76 r.keyMask bs) [] [] = [i] →
    s.dev.tcam.entries.get? i = some e → tcamMatches e t p (maskedKey 76 r.keyMask bs) = true →
    Runs (.tcamSearch fid [] []) s fun d => d.tcam = s.dev.tcam ∧ d.frame fid = some { f with
      phase := .meter
      ctx := putAll (putAll g.ctx [(⟨94, 1⟩, 0), (⟨93, 1⟩, 0)])
        [(⟨95, 1⟩, 1), (⟨77, 15⟩, i), (⟨53, 24⟩, e.data.actionRef), (⟨37, 16⟩, e.data.metaVal)] }) ∧
  (∀ (fid : Nat) (sp ms : List Nat) (f : Frame) (s : State), s.Plain fid f .tcam → skipsLookups f = false →
    s.dev.held (fld (putBits f.ctx 37 59 0) fTenancy) 3 = [] →
    Runs (.tcamSearch fid sp ms) s fun d => d.tcam = s.dev.tcam ∧ d.frame fid = some { f with
      phase := .meter, ctx := putBits (putBits f.ctx 37 59 0) 92 1 1 }) ∧
  (∀ (k : Nat) (rows : List Nat) (s : State), s.On → k < 7 →
    (∀ t, (s.dev.tcamSleeve k).scrubAt = some t → t + (s.dev.tcamSleeve k).scrubMs * cyclesPerMs ≤ s.dev.now) →
    Runs (.tcamScrubPassStart k rows) s fun d =>
      (d.sleeve k).updates = (s.dev.sleeve k).updates ++
        (ascending (s.dev.tcam.entries.cells.map (·.1))).map (fun i => .scrub i (rows.contains i)) ∧
      (d.tcamSleeve k).scrubAt = some s.dev.now ∧ (d.tcamSleeve k).scrubMs = (s.dev.tcamSleeve k).nextScrubMs) ∧
  (∀ (k : Nat) (t : Int) (s : State), s.On → s.dev.gus.bandAt + 300000 ≤ s.dev.now → k < 7 →
    s.dev.tcamTemp k = some t →
    Runs .tcamBandEval s fun d => d.gus.bandAt = s.dev.now ∧
      d.tcamSleeve k = { s.dev.tcamSleeve k with nextBand := nextBandOf (s.dev.tcamSleeve k) t }) ∧
  (∀ (k : Nat) (s : State), s.On → k < 7 → (s.dev.sleeve k).enabled = true →
    (s.dev.tcamSleeve k).window < (s.dev.now - (s.dev.sleeve k).enabledAt) / 64 →
    Runs (.searchWindowBoundary k) s fun d => (d.tcamSleeve k).searches = 0 ∧ (d.tcamSleeve k).plain = 0 ∧
      (d.tcamSleeve k).window = (s.dev.now - (s.dev.sleeve k).enabledAt) / 64 ∧
      (d.tcamSleeve k).reserve = (s.dev.tcamSleeve k).nextReserve ∧
      (d.tcamSleeve k).band = (s.dev.tcamSleeve k).nextBand)

/-- 06: the messages of the TCAM (R158, R166 to R169). -/
def Obligations.TcamMessagesRun : Prop :=
  (∀ (h : Hdr) (r : ProfileRec) (s : State) (x : Session),
    s.Serves { code := 0x0601, lenOk := exactly 112, maxBody := 0 } h x → s.Hears h →
    firstFail (tcamProfileChecks (x.sends h) s.dev r) = none →
    Runs (.tcamProfileSet h r) s fun d => d.Replied h .ok [] ∧
      d.data = (s.dev.stage x.tenancy (.tcamProfile (x.tenancy * 4 + r.profile) r
        (s.dev.tcam.profiles.get? (x.tenancy * 4 + r.profile)))
        ((s.dev.held x.tenancy 3).map fun b => (3, b)) 0).data) ∧
  (∀ (h : Hdr) (r : TcamWriteRec) (s : State) (x : Session),
    s.Serves { code := 0x0602, lenOk := exactly 168, maxBody := 0 } h x → s.Hears h →
    firstFail (tcamWriteChecks (x.sends h) s.dev r) = none →
    Runs (.tcamWrite h r) s fun d => d.Replied h .ok [] ∧
      d.data = (s.dev.stage x.tenancy (.tcamAdd r.index r) (s.dev.tcamUnits r.index) 1).data) ∧
  (∀ (h : Hdr) (i : Nat) (e : TcamEntry) (s : State) (x : Session),
    s.Serves { code := 0x0603, lenOk := exactly 2, maxBody := 0 } h x → s.Hears h →
    firstFail (tcamClearChecks (x.sends h) s.dev i) = none → s.dev.tcam.entries.get? i = some e →
    Runs (.tcamClear h i) s fun d => d.Replied h .ok [] ∧
      d.data = (s.dev.stage x.tenancy (.tcamDel i e) (s.dev.tcamUnits i) 1).data) ∧
  (∀ (h : Hdr) (r : TcamIterateRec) (s : State) (x : Session),
    s.Serves { code := 0x0604, lenOk := exactly 88, maxBody := 264, changes := false } h x →
    firstFail (tcamSender (x.sends h) s.dev) = none → r.sleeve ≤ 6 → (r.version ≤ 3 ∨ r.version = 255) →
    r.profile ≤ 3 → r.startIndex ≤ 32767 → 1 ≤ r.maxResults → r.maxResults ≤ 64 →
    Runs (.tcamIterate h r) s fun d => d.tcam = s.dev.tcam ∧ ∃ tok, tok.seq = h.seq ∧ tok.fn = h.fn ∧
      (d.sleeve r.sleeve).updates = (s.dev.sleeve r.sleeve).updates ++ [.diagnostic tok x.tenancy r]) ∧
  (∀ (h : Hdr) (r : TcamThrottleRec) (s : State) (x : Session) (k : Nat),
    s.Serves { code := 0x0605, lenOk := exactly 8, maxBody := 0 } h x → s.Hears h → x.role = .owner →
    (r.sleeve ≤ 6 ∨ r.sleeve = 255) → r.tcReserve ≤ 32 → 100 ≤ r.scrubMs → r.scrubMs ≤ 60000 →
    k ∈ sleevesNamed r.sleeve →
    Runs (.tcamThrottleSet h r) s fun d => d.Replied h .ok [] ∧ d.tcamSleeve k =
      { s.dev.tcamSleeve k with nextReserve := r.tcReserve, nextScrubMs := r.scrubMs }) ∧
  (∀ (h : Hdr) (k : Nat) (s : State) (x : Session),
    s.Serves { code := 0x0606, lenOk := fun _ => true, maxBody := 2048, changes := false } h x → s.Hears h → k ≤ 6 →
    x.role = .maint →
    Runs (.tcamStatusGet h k) s fun d => d.data = s.dev.data ∧ d.Replied h .ok (tcamSleeveCounters s.dev k))

/-- 07: the decision of stages 12 to 16 (R184 to R190). -/
def Obligations.ActionCommandsRun : Prop :=
  (∀ (fid a ref : Nat) (r : ActionRec) (f : Frame) (s : State), s.Plain fid f .action → f.note.ptpTrap = false →
    stopsMalformed s.dev f = false → fld f.ctx fFragState = 0 → lookupRef s.dev f = some ref →
    s.dev.actionAt (fld f.ctx fTenancy) (fld f.ctx fVersion) (ref % 65536) = some (a, r) →
    Runs (.actionSelect fid) s fun d => d.vers = s.dev.vers ∧
      d.ctr .actionHits a 0 = (s.dev.ctr .actionHits a 0 + 1) % 2 ^ 64 ∧
      d.frame fid = some { f with
        phase := .forward, members := [], appliedRec := true
        desc := putAll (putAll (putAll (0 : BitVec 256) [(dColour, fld f.ctx fColour)]) [(dActionRef, ref)])
          [(dDisp, r.disposition), (dReason, if r.disposition = 0 then r.dropReason else 0)] }) ∧
  (∀ (fid : Nat) (f : Frame) (s : State), s.Plain fid f .action → f.note.ptpTrap = false →
    stopsMalformed s.dev f = false → fld f.ctx fFragState = 0 → lookupRef s.dev f = none →
    Runs (.actionSelect fid) s fun d => d.vers = s.dev.vers ∧ d.frame fid = some { f with
      phase := .forward, members := [], appliedRec := false
      desc := dropDesc (putAll (0 : BitVec 256) [(dColour, fld f.ctx fColour)]) 2 }) ∧
  (∀ (fid : Nat) (r : ActionRec) (f : Frame) (s : State), s.Plain fid f .forward → fld f.desc dDisp = dispForward →
    s.dev.applied f = some r → flag f.ctx fColourQueue = false → r.queueSel = 0 →
    s.dev.holdsQueue (fld f.ctx fTenancy) r.port r.queue = true →
    Runs (.forwardResolve fid) s fun d => d.vers = s.dev.vers ∧ d.frame fid = some { f with
      phase := .ttl, desc := putAll f.desc [(dDisp, dispForward), (dTarget, r.port), (dQueue, r.queue)] }) ∧
  (∀ (fid : Nat) (f : Frame) (s : State), s.Plain fid f .forward → fld f.desc dDisp = dispBridge →
    flag f.ctx fDstHit = true → pflag f.ctx 13 = false → pflag f.ctx 14 = false → fld f.ctx fDstPort = f.port →
    Runs (.forwardResolve fid) s fun d => d.vers = s.dev.vers ∧ d.frame fid = some { f with
      phase := .ttl, desc := dropDesc f.desc 11 }) ∧
  (∀ (fid : Nat) (r : ActionRec) (g : FloodGroupRec) (f : Frame) (s : State), s.Plain fid f .forward →
    fld f.desc dDisp = dispFlood → s.dev.applied f = some r →
    s.dev.floodGroup (fld f.ctx fTenancy) r.floodGroup = some g →
    floodMembers s.dev (fld f.ctx fTenancy) f.port g ≠ [] →
    Runs (.forwardResolve fid) s fun d => d.vers = s.dev.vers ∧ d.frame fid = some { f with
      phase := .ttl, members := floodMembers s.dev (fld f.ctx fTenancy) f.port g
      desc := putAll f.desc [(dDisp, dispFlood), (dTarget, r.floodGroup), (dQueue, g.queue)] }) ∧
  (∀ (fid : Nat) (r : ActionRec) (f : Frame) (s : State), s.Plain fid f .ttl → s.dev.applied f = some r →
    fld f.desc dDisp ≠ dispDrop → (s.dev.rewrite f r.rewrite).expired = true → f.place = false →
    Runs (.ttlCopyMirror fid) s fun d => d.vers = s.dev.vers ∧ d.frame fid = some { f with
      phase := .rewrite
      desc := putAll (dropDesc f.desc 4) [(dCopy, b2n (r.copy || r.ttlCopy)), (dMirror, b2n r.mirror),
        (dMirrorSession, if r.mirror then r.mirrorSession else 0)]
      copies := f.copies ++ copiesOf s.dev f true }) ∧
  (∀ (fid : Nat) (r : ActionRec) (f : Frame) (s : State), s.Plain fid f .ttl → s.dev.applied f = some r →
    (s.dev.rewrite f r.rewrite).expired = false →
    Runs (.ttlCopyMirror fid) s fun d => d.vers = s.dev.vers ∧ d.frame fid = some { f with
      phase := .rewrite
      desc := putAll f.desc [(dCopy, b2n r.copy), (dMirror, b2n r.mirror),
        (dMirrorSession, if r.mirror then r.mirrorSession else 0)]
      copies := f.copies ++ copiesOf s.dev f false }) ∧
  (∀ (fid : Nat) (r : ActionRec) (f : Frame) (s : State), s.Plain fid f .rewrite → s.dev.applied f = some r →
    flag f.ctx fDscpRemark = false → flag f.ctx fPcpRemark = false →
    Runs (.rewriteCompile fid) s fun d => d.vers = s.dev.vers ∧ d.frame fid = some { f with
      phase := .release
      desc := putAll f.desc [(dProgram, packProgram ((r.rewrite.takeWhile fun p => p / 2 ^ 20 != 0).take 8))] })

/-- 07: version slots and commits (R172 to R182). -/
def Obligations.VersionCommandsRun : Prop :=
  (∀ (v : Nat) (s : State), s.On → (s.dev.vslot v).state = .draining → (∀ k, k < 7 → s.dev.inflight v k = 0) →
    Runs (.slotDrainComplete v) s fun d => d.vslot v = { s.dev.vslot v with state := .free } ∧
      ∀ w, w ≠ v → d.vslot w = s.dev.vslot w) ∧
  (∀ (v : Nat) (s : State), s.On → v < 4 → (s.dev.vslot v).state = .free →
    (∀ w, w < v → (s.dev.vslot w).state ≠ .free) →
    (∀ w, w < 4 → (s.dev.vslot w).state ≠ .preparing ∧ (s.dev.vslot w).state ≠ .prepared) →
    Runs .preparationStart s fun d => d.vslot v = { s.dev.vslot v with state := .preparing } ∧
      (∀ w, w ≠ v → d.vslot w = s.dev.vslot w) ∧
      ∀ k, k < 7 → (d.sleeve k).updates = (s.dev.sleeve k).updates ++ (List.range 16).map .rowMask) ∧
  (∀ (v : Nat) (s : State), s.On → v < 4 → (s.dev.vslot v).state = .preparing →
    (∀ w, w < v → (s.dev.vslot w).state ≠ .preparing) →
    Runs .preparationComplete s fun d => d.vslot v = { s.dev.vslot v with state := .prepared } ∧
      d.data = ((s.dev.mapLive (prepareMask s.dev.current v)).setVslot v
        { s.dev.vslot v with state := .prepared }).data) ∧
  (∀ (v : Nat) (c : Commit) (cs : List Commit) (s : State), s.On → s.dev.vers.commits = c :: cs → c.step = 2 →
    c.scrub = none → s.dev.preparedSlot = some v → (∀ x ∈ c.changes, s.dev.isStale x = false) →
    (∀ x ∈ cs, x.id ≠ c.id) →
    Runs .commitSlotReady s fun d => d.vers = { s.dev.vers with commits := { c with step := 3 } :: cs }) ∧
  (∀ (i t : Nat) (c : Commit) (s : State), s.On → s.dev.vers.commits.find? (fun c => c.id = i) = some c →
    c.deadline = some t → c.step = 2 → t ≤ s.dev.now → c.token = none →
    Runs (.commitDeadline i) s fun d => d.vers = { s.dev.vers with
      commits := s.dev.vers.commits.filter fun x => x.id != c.id
      staged := (c.changes.filter fun x => !s.dev.isStale x) ++ s.dev.vers.staged }) ∧
  (∀ (ok : Bool) (v : Nat) (c : Commit) (cs : List Commit) (s : State), s.On → s.dev.vers.commits = c :: cs →
    c.step = 3 → s.dev.preparedSlot = some v →
    Runs (.journalWriteDone ok) s fun d => d.data =
      (((s.dev.dropReqs fun u => u.rank = 0).writeCommit c v (!ok)).setCommit { c with step := 4 }).data) ∧
  (∀ (v : Nat) (c : Commit) (cs : List Commit) (s : State), s.On → s.dev.vers.commits = c :: cs → c.step = 4 →
    s.dev.preparedSlot = some v → v ≠ s.dev.current → s.dev.ten.moves = [] → c.token = none →
    Runs .commitCycle s fun d =>
      d.vslot v = { state := .current, epoch := ((s.dev.vslot s.dev.current).epoch + 1) % 16384 } ∧
      d.vslot s.dev.current = { s.dev.vslot s.dev.current with state := .draining } ∧
      (∀ w, w ≠ v → w ≠ s.dev.current → d.vslot w = s.dev.vslot w) ∧ (∀ x ∈ d.vers.commits, x.id ≠ c.id) ∧
      d.ctr .commits c.tenancy 0 = (s.dev.ctr .commits c.tenancy 0 + 1) % 2 ^ 64)

/-- 07: TBL_COMMIT, TBL_ABORT and VERSION_STATUS_GET (R179, R180, R183). -/
def Obligations.CommitMessagesRun : Prop :=
  (∀ (h : Hdr) (ms : Nat) (s : State) (x : Session),
    s.Serves { code := 0x0701, lenOk := exactly 4, maxBody := 24, canAsync := true, early := false } h x →
    s.dev.ejecting = false → 1 ≤ ms → ms ≤ 10000 →
    (∀ c ∈ s.dev.vers.staged, c.tenancy = x.tenancy → s.dev.isStale c = false) →
    (∃ c ∈ s.dev.vers.staged, c.tenancy = x.tenancy) →
    Runs (.tblCommit h ms) s fun d => d.vers.slots = s.dev.vers.slots ∧
      d.vers.staged = (s.dev.vers.staged.filter fun c => c.tenancy != x.tenancy) ∧
      ∃ c, d.vers.commits = s.dev.vers.commits ++ [c] ∧ c.id = s.dev.vers.nextCommit ∧ c.tenancy = x.tenancy ∧
        c.changes = (s.dev.vers.staged.filter fun y => y.tenancy = x.tenancy) ∧ c.step = 2 ∧
        c.deadline = some (s.dev.now + ms * cyclesPerMs)) ∧
  (∀ (h : Hdr) (ms : Nat) (s : State) (x : Session),
    s.Serves { code := 0x0701, lenOk := exactly 4, maxBody := 24, canAsync := true, early := false } h x → s.Hears h →
    h.flags.testBit 0 = false → s.dev.ejecting = false → 1 ≤ ms → ms ≤ 10000 →
    (∀ c ∈ s.dev.vers.staged, c.tenancy ≠ x.tenancy) →
    Runs (.tblCommit h ms) s fun d => d.vers = s.dev.vers ∧ d.Replied h .ok
      [s.dev.current, (s.dev.vslot s.dev.current).epoch, 0, s.dev.stamp.sec, s.dev.stamp.ns, s.dev.stamp.gen]) ∧
  (∀ (h : Hdr) (s : State) (x : Session),
    s.Serves { code := 0x0702, lenOk := exactly 0, maxBody := 0 } h x → s.Hears h →
    Runs (.tblAbort h) s fun d => d.Replied h .ok [] ∧ d.vers =
      { s.dev.vers with staged := s.dev.vers.staged.filter fun c => c.tenancy != x.tenancy }) ∧
  (∀ (h : Hdr) (s : State) (x : Session),
    s.Serves { code := 0x0703, lenOk := exactly 0, maxBody := 256, changes := false } h x → s.Hears h →
    x.role ≠ .owner →
    Runs (.versionStatusGet h) s fun d => d.data = s.dev.data ∧ d.Replied h .ok
      (((List.range 4).flatMap fun v => [(s.dev.vslot v).state.code, (s.dev.vslot v).epoch,
        ((List.range 7).map fun k => s.dev.inflight v k).sum]) ++ [s.dev.stagedCount x.tenancy]))

/-- 07: the records of tenancies, floods, mirrors, copy limits, actions and templates (R192 to R196, R432). -/
def Obligations.ActionMessagesRun : Prop :=
  (∀ (h : Hdr) (r : ActTenancyRec) (s : State) (x : Session),
    s.Serves { code := 0x0704, lenOk := exactly 12, maxBody := 0 } h x → s.Hears h →
    firstFail (actTenancyChecks (x.sends h) s.dev r) = none →
    Runs (.actTenancySet h r) s fun d => d.Replied h .ok [] ∧ d.actTenancy x.tenancy = r ∧
      ∀ t, t ≠ x.tenancy → d.actTenancy t = s.dev.actTenancy t) ∧
  (∀ (h : Hdr) (r : FloodGroupRec) (a : Nat) (s : State) (x : Session),
    s.Serves { code := 0x0705, lenOk := exactly 20, maxBody := 0 } h x → s.Hears h →
    firstFail (floodGroupChecks (x.sends h) s.dev r) = none → s.dev.absIndex x.tenancy 9 64 r.group = some a →
    Runs (.floodGroupSet h r) s fun d => d.Replied h .ok [] ∧ d.vers.groups.get? a = some r) ∧
  (∀ (h : Hdr) (r : MirrorSessionRec) (s : State) (x : Session),
    s.Serves { code := 0x0706, lenOk := exactly 16, maxBody := 0 } h x → s.Hears h →
    firstFail (mirrorSessionChecks (x.sends h) s.dev r) = none →
    Runs (.mirrorSessionSet h r) s fun d => d.Replied h .ok [] ∧
      d.vers.mirrors.get? (x.tenancy * 16 + r.session) =
        some { data := r, tokens := { level := r.burst * byteUnits, at' := s.dev.now } }) ∧
  (∀ (h : Hdr) (r : CopyLimitRec) (s : State) (x : Session),
    s.Serves { code := 0x0707, lenOk := exactly 12, maxBody := 0 } h x → s.Hears h → x.role = .owner →
    r.tenancy ≤ 15 → r.sessions ≤ 16 → 1 ≤ r.burst → r.burst ≤ 4096 → r.ratePps ≤ 1000000 →
    r.mirrorMaxMbps ≤ 100000 →
    Runs (.copyLimitSet h r) s fun d => d.Replied h .ok [] ∧ d.copyLimit r.tenancy = r ∧
      d.vers.copyTokens.get? r.tenancy = some { level := r.burst * 2 ^ 32, at' := s.dev.now }) ∧
  (∀ (h : Hdr) (r : ActionRec) (s : State) (x : Session),
    s.Serves { code := 0x0708, lenOk := exactly 36, maxBody := 0 } h x → s.Hears h →
    firstFail (actionSetChecks (x.sends h) s.dev r) = none →
    Runs (.actionSet h r) s fun d => d.Replied h .ok [] ∧
      d.data = (s.dev.stage x.tenancy (.actionAdd (s.dev.actionAbs x.tenancy r.index) r)
        [(5, s.dev.actionAbs x.tenancy r.index / 4096)] 1).data) ∧
  (∀ (h : Hdr) (i a : Nat) (r : ActionRec) (s : State) (x : Session),
    s.Serves { code := 0x0709, lenOk := exactly 2, maxBody := 0 } h x → s.Hears h →
    firstFail (actionClearChecks (x.sends h) s.dev i) = none →
    s.dev.actionAt x.tenancy s.dev.current i = some (a, r) →
    Runs (.actionClear h i) s fun d => d.Replied h .ok [] ∧
      d.data = (s.dev.stage x.tenancy (.actionDel a r) [(5, a / 4096)] 1).data) ∧
  (∀ (h : Hdr) (s : State) (x : Session),
    s.Serves { code := 0x070A, lenOk := exactly 0, maxBody := 2048, changes := false } h x → s.Hears h →
    x.role = .tenant →
    Runs (.actStatsGet h) s fun d => d.data = s.dev.data ∧
      d.Replied h .ok (actionAggregates s.dev x.tenancy ++ actionOwn s.dev x.tenancy)) ∧
  (∀ (h : Hdr) (r : TemplateRec) (a : Nat) (s : State) (x : Session),
    s.Serves { code := 0x070B, lenOk := exactly 68, maxBody := 0 } h x → s.Hears h →
    firstFail (templateChecks (x.sends h) s.dev r) = none → s.dev.absIndex x.tenancy 8 128 r.index = some a →
    Runs (.templateSet h r) s fun d => d.Replied h .ok [] ∧ d.vers.templates.get? a = some r)

/-- 08: the control stores, the hook generations and the overlays (R216, R220, R221). -/
def Obligations.MicrocodeCommandsRun : Prop :=
  (∀ (a : Activation) (s : State), s.On → s.dev.micro.activation = some a → s.dev.hookInFlight a.old = false →
    Runs .hookGenDrained s fun d => d.micro = { s.dev.micro with
      hooks := hooksWithout s.dev.micro.hooks a.old fun _ => true
      genDigest := s.dev.micro.genDigest.del a.old
      activation := none }) ∧
  (∀ (a : Activation) (tok : Machine.Token) (s : State), s.On → s.dev.micro.activation = some a → a.token = some tok →
    a.deadline ≤ s.dev.now →
    Runs .ucodeActivateTimeout s fun d =>
      d.micro = { s.dev.micro with activation := some { a with token := none } }) ∧
  (∀ (k st : Nat) (s : State), s.On → k < 7 → st < 20 →
    Runs (.csScrubRead k st .uncorrectable) s fun d =>
      (d.engine k st).scrubAt = ((s.dev.engine k st).scrubAt + 1) % 4096 ∧
      (d.engine k st).bad.contains (s.dev.engine k st).scrubAt = true ∧ d.micro.stores = s.dev.micro.stores) ∧
  (∀ (k st : Nat) (s : State), s.On → k < 7 → st < 20 →
    Runs (.csScrubRead k st .corrected) s fun d => d.data =
      (s.dev.setEngine k st { s.dev.engine k st with scrubAt := ((s.dev.engine k st).scrubAt + 1) % 4096 }).data ∧
      d.ctr .csEccCorrected (k * 32 + st) 0 = (s.dev.ctr .csEccCorrected (k * 32 + st) 0 + 1) % 2 ^ 64) ∧
  (∀ (k st a : Nat) (s : State), s.On → (s.dev.engine k st).bad.contains a = true →
    Runs (.csWordRepair k st a) s fun d => d.engine k st =
      { s.dev.engine k st with bad := (s.dev.engine k st).bad.filter (· != a) }) ∧
  (∀ (k st : Nat) (o : OverlayEntry) (s : State), s.On →
    (s.dev.engine k st).overlay.find? (fun o => o.committed) = some o →
    Runs (.overlayDrain k st) s fun d => (d.engine k st).overlay = (s.dev.engine k st).overlay.erase o ∧
      d.micro.custMem = Mem.write s.dev.micro.custMem (custKey k st o.addr) o.value.toNat)

/-- 08: the messages of customer microcode and customer memory (R219, R221 to R224). -/
def Obligations.MicrocodeMessagesRun : Prop :=
  (∀ (h : Hdr) (r : UcodeLoadRec) (img : UcodeImage) (s : State) (x : Session),
    s.Serves { code := 0x0801, lenOk := exactly 16, maxBody := 2048, canAsync := true } h x → x.role = .owner →
    64 ≤ r.imageLen → r.imageLen ≤ 4194304 → s.dev.micro.loading = false → s.dev.mayRequest h.fn = true →
    Runs (.ucodeLoad h r img) s fun d => d.micro = { s.dev.micro with loading := true }) ∧
  (∀ (h : Hdr) (r : UcodeAcceptRec) (i : LoadedImage) (s : State) (x : Session),
    s.Serves { code := 0x0802, lenOk := exactly 52, maxBody := 0 } h x → s.Hears h →
    firstFail (ucodeAcceptChecks (x.sends h) s.dev r) = none → r.flags.testBit 0 = false →
    i ∈ s.dev.micro.images → i.digest = r.digest →
    Runs (.ucodeAccept h r) s fun d => d.Replied h .ok [] ∧ (x.tenancy, r.digest) ∈ d.island.accepts ∧
      i.accept x.tenancy true ∈ d.micro.images ∧ d.micro.hooks = s.dev.micro.hooks) ∧
  (∀ (h : Hdr) (r : UcodeActivateRec) (s : State) (x : Session),
    s.Serves { code := 0x0803, lenOk := exactly 52, maxBody := 0, canAsync := true } h x →
    firstFail (ucodeActivateChecks (x.sends h) s.dev r) = none →
    Runs (.ucodeActivate h r) s fun d => d.micro.generation = 1 - s.dev.micro.generation ∧
      d.micro.genDigest.get? (1 - s.dev.micro.generation) = some r.digest ∧
      d.micro.hooks.cells = imageHooks (1 - s.dev.micro.generation) (s.dev.image r.digest) ++
        (hooksWithout s.dev.micro.hooks (1 - s.dev.micro.generation) fun _ => true).cells ∧
      ∃ a, d.micro.activation = some a ∧ a.old = s.dev.micro.generation ∧
        a.deadline = s.dev.now + r.deadlineMs * cyclesPerMs) ∧
  (∀ (h : Hdr) (r : CustMemRec) (s : State) (x : Session) (k : Nat),
    s.Serves { code := 0x0804, lenOk := fun l => l = 8 + 8 * r.count, maxBody := 0 } h x →
    firstFail (custMemChecks (x.sends h) s.dev r) = none → k < 7 → r.sleeves.testBit k = true →
    (∀ i, i < r.count → (s.dev.absIndex x.tenancy 10 256 (r.index + i)).isSome) →
    Runs (.custMemWrite h r) s fun d => d.micro.custMem = s.dev.micro.custMem ∧
      (d.sleeve k).hk = (s.dev.sleeve k).hk ++ (List.range r.count).map fun i =>
        .custWrite r.stage ((s.dev.absIndex x.tenancy 10 256 (r.index + i)).getD 0)
          (BitVec.ofNat 64 (r.data.getD i 0))) ∧
  (∀ (h : Hdr) (r : CustMemRec) (s : State) (x : Session) (k a : Nat),
    s.Serves { code := 0x0805, lenOk := exactly 8, maxBody := 3584, changes := false } h x → s.Hears h →
    firstFail (custMemChecks (x.sends h) s.dev r) = none → r.sleeves = 2 ^ k → k < 7 → r.count = 1 →
    s.dev.absIndex x.tenancy 10 256 r.index = some a →
    Runs (.custMemRead h r) s fun d => d.data = s.dev.data ∧ d.Replied h .ok [s.dev.custRead k r.stage a]) ∧
  (∀ (h : Hdr) (s : State) (x : Session),
    s.Serves { code := 0x0806, lenOk := exactly 0, maxBody := 2048, changes := false } h x → s.Hears h →
    x.role = .tenant →
    Runs (.ucodeStatusGet h) s fun d => d.data = s.dev.data ∧ d.Replied h .ok
      (s.dev.activeDigest :: ucodeCounters s.dev x.tenancy ++ s.dev.residences fun b => b.tenancy = x.tenancy))

/-- 09: the decision of stage 18, the hand-off of stage 19, the enqueue and the Seam path (R21 to R23, R175, R239,
R240). -/
def Obligations.EnqueueCommandsRun : Prop :=
  (∀ (fid : Nat) (f : Frame) (s : State), s.Plain fid f .enqueue → fld (settledDesc f) dDisp = dispForward →
    s.dev.claims { f with desc := settledDesc f } = false → (∀ t, s.dev.lining.captures.get? t = none) →
    Runs (.enqueueDecision fid) s fun d => ∃ g, d.frame fid = some g ∧ g.phase = .handoff ∧ g.place = false ∧
      g.desc = settledDesc f ∧ g.seam = .none ∧ g.bytes = f.bytes ∧ g.pockets = f.pockets ∧ d.queues = s.dev.queues) ∧
  (∀ (fid : Nat) (f : Frame) (s : State), s.Plain fid f .enqueue → fld (settledDesc f) dDisp = dispRecirc →
    f.place = true → f.fragWaits = none →
    Runs (.enqueueDecision fid) s fun d => (∃ g, d.frame fid = some g ∧ g.phase = .slot ∧ g.pass = 1 ∧ g.place = true) ∧
      { fid := fid, readyAt := some (s.dev.now + 1) } ∈ (d.sleeve f.sleeve).recirc) ∧
  (∀ (fid : Nat) (f : Frame) (s : State), s.Plain fid f .handoff →
    Runs (.egressHandoff fid) s fun d => d.frame fid = some { f with phase := .yoke } ∧
      d.inflight (fld f.ctx fVersion) f.sleeve = s.dev.inflight (fld f.ctx fVersion) f.sleeve - 1 ∧
      d.yoke = s.dev.yoke) ∧
  (∀ (p fid : Nat) (f : Frame) (s : State), s.On → s.dev.claimsOn p = [(fid, f)] → s.dev.judge f = .grant →
    Runs (.seamClaim p) s fun d => d.data = (s.dev.grantClaim fid f).data ∧ d.frame fid = some { f with
      seam := .granted f.launch (s.dev.txCycles f.target (s.dev.lenTx f.target (s.dev.egressLen f))) }) ∧
  (∀ (p fid : Nat) (f : Frame) (s : State), s.On → s.dev.claimsOn p = [(fid, f)] → s.dev.judge f = .miss →
    Runs (.seamClaim p) s fun d => d.frame fid = some { f with seam := .none } ∧
      d.ctr .seamMiss p 0 = (s.dev.ctr .seamMiss p 0 + 1) % 2 ^ 64 ∧ d.yoke = s.dev.yoke) ∧
  (∀ (fid : Nat) (f : Frame) (s : State), s.On → s.dev.frame fid = some f → f.phase = .yoke → f.ended = true →
    f.seam = .none → f.bad = false → f.noMore = false → lateMalformed f = false → f.learn = none → f.rel = none →
    fld f.desc dDisp = dispForward → s.dev.flushes f.target = false → s.dev.yoke.descUsed < descTotal →
    s.dev.elastic f.target (fld f.desc dQueue) = false →
    queuePockets (s.dev.queue f.target (fld f.desc dQueue)) + f.pockets.length ≤
      (s.dev.buf f.target (fld f.desc dQueue)).limit →
    Runs (.enqueue fid) s fun d => d.queue f.target (fld f.desc dQueue) =
        s.dev.queue f.target (fld f.desc dQueue) ++ [s.dev.entryFor fid f false] ∧
      d.yoke.descUsed = s.dev.yoke.descUsed + 1 ∧
      ∃ g, d.frame fid = some g ∧ g.phase = .done ∧ g.refs = f.refs + 1 + f.copies.length) ∧
  (∀ (fid : Nat) (f : Frame) (s : State), s.On → s.dev.frame fid = some f → f.phase = .yoke → f.ended = true →
    f.seam = .none → f.bad = false → f.noMore = false → lateMalformed f = false → f.learn = none → f.rel = none →
    fld f.desc dDisp = dispForward → s.dev.flushes f.target = false → descTotal ≤ s.dev.yoke.descUsed →
    Runs (.enqueue fid) s fun d => d.yoke.queues = s.dev.yoke.queues ∧
      d.ctr .queueDrops (qKey f.target (fld f.desc dQueue)) 26 =
        (s.dev.ctr .queueDrops (qKey f.target (fld f.desc dQueue)) 26 + 1) % 2 ^ 64) ∧
  (∀ (p fid tx : Nat) (f : Frame) (s : State), s.On → s.dev.grantsOn p = [(fid, s.dev.now, tx)] →
    s.dev.frame fid = some f → (s.dev.port p).txFrame = none →
    Runs (.seamLaunch p) s fun d => d.data = (s.dev.launchFrame p fid s.dev.now tx f).data)

/-- 09: copies and mirrors, spill and return, and the Pocket caches (R188, R192, R235, R236, R247, R248, R425). -/
def Obligations.YokeCommandsRun : Prop :=
  (∀ (fid k : Nat) (j : CopyJob) (js : List CopyJob) (f : Frame) (s : State), s.On → s.dev.frame fid = some f →
    f.phase = .done → f.ended = true → f.copies = j :: js → j.target = .collar k →
    Runs (.copyMirrorRead fid true) s fun d =>
      d.data = (((s.dev.setFrame fid { f with copies := js }).makeCopy fid f j).unref fid).data) ∧
  (∀ (fid t : Nat) (j : CopyJob) (js : List CopyJob) (f : Frame) (s : State), s.On → s.dev.frame fid = some f →
    f.phase = .done → f.ended = true → f.copies = j :: js → j.target = .host t → 2 ≤ f.refs →
    Runs (.copyMirrorRead fid false) s fun d => (∃ g, d.frame fid = some g ∧ g.copies = js ∧ g.refs = f.refs - 1) ∧
      d.ctr .copyQueueDrop j.tenancy 0 = (s.dev.ctr .copyQueueDrop j.tenancy 0 + 1) % 2 ^ 64) ∧
  (∀ (fn : Nat) (e : RxEntry) (d' : Dev) (s : State), s.On → s.dev.nextCopy fn = some (e, d') →
    (s.dev.mbox fn).rx.enabled = true → (s.dev.mbox fn).hostLost = false → (s.dev.fend fn).busMaster = true →
    e.slots ≤ (s.dev.mbox fn).rx.room →
    Runs (.rxRingCopyWrite fn) s fun d => (d.mbox fn).rx.tail = ((s.dev.mbox fn).rx.tail + e.slots) % 2 ^ 32 ∧
      (d.mbox fn).copies = (s.dev.mbox fn).copies ++ [{ e with
        index := (s.dev.mbox fn).rx.tail, phase := phaseBit (s.dev.mbox fn).rx.size (s.dev.mbox fn).rx.tail }]) ∧
  (∀ (fid k : Nat) (es : List QEntry) (f : Frame) (s : State), s.On → s.dev.frame fid = some f →
    s.dev.spillQueue fid 1 = some (k, es) → f.refs = 1 → f.copies = [] →
    Runs (.spillWriteDone fid) s fun d =>
      (∃ g, d.frame fid = some g ∧ g.pockets = []) ∧ d.queue (k / 16) (k % 16) =
        es.map fun e => if e.fid = fid && e.spill = 1 then { e with spill := 2 } else e) ∧
  (∀ (p q n : Nat) (e : QEntry) (d' : Dev) (s : State), s.On → s.dev.yoke.retryAt.get? (qKey p q) = none →
    (s.dev.queue p q).length = n + 1 → spilledHead (s.dev.queue p q) 0 = some (e, 0) →
    s.dev.returnOne p q e = (false, d') →
    Runs (.spillReturn p q) s fun d => d = d'.flush) ∧
  (∀ (p q t : Nat) (s : State), s.On → s.dev.yoke.retryAt.get? (qKey p q) = some t → t ≤ s.dev.now →
    Runs (.spillReturnRetry p q) s fun d => d =
      (Dev.returnFrames { s.dev with yoke := { s.dev.yoke with retryAt := s.dev.yoke.retryAt.del (qKey p q) } } p q
        (s.dev.queue p q).length).flush) ∧
  (∀ (u k : Nat) (x : Served) (s : State), s.On → (s.dev.pool k).scarce = false → s.dev.mayServe u k = true →
    (s.dev.cache u).find? (fun x => x.pool = k) = some x → x.held.length < 4 →
    Runs (.cachePrefetch u k) s fun d => d.cache u = ((s.dev.cache u).filter fun y => y.pool != k) ++
      [{ x with held := x.held ++ (s.dev.grantMany u k (8 - x.held.length)).1 }]) ∧
  (∀ (u : Nat) (x : Served) (s : State), s.On → longestIdle (s.dev.cache u) = some x →
    (∀ y ∈ s.dev.cache u, y.used + 4096 ≤ s.dev.now) →
    Runs (.cacheIdleReturn u) s fun d => d.cache u = (s.dev.cache u).filter fun y => y.pool != x.pool) ∧
  (∀ (k u : Nat) (s : State), s.On → (s.dev.pool k).scarce = true → u < 15 →
    Runs (.cacheLowWaterReturn k) s fun d => ∀ x ∈ d.cache u, x.pool = k → x.held = [])

/-- 09: the messages of pools, queue buffers and the Yoke (R250 to R252). -/
def Obligations.YokeMessagesRun : Prop :=
  (∀ (h : Hdr) (r : PoolRec) (s : State) (x : Session),
    s.Serves { code := 0x0901, lenOk := exactly 8, maxBody := 0 } h x → s.Hears h →
    firstFail (poolChecks (x.sends h) s.dev r) = none → r.tenancy = (s.dev.pool r.pool).tenancy →
    Runs (.poolSet h r) s fun d => d.Replied h .ok [] ∧ d.data = (s.dev.applyPool r 0).data ∧
      (d.pool r.pool).size = r.size) ∧
  (∀ (h : Hdr) (r : QueueBufRec) (s : State) (x : Session),
    s.Serves { code := 0x0902, lenOk := exactly 20, maxBody := 0 } h x → s.Hears h →
    firstFail (queueBufChecks (x.sends h) s.dev r) = none →
    Runs (.queueBufSet h r) s fun d => d.Replied h .ok [] ∧ d.buf r.port r.queue = r ∧
      d.yoke.queues = s.dev.yoke.queues) ∧
  (∀ (h : Hdr) (mib : Nat) (s : State) (x : Session),
    s.Serves { code := 0x0903, lenOk := exactly 4, maxBody := 0, early := false } h x → s.Hears h → x.role = .owner →
    mib ≤ 32768 → mib + s.dev.lining.storeMib ≤ stripedMib Config.dramDense → s.dev.yoke.spillUnits = [] →
    Runs (.bufGlobalSet h mib) s fun d => d.Replied h .ok [] ∧
      d.yoke = { s.dev.yoke with regionMib := mib }) ∧
  (∀ (h : Hdr) (s : State) (x : Session),
    s.Serves { code := 0x0904, lenOk := exactly 0, maxBody := 2048, changes := false } h x → s.Hears h →
    Runs (.yokeStatsGet h) s fun d => d.Replied h .ok (yokeStats (x.sends h) s.dev) ∧
      d.yoke.queues = s.dev.yoke.queues ∧ d.yoke.pools = s.dev.yoke.pools) ∧
  (∀ (h : Hdr) (k n : Nat) (s : State) (x : Session),
    s.Serves { code := 0x0905, lenOk := fun _ => true, maxBody := 8, changes := false } h x → s.Hears h →
    x.role ≠ .tenant → k ≤ 31 → n < 524288 →
    Runs (.poolStatusGet h k n) s fun d => d.data = s.dev.data ∧ d.Replied h .ok [s.dev.pocketWord n])

/-- 10: the meter and the colour actions of stages 10 and 11 (R254 to R266). -/
def Obligations.MeterCommandsRun : Prop :=
  (∀ (fid i a : Nat) (r : MeterBindRec) (f : Frame) (s : State), s.Plain fid f .meter → fld f.ctx fFragState ≠ 5 →
    let g := { f with ctx := putBits f.ctx 15 22 0 };
    contextOf s.dev g = some i → s.dev.absIndex (fld g.ctx fTenancy) 4 4096 i = some a →
    s.dev.bindingAt a (fld g.ctx fVersion) = some r →
    let b := meteredLength g (r.flags.testBit 2) * 2 ^ 32;
    let c := inColour s.dev g (r.flags.testBit 1);
    let m := decide' r (refill r (s.dev.meterCell f.sleeve a) (s.dev.sleeveCycles f.sleeve)) b c;
    Runs (.meterAccess fid .clean) s fun d => d.meterCell f.sleeve a = m.2 ∧ d.frame fid = some { g with
      phase := .colour, meterCtx := some a
      ctx := putAll g.ctx [(fInColour, c), (fColour, m.1), (fMetered, 1)] }) ∧
  (∀ (fid : Nat) (ecc : Ecc) (f : Frame) (s : State), s.Plain fid f .meter →
    let g := { f with ctx := putBits f.ctx 15 22 0 };
    contextOf s.dev g = none →
    Runs (.meterAccess fid ecc) s fun d => d.meter = s.dev.meter ∧ d.frame fid = some { g with
      phase := .colour, meterCtx := none
      ctx := putAll g.ctx [(fInColour, inColour s.dev g false), (fColour, 0)] }) ∧
  (∀ (fid a : Nat) (r : MeterBindRec) (f : Frame) (s : State), s.Plain fid f .colour → f.meterCtx = some a →
    s.dev.bindingAt a (fld f.ctx fVersion) = some r → fld f.ctx fColour = 2 → r.flags % 128 / 8 = 1 →
    Runs (.colourAction fid) s fun d => d.meter = s.dev.meter ∧
      d.frame fid = some { f with phase := .action, ctx := putAll f.ctx [(fRedDrop, 1)] }) ∧
  (∀ (fid a : Nat) (r : MeterBindRec) (f : Frame) (s : State), s.Plain fid f .colour → f.meterCtx = some a →
    s.dev.bindingAt a (fld f.ctx fVersion) = some r → r.flags.testBit 4 = true → r.flags.testBit 5 = true →
    r.flags.testBit 6 = true → fld f.ctx fColour = 1 →
    Runs (.colourAction fid) s fun d => d.meter = s.dev.meter ∧ d.frame fid = some { f with
      phase := .action
      ctx := putAll f.ctx [(fDscpRemark, 1), (fDscp, byColour r.dscp 1), (fPcpRemark, 1), (fPcpVal, byColour r.pcp 1),
        (fColourQueue, 1), (fQueueVal, byColour r.queue 1)] }) ∧
  (∀ (h : Hdr) (r : MeterBindRec) (s : State) (x : Session),
    s.Serves { code := 0x0A01, lenOk := exactly 44, maxBody := 0 } h x → s.Hears h →
    firstFail (meterBindChecks (x.sends h) s.dev r) = none →
    Runs (.meterBind h r) s fun d => d.Replied h .ok [] ∧
      d.data = (s.dev.stage x.tenancy (.bindAdd (s.dev.contextAbs x.tenancy r.index) r)
        [(4, s.dev.contextAbs x.tenancy r.index / 4096)] 1).data) ∧
  (∀ (h : Hdr) (i : Nat) (b : MeterBindRec) (s : State) (x : Session),
    s.Serves { code := 0x0A02, lenOk := exactly 2, maxBody := 0 } h x → s.Hears h →
    firstFail (meterUnbindChecks (x.sends h) s.dev i) = none →
    s.dev.bindingAt (s.dev.contextAbs x.tenancy i) s.dev.current = some b →
    Runs (.meterUnbind h i) s fun d => d.Replied h .ok [] ∧
      d.data = (s.dev.stage x.tenancy (.bindDel (s.dev.contextAbs x.tenancy i) b)
        [(4, s.dev.contextAbs x.tenancy i / 4096)] 1).data) ∧
  (∀ (h : Hdr) (r : MeterTenancyRec) (s : State) (x : Session),
    s.Serves { code := 0x0A03, lenOk := exactly 28, maxBody := 0 } h x → s.Hears h →
    firstFail (meterTenancyChecks (x.sends h) s.dev r) = none →
    Runs (.meterTenancySet h r) s fun d => d.Replied h .ok [] ∧
      d.meterTenancy x.tenancy = { r with flags := r.flags % 4 } ∧
      ∀ t, t ≠ x.tenancy → d.meterTenancy t = s.dev.meterTenancy t) ∧
  (∀ (h : Hdr) (i : Nat) (s : State) (x : Session),
    s.Serves { code := 0x0A04, lenOk := exactly 2, maxBody := 2048, changes := false } h x → s.Hears h →
    x.role = .maint →
    Runs (.meterStatsGet h i) s fun d => d.data = s.dev.data ∧
      d.Replied h .ok ((List.range 7).map fun k => s.dev.ctr .meterEcc k 0)) ∧
  (∀ (h : Hdr) (i : Nat) (s : State) (x : Session),
    s.Serves { code := 0x0A04, lenOk := exactly 2, maxBody := 2048, changes := false } h x → s.Hears h →
    x.role = .tenant → s.dev.absIndex x.tenancy 4 4096 i = none →
    Runs (.meterStatsGet h i) s fun d => d.data = s.dev.data ∧ d.Replied h .notPermitted [])

/-- 11: selection, the sojourn limit and transmission (R276 to R279, R283, R286, R287, R85, R233). -/
def Obligations.SchedulerCommandsRun : Prop :=
  (∀ (p q : Nat) (e : QEntry) (es : List QEntry) (s : State), s.On → p < 96 → s.dev.isUp p = true →
    (∀ j, j < 16 → s.dev.sduCheck p j = s.dev) → (s.dev.port p).txEnds ≤ s.dev.now + 72 →
    s.dev.strictPick p = some q → s.dev.queue p q = e :: es → (s.dev.schedQueue p q).shaper = false →
    (∀ x ∈ es, x.spill ≠ 3) →
    Runs (.schedulerSelect p) s fun d => d.queue p q = es ∧ d.queues.ports = s.dev.queues.ports ∧
      (d.port p).txEnds = s.dev.now + 72 + s.dev.entryTx p e ∧
      d.queues.selected.get [] p = s.dev.queues.selected.get [] p ++
        [{ queue := q, start := s.dev.now + 72, tx := s.dev.entryTx p e, entry := e, overran := false }]) ∧
  (∀ (p : Nat) (v : Visit) (l : List (Nat × Nat)) (e : QEntry) (x y : QEntry) (es : List QEntry) (s : State), s.On →
    p < 96 → s.dev.isUp p = true → (∀ j, j < 16 → s.dev.sduCheck p j = s.dev) →
    (s.dev.port p).txEnds ≤ s.dev.now + 72 → s.dev.strictPick p = none →
    drr (s.dev.visits p) (s.dev.schedPort p).pointer = some (v, l) →
    s.dev.queue p v.q = e :: x :: y :: es → (∀ z ∈ x :: y :: es, z.spill ≠ 3) →
    Runs (.schedulerSelect p) s fun d => d.queue p v.q = x :: y :: es ∧ (d.schedPort p).pointer = v.q ∧
      (d.schedQueue p v.q).deficit = (l.lookup v.q).getD v.deficit - v.len) ∧
  (∀ (p : Nat) (s : State), s.On → p < 96 → s.dev.isUp p = true → (∀ j, j < 16 → s.dev.sduCheck p j = s.dev) →
    (s.dev.port p).txEnds ≤ s.dev.now → s.dev.pick p = none → (s.dev.port p).txFrame = none →
    s.dev.queues.guardAt.get? p ≠ some s.dev.now → (List.range 16).any (s.dev.guardWaits p) = true →
    Runs (.schedulerSelect p) s fun d => d.ctr .guardIdle p 0 = (s.dev.ctr .guardIdle p 0 + 1) % 2 ^ 64 ∧
      d.yoke = s.dev.yoke ∧ d.queues.selected = s.dev.queues.selected) ∧
  (∀ (p q : Nat) (e : QEntry) (es : List QEntry) (s : State), s.On → q < 16 → s.dev.queue p q = e :: es →
    s.dev.expired p q e = true → (∀ j, j < q → s.dev.queue p j = []) →
    Runs (.sojournCheck p) s fun d => d.data = (s.dev.headDrop p q e es 28).data ∧
      d.ctr .sojournExpired (qKey p q) 0 = (s.dev.ctr .sojournExpired (qKey p q) 0 + 1) % 2 ^ 64) ∧
  (∀ (p : Nat) (ecc : Ecc) (x : Selection) (xs : List Selection) (f : Frame) (s : State), s.On →
    s.dev.queues.selected.get [] p = x :: xs → x.start ≤ s.dev.now → (s.dev.port p).txFrame = none →
    s.dev.frame x.entry.fid = some f → s.dev.isUp p = true → ecc ≠ .uncorrectable → f.noMore = false →
    x.entry.spill = 0 →
    let d0 : Dev := { s.dev with queues := { s.dev.queues with selected := s.dev.queues.selected.set p xs } };
    let o : Outgoing := { start := x.start, sel := x, frame := f, isSeam := false };
    (d0.sendFrame p o).1 = true →
    Runs (.frameTxStart p ecc) s fun d =>
      d = (((d0.sendFrame p o).2.subDesc 1).freeUnits x.entry.units).flush ∧ d.queues.selected.get [] p = xs) ∧
  (∀ (p fid : Nat) (f : Frame) (s : State), s.On → (s.dev.port p).txFrame = some fid → s.dev.frame fid = some f →
    f.ended = true → (s.dev.port p).txDone ≤ s.dev.now →
    Runs (.frameTxEnd p) s fun d => (d.port p).txFrame = none ∧ d.queues.sending.get? p = none ∧
      d.ctr .txFrames p 0 = (s.dev.ctr .txFrames p 0 + 1) % 2 ^ 64)

/-- 11: the gates of a port, and the sampler (R281, R282, R288, R289). -/
def Obligations.GateCommandsRun : Prop :=
  (∀ (p : Nat) (l : GateList) (e : GateEntry) (s : State), s.On → (s.dev.gatePort p).oper = some l →
    l.entries[(s.dev.gatePort p).entry]? = some e → (s.dev.gatePort p).entry + 1 < l.entries.length →
    (s.dev.gatePort p).entryAt + e.durationM1 + 1 ≤ s.dev.now →
    Runs (.gateEntryAdvance p) s fun d => d.data = (s.dev.setGatePort p { s.dev.gatePort p with
      entry := (s.dev.gatePort p).entry + 1
      entryAt := (s.dev.gatePort p).entryAt + e.durationM1 + 1 }).data) ∧
  (∀ (p : Nat) (l : GateList) (s : State), s.On → (s.dev.gatePort p).oper = some l →
    s.dev.untilNs (s.dev.gatePort p).nextNs ≤ 0 → (s.dev.gatePort p).change = none →
    Runs (.gateCycleBoundary p) s fun d => (d.gatePort p).entry = 0 ∧ (d.gatePort p).oper = some l ∧
      (d.gatePort p).nextNs = ((s.dev.gatePort p).nextNs + l.cycleNs) % wrapNs ∧
      ∀ q, q ≠ p → d.gatePort q = s.dev.gatePort q) ∧
  (∀ (p c : Nat) (l : GateList) (s : State), s.On → (s.dev.gatePort p).oper = some l →
    s.dev.untilNs (s.dev.gatePort p).nextNs ≤ 0 → (s.dev.gatePort p).change = some c →
    (c + wrapNs - (s.dev.gatePort p).nextNs) % wrapNs < l.extNs →
    Runs (.gateCycleBoundary p) s fun d => (d.gatePort p).entry = (s.dev.gatePort p).entry ∧
      (d.gatePort p).entryAt = (s.dev.gatePort p).entryAt ∧ (d.gatePort p).change = some c) ∧
  (∀ (p c : Nat) (s : State), s.On → (s.dev.gatePort p).change = some c → s.dev.untilNs c ≤ 0 →
    s.dev.queues.selected.get [] p = [] → s.dev.queues.sending.get? p = none →
    Runs (.gateConfigChange p) s fun d => (d.gatePort p).oper = some (s.dev.gatePort p).installs ∧
      (d.gatePort p).entry = 0 ∧ (d.gatePort p).change = none ∧
      (d.gatePort p).adminEntries = (s.dev.gatePort p).adminEntries ∧
      d.ctr .gateChanges p 0 = (s.dev.ctr .gateChanges p 0 + 1) % 2 ^ 32) ∧
  (∀ (p t : Nat) (x : Sampler) (s : State), s.On → s.dev.queues.samplers.get? (samplerKey t p) = some x →
    x.since + 3 * x.data.intervalNs ≤ s.dev.now → (s.dev.sampleRing t).lost = 0 →
    (s.dev.sampleRing t).records.length < (s.dev.sampleRing t).room →
    Runs (.samplerTick p t) s fun d => d.yoke = s.dev.yoke ∧
      d.queues.samplers.get? (samplerKey t p) = some { x with since := x.since + 3 * x.data.intervalNs } ∧
      ∃ y, (d.sampleRing t).records = (s.dev.sampleRing t).records ++ [y] ∧ y.kind = 0 ∧ y.port = p ∧
        y.entries = (List.range 16).flatMap (s.dev.sampleOf p x.data.queueMask)) ∧
  (∀ (p t : Nat) (x : Sampler) (s : State), s.On → s.dev.queues.samplers.get? (samplerKey t p) = some x →
    x.since + 3 * x.data.intervalNs ≤ s.dev.now → (s.dev.sampleRing t).room ≤ (s.dev.sampleRing t).records.length →
    Runs (.samplerTick p t) s fun d => (d.sampleRing t).records = (s.dev.sampleRing t).records ∧
      (d.sampleRing t).lost = (s.dev.sampleRing t).lost + 1 ∧
      d.ctr .sampleOverflow t 0 = (s.dev.ctr .sampleOverflow t 0 + 1) % 2 ^ 64)

/-- 11: the messages of schedulers, gates and samplers (R279 to R282, R289 to R292). The operands of SCHED_STATS_GET are
the model's (log entry 78). -/
def Obligations.SchedulerMessagesRun : Prop :=
  (∀ (h : Hdr) (r : SchedPortRec) (s : State) (x : Session),
    s.Serves { code := 0x0B01, lenOk := exactly 16, maxBody := 0 } h x → s.Hears h →
    firstFail (schedPortChecks (x.sends h) r) = none →
    Runs (.schedPortSet h r) s fun d => d.Replied h .ok [] ∧ (d.schedPort r.port).strict = r.strictCount ∧
      (d.schedPort r.port).quantum = r.quantumUnit ∧ (d.schedPort r.port).gateMap = r.queueGate % 2 ^ 48 ∧
      d.yoke = s.dev.yoke) ∧
  (∀ (h : Hdr) (r : SchedQueueRec) (s : State) (x : Session),
    s.Serves { code := 0x0B02, lenOk := exactly 24, maxBody := 0 } h x → s.Hears h →
    firstFail (schedQueueChecks (x.sends h) s.dev r) = none →
    Runs (.schedQueueSet h r) s fun d => d.Replied h .ok [] ∧
      d.schedQueue r.port r.queue = (s.dev.schedQueue r.port r.queue).change r s.dev.now ∧
      (d.schedQueue r.port r.queue).deficit = (s.dev.schedQueue r.port r.queue).deficit) ∧
  (∀ (h : Hdr) (r : GateConfigRec) (s : State) (x : Session),
    s.Serves { code := 0x0B03, lenOk := exactly 28, maxBody := 0 } h x → s.Hears h →
    firstFail (gateConfigChecks (x.sends h) s.dev r) = none → r.flags.testBit 1 = true →
    Runs (.gateConfigSet h r) s fun d => d.Replied h .ok [] ∧ (d.gatePort r.port).enabled = true ∧
      (d.gatePort r.port).oper = (s.dev.gatePort r.port).oper ∧
      (d.gatePort r.port).change = some (s.dev.changeTime r s.dev.now)) ∧
  (∀ (h : Hdr) (r : GateConfigRec) (s : State) (x : Session),
    s.Serves { code := 0x0B03, lenOk := exactly 28, maxBody := 0 } h x → s.Hears h →
    firstFail (gateConfigChecks (x.sends h) s.dev r) = none → r.flags.testBit 1 = false →
    r.flags.testBit 0 = false →
    Runs (.gateConfigSet h r) s fun d => d.Replied h .ok [] ∧ (d.gatePort r.port).enabled = false ∧
      (d.gatePort r.port).oper = none ∧ (d.gatePort r.port).change = none ∧
      (d.gatePort r.port).adminStates = r.adminGateStates % 256 ∧
      (d.gatePort r.port).admin = (s.dev.gatePort r.port).admin) ∧
  (∀ (h : Hdr) (r : GateEntriesRec) (s : State) (x : Session),
    s.Serves { code := 0x0B04, lenOk := fun n => n = 8 + 8 * r.count && r.entries.length = r.count, maxBody := 0 } h x →
    s.Hears h → firstFail (gateEntriesChecks (x.sends h) s.dev r) = none →
    Runs (.gateEntriesSet h r) s fun d => d.Replied h .ok [] ∧
      (d.gatePort r.port).oper = (s.dev.gatePort r.port).oper ∧
      (∀ i e, r.entries[i]? = some e → (d.gatePort r.port).adminEntries.get? (r.first + i) =
        some { durationM1 := e.durationM1 % 2 ^ 32, gateStates := e.gateStates % 256 }) ∧
      ∀ i, i < r.first ∨ r.first + r.count ≤ i →
        (d.gatePort r.port).adminEntries.get? i = (s.dev.gatePort r.port).adminEntries.get? i) ∧
  (∀ (h : Hdr) (r : SamplerQuotaRec) (s : State) (x : Session),
    s.Serves { code := 0x0B05, lenOk := exactly 96, maxBody := 0 } h x → s.Hears h →
    firstFail (samplerQuotaChecks (x.sends h) r) = none → s.dev.queues.samplers = .none →
    Runs (.samplerQuotaSet h r) s fun d => d.Replied h .ok [] ∧
      ∀ t, t < 16 → (d.sampleRing t).kib = r.ringKib.getD t 0 ∧ d.queues.quotas.get 0 t = r.quota.getD t 0) ∧
  (∀ (h : Hdr) (r : SamplerRec) (s : State) (x : Session),
    s.Serves { code := 0x0B06, lenOk := exactly 8, maxBody := 0 } h x → s.Hears h →
    firstFail (samplerChecks (x.sends h) s.dev r) = none →
    Runs (.samplerSet h r) s fun d => d.Replied h .ok [] ∧
      d.queues.samplers.get? (samplerKey x.tenancy r.port) =
        if r.flags.testBit 0 then some { data := r, since := s.dev.now } else none) ∧
  (∀ (h : Hdr) (n : Nat) (s : State) (x : Session),
    s.Serves { code := 0x0B07, lenOk := exactly 4, maxBody := 12 + 64 * 144 } h x → s.Hears h → 1 ≤ n → n ≤ 64 →
    (s.dev.sampleRing x.tenancy).lost = 0 →
    let out := (s.dev.sampleRing x.tenancy).records.take n;
    Runs (.sampleRead h n) s fun d =>
      d.Replied h .ok ([out.length, s.dev.ctr .sampleOverflow x.tenancy 0] ++ out.flatMap sampleRow) ∧
      (d.sampleRing x.tenancy).records = (s.dev.sampleRing x.tenancy).records.drop n) ∧
  (∀ (h : Hdr) (p : Nat) (s : State) (x : Session),
    s.Serves { code := 0x0B08, lenOk := fun _ => true, maxBody := 2048, changes := false } h x → s.Hears h →
    x.role = .maint → p ≤ 95 →
    Runs (.schedStatsGet h 0 p) s fun d => d.Replied h .ok (schedPortRow s.dev p) ∧ d.data = s.dev.data) ∧
  (∀ (h : Hdr) (p q : Nat) (s : State) (x : Session),
    s.Serves { code := 0x0B08, lenOk := fun _ => true, maxBody := 2048, changes := false } h x → s.Hears h →
    x.role = .tenant → p ≤ 95 → q < 16 → s.dev.holdsQueue x.tenancy p q = true →
    Runs (.schedStatsGet h 0 p) s fun d => d.queues.maxSojourn.get 0 (qKey p q) = 0) ∧
  (∀ (h : Hdr) (p : Nat) (s : State) (x : Session),
    s.Serves { code := 0x0B09, lenOk := fun _ => true, maxBody := 2048, changes := false } h x → s.Hears h →
    x.role = .maint → p ≤ 95 →
    Runs (.gateStatusGet h p) s fun d => d.data = s.dev.data ∧
      d.Replied h .ok (gateStatus (x.sends h) (s.dev.gatePort p)))

/-- 12: the classification of stage 17, and the calendar (R294 to R303). -/
def Obligations.ReleaseCommandsRun : Prop :=
  (∀ (fid : Nat) (f : Frame) (s : State), s.Plain fid f .release →
    releaseMeta s.dev { f with rel := none, ctx := putBits f.ctx 0 15 0 } = none →
    Runs (.releaseClassify fid) s fun d => d.rel = s.dev.rel ∧ d.frame fid = some { f with
      phase := .enqueue, rel := none, ctx := putBits f.ctx 0 15 0 }) ∧
  (∀ (fid m a : Nat) (r : RelProfileRec) (f : Frame) (s : State), s.Plain fid f .release →
    let g := { f with rel := none, ctx := putBits f.ctx 0 15 0 };
    let t := fld g.ctx fTenancy;
    releaseMeta s.dev g = some m → fld f.desc dDisp = dispForward →
    s.dev.relProfileAt t (fld g.ctx fVersion) (m % 4096) = (some a, some r) → admits r g.ctx = true →
    s.dev.holdsQueue t f.target r.queue = true → (radioTime g.ctx).inRange r = true →
    1 ≤ modeGbps (s.dev.port f.target).cfg.mode →
    let x := putAll f.desc [(dQueue, r.queue)];
    let w := windowOf r (radioTime g.ctx) f.stamp.time16
      (s.dev.txTime f.target (s.dev.lenTx f.target (s.dev.egressLen { g with
        ctx := putAll g.ctx [(fRelProfile, a)], desc := x }))).1;
    windowError w f.stamp.time16 = none → windowState w f.stamp.time16 = 2 →
    Runs (.releaseClassify fid) s fun d => d.rel = s.dev.rel ∧
      d.ctr .relHeld (f.sleeve * 16 + t) 0 = (s.dev.ctr .relHeld (f.sleeve * 16 + t) 0 + 1) % 2 ^ 64 ∧
      d.frame fid = some { f with
        phase := .enqueue, desc := x
        ctx := putAll (putAll g.ctx [(fRelProfile, a)]) [(fRelState, 2)]
        rel := some { state := 2, profile := fld (putAll g.ctx [(fRelProfile, a)]) fRelProfile, openAt := w.openAt,
                      latest := w.latest, lateFwd := r.flags.testBit 0, errFwd := r.flags.testBit 1,
                      queue := r.queue } }) ∧
  (∀ (fid m : Nat) (f : Frame) (s : State), s.Plain fid f .release →
    let g := { f with rel := none, ctx := putBits f.ctx 0 15 0 };
    let t := fld g.ctx fTenancy;
    releaseMeta s.dev g = some m → fld f.desc dDisp ≠ dispForward →
    Runs (.releaseClassify fid) s fun d =>
      d.ctr .relNotBound (f.sleeve * 16 + t) 0 = (s.dev.ctr .relNotBound (f.sleeve * 16 + t) 0 + 1) % 2 ^ 64 ∧
      d.frame fid = some { g with phase := .enqueue }) ∧
  (∀ (p fid : Nat) (f : Frame) (r : RelData) (s : State), s.On →
    firstOpen s.dev.time16 (s.dev.heldFrames p) = some (fid, f, r) → 0 ≤ diff16 s.dev.time16 r.openAt →
    Runs (.calendarRelease p) s fun d => d = (s.dev.release p fid f r).flush) ∧
  (∀ (p fid : Nat) (f : Frame) (r : RelData) (s : State), s.On →
    firstOpen s.dev.time16 (s.dev.heldFrames p) = some (fid, f, r) → 0 ≤ diff16 s.dev.time16 r.openAt →
    diff16 s.dev.time16 r.latest ≤ 0 → s.dev.flushes p = true → 2 ≤ f.refs → s.dev.frame fid = some f →
    Runs (.calendarRelease p) s fun d => d.calendar p = (s.dev.calendar p).filter (fun c => c.1 != fid) ∧
      d.frame fid = some { f with refs := f.refs - 1 } ∧
      d.ctr .calReleased p (fld f.ctx fTenancy) = (s.dev.ctr .calReleased p (fld f.ctx fTenancy) + 1) % 2 ^ 64) ∧
  (∀ (p fid : Nat) (f : Frame) (r : RelData) (s : State), s.On →
    firstOpen s.dev.time16 (s.dev.heldFrames p) = some (fid, f, r) → diff16 s.dev.time16 r.openAt < 0 →
    Runs (.calendarRelease p) s fun d => d = s.dev.flush)

/-- 12: the messages of release (R307 to R309). -/
def Obligations.ReleaseMessagesRun : Prop :=
  (∀ (h : Hdr) (r : RelProfileRec) (s : State) (x : Session),
    s.Serves { code := 0x0C01, lenOk := exactly 32, maxBody := 0 } h x → s.Hears h →
    firstFail (relProfileChecks (x.sends h) s.dev r) = none →
    let a := s.dev.relAbs x.tenancy r.index;
    Runs (.relProfileSet h r) s fun d => d.Replied h .ok [] ∧ d.rel = s.dev.rel ∧
      d.data = (s.dev.stage x.tenancy (.relAdd a { r with flags := r.flags % 4, msgMask := r.msgMask % 4 })
        [(6, a / 256)] 1).data) ∧
  (∀ (h : Hdr) (i : Nat) (p : RelProfile) (s : State) (x : Session),
    s.Serves { code := 0x0C02, lenOk := exactly 2, maxBody := 0 } h x → s.Hears h →
    firstFail (relClearChecks (x.sends h) s.dev i) = none →
    s.dev.rel.profiles.get? (s.dev.relAbs x.tenancy i) = some p →
    Runs (.relProfileClear h i) s fun d => d.Replied h .ok [] ∧ d.rel = s.dev.rel ∧
      d.data = (s.dev.stage x.tenancy (.relDel (s.dev.relAbs x.tenancy i) p.data)
        [(6, s.dev.relAbs x.tenancy i / 256)] 1).data) ∧
  (∀ (h : Hdr) (r : RelProfileRec) (s : State) (x : Session),
    s.Serves { code := 0x0C01, lenOk := exactly 32, maxBody := 0 } h x → s.Hears h →
    s.dev.block x.tenancy 6 (r.index / 256) = none →
    Runs (.relProfileSet h r) s fun d => d.Replied h .notPermitted [] ∧ d.data = s.dev.data) ∧
  (∀ (h : Hdr) (flags : Nat) (s : State) (x : Session),
    s.Serves { code := 0x0C03, lenOk := exactly 4, maxBody := 0 } h x → s.Hears h →
    firstFail (relTenancyChecks (x.sends h) s.dev) = none →
    Runs (.relTenancySet h flags) s fun d => d.Replied h .ok [] ∧ d.rel.profiles = s.dev.rel.profiles ∧
      d.rel.enabled.contains x.tenancy = flags.testBit 0 ∧
      ∀ t, t ≠ x.tenancy → d.rel.enabled.contains t = s.dev.rel.enabled.contains t) ∧
  (∀ (h : Hdr) (p n : Nat) (s : State) (x : Session),
    s.Serves { code := 0x0C04, lenOk := exactly 8, maxBody := 0 } h x → s.Hears h → x.role = .owner → p ≤ 95 →
    n ≤ 65536 →
    Runs (.relPortSet h p n) s fun d => d.Replied h .ok [] ∧ d.yoke = s.dev.yoke ∧
      d.rel.limits = s.dev.rel.limits.set p n) ∧
  (∀ (h : Hdr) (kind unit : Nat) (s : State) (x : Session),
    s.Serves { code := 0x0C05, lenOk := fun _ => true, maxBody := 2048, changes := false } h x → s.Hears h →
    kind ≤ 1 → unit ≤ 6 → x.role ≠ .owner →
    Runs (.relStatsGet h kind unit) s fun d => d.data = s.dev.data ∧
      d.Replied h .ok (relStats (x.sends h) s.dev kind unit)) ∧
  (∀ (h : Hdr) (i a : Nat) (p : RelProfile) (s : State) (x : Session),
    s.Serves { code := 0x0C06, lenOk := fun _ => true, maxBody := 2048, changes := false } h x → s.Hears h →
    x.role ≠ .maint → s.dev.absIndex x.tenancy 6 256 i = some a → s.dev.rel.profiles.get? a = some p →
    Runs (.relProfileRead h i) s fun d => d.data = s.dev.data ∧ d.Replied h .ok (relRow p))

/-- 13: the receive lanes, and the boundaries at which settings and keys take effect (R318 to R323). -/
def Obligations.MacsecCommandsRun : Prop :=
  (∀ (fid t : Nat) (f : Frame) (s : State), s.On → s.dev.frame fid = some f → f.macsecHeld = true →
    f.wireEnd = some t → f.verified = false → f.ended = false → beAt f.bytes 12 2 = 0x888E →
    Runs (.macsecRxVerify fid) s fun d => d.frame fid = some { f with verified := true } ∧
      d.cipher = s.dev.cipher ∧ d.yoke = s.dev.yoke) ∧
  (∀ (fid t sc slot : Nat) (k : SaKey) (g : SecTag) (f : Frame) (s : State), s.On → s.dev.frame fid = some f →
    f.macsecHeld = true → f.wireEnd = some t → f.verified = false → f.ended = false → beAt f.bytes 12 2 ≠ 0x888E →
    secTagOf f.bytes = some g → g.bad = false → f.rxSc = some sc → f.sa = some (slot, k) → s.dev.saKey slot = k →
    let iv := s.dev.rxIv sc slot k g;
    ((s.dev.replayRule sc).1 = false ∨ k.pn ≤ iv.2) → icvOk f.bytes g (secOffset f.rxMac.flags) k iv.1 = true →
    Runs (.macsecRxVerify fid) s fun d =>
      (d.saKey slot).pn = max k.pn (iv.2 + 1 - (s.dev.replayRule sc).2) ∧
      d.ctr .rxScOk sc 0 = (s.dev.ctr .rxScOk sc 0 + 1) % 2 ^ 64 ∧ d.yoke = s.dev.yoke ∧
      ∃ x, d.frame fid = some x ∧ x.verified = true ∧ x.len = x.bytes.length + 4 ∧
        x.bytes = stripped f.bytes g (secOffset f.rxMac.flags) (some (k, iv.1))) ∧
  (∀ (fid t : Nat) (f : Frame) (s : State), s.On → s.dev.frame fid = some f → f.macsecHeld = true →
    f.wireEnd = some t → f.verified = true → t + 30 ≤ s.dev.now →
    Runs (.macsecRxDeliver fid) s fun d => d.frame fid = some { f with macsecHeld := false, sof := t + 30 } ∧
      d.yoke = s.dev.yoke) ∧
  (∀ (p : Nat) (s : State), s.On → p < 96 → (s.dev.port p).rxFrame = none →
    Runs (.macsecSettingEffect p .rx) s fun d =>
      d.cipher.rxPorts.get (macsecPortReset p) p = s.dev.cipher.ports.get (macsecPortReset p) p ∧
      d.cipher.txPorts = s.dev.cipher.txPorts ∧ d.cipher.scs = s.dev.cipher.scs) ∧
  (∀ (p : Nat) (s : State), s.On → p < 96 → (s.dev.port p).txFrame = none →
    Runs (.macsecSettingEffect p .tx) s fun d =>
      d.cipher.txPorts.get (macsecPortReset p) p = s.dev.cipher.ports.get (macsecPortReset p) p ∧
      d.cipher.rxPorts = s.dev.cipher.rxPorts ∧ d.cipher.keys = s.dev.cipher.keys) ∧
  (∀ (slot : Nat) (o : KeyOp) (os : List KeyOp) (r : KeyLoadRec) (x : Sc) (s : State), s.On →
    s.dev.slotOps false slot = o :: os → o.load = some r → s.dev.sc o.sc = some x →
    s.dev.atBoundary x.data.port (r.dir = 1) = true → os = [] →
    Runs (.keyTakeEffect slot) s fun d => (d.saKey slot).state = .active ∧ (d.saKey slot).key = r.key ∧
      (d.saKey slot).pn = (if r.dir = 1 then 1 else r.lowestPn) ∧ (d.saKey slot).sc = o.sc ∧
      d.anState o.sc r.an = .active) ∧
  (∀ (slot : Nat) (o : KeyOp) (s : State), s.On → (s.dev.saKey slot).state = .retiring →
    s.dev.slotInLanes slot = false → s.dev.slotOps false slot = [o] →
    Runs (.keyEraseComplete slot) s fun d => d.saKey slot = .empty ∧ d.cipher.keyOps = s.dev.cipher.keyOps.erase o)

/-- 13: the boot epoch, and the jobs of the bulk cipher service (R325 to R330). -/
def Obligations.BulkCommandsRun : Prop :=
  (∀ s : State, s.On → s.dev.epochOpen = true → s.dev.cipher.retryAt = none →
    Runs (.bootEpochAdvance (s.dev.cipher.flashEpoch + 1)) s fun d => d.cipher.started = true ∧
      d.cipher.bootEpoch = s.dev.cipher.flashEpoch + 1) ∧
  (∀ (n : Nat) (s : State), s.On → s.dev.epochOpen = true → s.dev.cipher.retryAt = none →
    n ≠ s.dev.cipher.flashEpoch + 1 →
    Runs (.bootEpochAdvance n) s fun d => d.cipher.started = false ∧
      d.cipher.retryAt = some (s.dev.now + cyclesPerS)) ∧
  (∀ (t : Nat) (s : State), s.On → s.dev.epochOpen = true → s.dev.cipher.retryAt = some t → t ≤ s.dev.now →
    Runs (.bootEpochRetry (s.dev.cipher.flashEpoch + 1)) s fun d => d.cipher.started = true ∧
      d.cipher.bootEpoch = s.dev.cipher.flashEpoch + 1 ∧ d.cipher.retryAt = none) ∧
  (∀ (e u : Nat) (j : BulkJob) (r : BulkSegmentRec) (m : BulkMsg) (s : State), s.On → s.dev.idleEngine = some e →
    s.dev.nextUser = some u → s.dev.cipher.jobs.find? (fun j => j.user = u) = some j → j.work = .segment r →
    s.dev.ownMessage u r.message = some m → (s.dev.bulkKey m.slot).gen = m.keyGen →
    Runs .bulkJobStart s fun d => d.cipher.engines.get? e = some j ∧ d.cipher.jobs = s.dev.cipher.jobs.erase j ∧
      d.cipher.turn = u ∧ d.cipher.msgs = s.dev.cipher.msgs) ∧
  (∀ (e u : Nat) (j : BulkJob) (r : BulkSegmentRec) (m : BulkMsg) (s : State), s.On → s.dev.idleEngine = some e →
    s.dev.nextUser = some u → s.dev.cipher.jobs.find? (fun j => j.user = u) = some j → j.work = .segment r →
    s.dev.ownMessage u r.message = some m → (s.dev.bulkKey m.slot).gen ≠ m.keyGen →
    Runs .bulkJobStart s fun d => d.cipher.engines = s.dev.cipher.engines ∧ d.cipher.msgs.get? r.message = none ∧
      d.ctr .bulkKeyChanged j.user 0 = (s.dev.ctr .bulkKeyChanged j.user 0 + 1) % 2 ^ 64) ∧
  (∀ (e : Nat) (j : BulkJob) (r : BulkSegmentRec) (m : BulkMsg) (s : State), s.On →
    s.dev.cipher.engines.get? e = some j → j.work = .segment r → s.dev.ownMessage j.user r.message = some m →
    r.flags.testBit 0 = false →
    let k := s.dev.bulkKey m.slot;
    Runs (.bulkJobComplete e) s fun d => d.cipher.engines.get? e = none ∧
      d.cipher.msgs.get? r.message = some (m.after k r (bulkOutput k m r)) ∧
      d.ctr .bulkSegments j.user 0 = (s.dev.ctr .bulkSegments j.user 0 + 1) % 2 ^ 64) ∧
  (∀ (e : Nat) (j : BulkJob) (r : BulkSegmentRec) (m : BulkMsg) (s : State), s.On →
    s.dev.cipher.engines.get? e = some j → j.work = .segment r → s.dev.ownMessage j.user r.message = some m →
    r.flags.testBit 0 = true →
    Runs (.bulkJobComplete e) s fun d => d.cipher.engines.get? e = none ∧ d.cipher.msgs.get? r.message = none) ∧
  (∀ (slot : Nat) (o : KeyOp) (os : List KeyOp) (s : State), s.On → s.dev.slotOps true slot = o :: os →
    (∀ c ∈ s.dev.cipher.engines.cells, s.dev.jobSlot c.2 ≠ some slot) →
    Runs (.bulkKeyChange slot) s fun d => (d.bulkKey slot).gen = (s.dev.bulkKey slot).gen + 1 ∧
      (d.bulkKey slot).seq = (s.dev.bulkKey slot).seq ∧ (d.bulkKey slot).loaded = o.load.isSome ∧
      d.cipher.keyOps = s.dev.cipher.keyOps.erase o)

/-- 13: the messages of MACsec and of the bulk cipher service (R324, R326, R331, R332). -/
def Obligations.CipherMessagesRun : Prop :=
  (∀ (h : Hdr) (r : MacsecPortRec) (s : State) (x : Session),
    s.Serves { code := 0x0D01, lenOk := exactly 8, maxBody := 0 } h x → s.Hears h →
    firstFail (macsecPortChecks (x.sends h) s.dev r) = none → r.txSc = 0xFFFF → r.defaultRxSc = 0xFFFF →
    Runs (.macsecPortSet h r) s fun d => d.Replied h .ok [] ∧ d.cipher = { s.dev.cipher with
      ports := s.dev.cipher.ports.set r.port { r with flags := r.flags % 16 } }) ∧
  (∀ (h : Hdr) (r : MacsecScRec) (s : State) (x : Session),
    s.Serves { code := 0x0D02, lenOk := exactly 24, maxBody := 0 } h x → s.Hears h →
    firstFail (macsecScChecks (x.sends h) s.dev r) = none → r.flags.testBit 0 = true →
    s.dev.sc (s.dev.scAbs x.tenancy r.sc) = none →
    Runs (.macsecScSet h r) s fun d => d.Replied h .ok [] ∧ d.sc (s.dev.scAbs x.tenancy r.sc) = some {
      data := { r with sc := s.dev.scAbs x.tenancy r.sc, flags := r.flags % 8 }
      tenancy := x.tenancy, ans := .none, txAn := 0, nextAn := none }) ∧
  (∀ (h : Hdr) (r : MacsecScRec) (s : State) (x : Session),
    s.Serves { code := 0x0D02, lenOk := exactly 24, maxBody := 0 } h x → s.Hears h →
    firstFail (macsecScChecks (x.sends h) s.dev r) = none → r.flags.testBit 0 = false →
    Runs (.macsecScSet h r) s fun d => d.Replied h .ok [] ∧ d.sc (s.dev.scAbs x.tenancy r.sc) = none) ∧
  (∀ (h : Hdr) (sc an : Nat) (y : Sc) (s : State) (x : Session),
    s.Serves { code := 0x0D03, lenOk := exactly 4, maxBody := 0 } h x → s.Hears h →
    firstFail (macsecTxAnChecks (x.sends h) s.dev sc an) = none → s.dev.sc (s.dev.scAbs x.tenancy sc) = some y →
    Runs (.macsecTxAnSet h sc an) s fun d => d.Replied h .ok [] ∧
      d.sc (s.dev.scAbs x.tenancy sc) = some { y with nextAn := some an }) ∧
  (∀ (h : Hdr) (r : KeyLoadRec) (s : State) (x : Session),
    s.Serves { code := 0x0D04, lenOk := exactly 72, maxBody := 0, sealedOnly := true } h x →
    firstFail (keyLoadChecks (x.sends h) s.dev r) = none →
    Runs (.keyLoad h r) s fun d => d.cipher.keys = s.dev.cipher.keys ∧ d.cipher.bulkKeys = s.dev.cipher.bulkKeys ∧
      ∃ o, d.cipher.keyOps = s.dev.cipher.keyOps ++ [o] ∧ o.load = some r ∧ o.bulk = !(r.target = 0 : Bool) ∧
        o.token.seq = h.seq) ∧
  (∀ (h : Hdr) (r : KeyLoadRec) (s : State) (x : Session),
    s.Serves { code := 0x0D04, lenOk := exactly 72, maxBody := 0, sealedOnly := true } h x → s.Hears h →
    firstFail (keyLoadChecks (x.sends h) s.dev r) = some .badState →
    Runs (.keyLoad h r) s fun d => d.Replied h .badState [] ∧ d.data = s.dev.data) ∧
  (∀ (h : Hdr) (r : KeyEraseRec) (s : State) (x : Session),
    s.Serves { code := 0x0D05, lenOk := exactly 4, maxBody := 0, canAsync := true } h x → s.Hears h →
    firstFail (keyEraseChecks (x.sends h) s.dev r) = none → r.target = 0 →
    let slot := s.dev.saAbs x.tenancy r.slot;
    (s.dev.saKey slot).state = .retired → s.dev.slotOps false slot = [] →
    Runs (.keyErase h r) s fun d => d.Replied h .ok [] ∧ d.saKey slot = .empty) ∧
  (∀ (h : Hdr) (r : KeyEraseRec) (s : State) (x : Session),
    s.Serves { code := 0x0D05, lenOk := exactly 4, maxBody := 0, canAsync := true } h x →
    firstFail (keyEraseChecks (x.sends h) s.dev r) = none → r.target = 0 →
    let slot := s.dev.saAbs x.tenancy r.slot;
    (s.dev.saKey slot).state = .active → s.dev.slotOps false slot = [] →
    Runs (.keyErase h r) s fun d => d.saKey slot = { s.dev.saKey slot with state := .retiring }) ∧
  (∀ (h : Hdr) (i a : Nat) (s : State) (x : Session),
    s.Serves { code := 0x0D06, lenOk := fun _ => true, maxBody := 12, changes := false } h x → s.Hears h →
    x.role ≠ .maint → s.dev.absIndex x.tenancy 12 256 i = some a →
    Runs (.macsecSaStatusGet h i) s fun d => d.data = s.dev.data ∧ d.Replied h .ok
      [(s.dev.saKey a).state.code, b2n (s.dev.saKey a).raised, (s.dev.saKey a).pn % 2 ^ 64]) ∧
  (∀ (h : Hdr) (r : BulkOpenRec) (s : State) (x : Session),
    s.Serves { code := 0x0D07, lenOk := exactly 16, maxBody := 16 } h x → s.Hears h →
    firstFail (bulkOpenChecks (x.sends h) s.dev r) = none → encrypts r.mode = true →
    let slot := s.dev.bulkAbs x.tenancy r.keySlot;
    Runs (.bulkOpen h r) s fun d => (d.bulkKey slot).seq = (s.dev.bulkKey slot).seq + 1 ∧
      ∃ i, d.Replied h .ok [i, s.dev.nonceOf slot] ∧
        ∃ m, d.cipher.msgs.get? i = some m ∧ m.tenancy = x.tenancy ∧ m.slot = slot ∧ m.nonce = s.dev.nonceOf slot ∧
          m.keyGen = (s.dev.bulkKey slot).gen ∧ m.segment = 0) ∧
  (∀ (h : Hdr) (r : BulkSegmentRec) (m : BulkMsg) (s : State) (x : Session),
    s.Serves { code := 0x0D08, lenOk := exactly 144, maxBody := 128, canAsync := true } h x →
    s.dev.ownMessage x.tenancy r.message = some m → firstFail (segmentChecks (x.sends h) s.dev m r) = none →
    (s.dev.bulkKey m.slot).gen = m.keyGen → s.dev.mayRequest h.fn = true →
    Runs (.bulkSegment h r) s fun d => d.cipher = s.dev.cipher ∧
      ∃ q ∈ d.host.reads ++ d.host.waitingReads, ∃ tok, q.use = .message tok (.bulkSegment r) ∧ tok.seq = h.seq) ∧
  (∀ (h : Hdr) (r : BulkSegmentRec) (m : BulkMsg) (s : State) (x : Session),
    s.Serves { code := 0x0D08, lenOk := exactly 144, maxBody := 128, canAsync := true } h x → s.Hears h →
    s.dev.ownMessage x.tenancy r.message = some m → firstFail (segmentChecks (x.sends h) s.dev m r) = none →
    (s.dev.bulkKey m.slot).gen ≠ m.keyGen →
    Runs (.bulkSegment h r) s fun d => d.Replied h .keyChanged [] ∧ d.cipher.msgs.get? r.message = none) ∧
  (∀ (h : Hdr) (i : Nat) (m : BulkMsg) (s : State) (x : Session),
    s.Serves { code := 0x0D09, lenOk := exactly 4, maxBody := 0 } h x → s.Hears h →
    s.dev.ownMessage x.tenancy i = some m → (x.sends h).stale (s.dev.unit 13 (m.slot / 4)).epoch = false →
    s.dev.cipher.started = true → s.dev.cipher.exhausted = false →
    Runs (.bulkClose h i) s fun d => d.Replied h .ok [] ∧ d.cipher = { s.dev.cipher with
      msgs := s.dev.cipher.msgs.del i }) ∧
  (∀ (h : Hdr) (q : List Nat) (s : State) (x : Session),
    s.Serves { code := 0x0D0A, lenOk := exactly 32, maxBody := 0 } h x → s.Hears h → x.role = .owner →
    q.length = 16 → q.sum ≤ 4096 →
    Runs (.bulkConfigSet h q) s fun d => d.Replied h .ok [] ∧ d.cipher.msgs = s.dev.cipher.msgs ∧
      ∀ t, t < 16 → d.bulkQuota t = q.getD t 0) ∧
  (∀ (h : Hdr) (p : Nat) (s : State) (x : Session),
    s.Serves { code := 0x0D0B, lenOk := fun _ => true, maxBody := 2048, changes := false } h x → s.Hears h →
    p ≤ 95 → x.role = .maint →
    Runs (.macsecStatsGet h p) s fun d => d.data = s.dev.data ∧ d.Replied h .ok (serviceState s.dev)) ∧
  (∀ (h : Hdr) (s : State) (x : Session),
    s.Serves { code := 0x0D0C, lenOk := fun _ => true, maxBody := 2048, changes := false } h x → s.Hears h →
    x.role = .tenant →
    Runs (.bulkStatsGet h) s fun d => d.data = s.dev.data ∧ d.Replied h .ok (bulkRow s.dev x.tenancy))

/-- 14: the commands of the DRAM scheduler, refresh, and self-refresh (R339 to R350, R355). -/
def Obligations.DramSchedulerCommandsRun : Prop :=
  (∀ (p : Nat) (r : DramReq) (s : State), s.On → p < 6 → (s.dev.chan p).state = .active →
    (s.dev.chan p).waiting = [] → (s.dev.dramOrder (s.dev.chan p)).find? (fun r => s.dev.permits p r) = some r →
    nextCmd (s.dev.chan p) r = .act →
    Runs (.dramCommandIssue p) s fun d => ((d.chan p).bank r.place).row = some r.place.row ∧
      ((d.chan p).bank r.place).actAt = some s.dev.now ∧ ∀ q, q ≠ p → d.chan q = s.dev.chan q) ∧
  (∀ (p : Nat) (r : DramReq) (s : State), s.On → p < 6 → (s.dev.chan p).state = .active →
    (s.dev.chan p).waiting = [] → (s.dev.dramOrder (s.dev.chan p)).find? (fun r => s.dev.permits p r) = some r →
    nextCmd (s.dev.chan p) r = .pre →
    Runs (.dramCommandIssue p) s fun d => ((d.chan p).bank r.place).row = none ∧
      ((d.chan p).bank r.place).preAt = some s.dev.now) ∧
  (∀ (p : Nat) (r : DramReq) (s : State), s.On → p < 6 → (s.dev.chan p).state = .active →
    (s.dev.chan p).waiting = [] → (s.dev.dramOrder (s.dev.chan p)).find? (fun r => s.dev.permits p r) = some r →
    nextCmd (s.dev.chan p) r = .col → r.write = true →
    Runs (.dramCommandIssue p) s fun d => (d.chan p).queue = (s.dev.chan p).queue.erase r ∧
      (d.chan p).reads = (s.dev.chan p).reads ∧
      d.ctr .dramWrites p 0 = (s.dev.ctr .dramWrites p 0 + 1) % 2 ^ 64) ∧
  (∀ (p n : Nat) (r : DramReq) (rs : List (DramReq × Nat)) (s : State), s.On →
    (s.dev.chan p).reads = (r, n) :: rs →
    Runs (.dramReadComplete p .clean) s fun d => d.chan p = { s.dev.chan p with reads := rs }) ∧
  (∀ (p n : Nat) (r : DramReq) (rs : List (DramReq × Nat)) (s : State), s.On →
    (s.dev.chan p).reads = (r, n) :: rs → r.use = .journal → (s.dev.chan p).ueTimes = [] →
    1 ≤ s.dev.dram.config.ueFence →
    Runs (.dramReadComplete p .uncorrectable) s fun d => (d.chan p).reads = rs ∧
      (d.chan p).state = (s.dev.chan p).state ∧ d.ctr .dramUe p 0 = (s.dev.ctr .dramUe p 0 + 1) % 2 ^ 64) ∧
  (∀ s : State, s.On → s.dev.dram.enabled = true → s.dev.dram.boundaryAt + s.dev.dram.interval ≤ s.dev.now →
    Runs .dramRefreshIntervalBoundary s fun d => d.dram.boundaryAt = s.dev.dram.boundaryAt + s.dev.dram.interval ∧
      d.dram.interval = (if s.dev.dram.hot then 5850 else 11700) ∧ d.dram.next = none ∧
      d.dram.config = s.dev.dram.next.getD s.dev.dram.config ∧ d.dram.channels = s.dev.dram.channels) ∧
  (∀ (p : Nat) (s : State), s.On → p < 6 → s.dev.dram.enabled = true → s.dev.refreshSlot p ≤ s.dev.now →
    (s.dev.chan p).refreshed < s.dev.dram.boundaries + 1 → (s.dev.chan p).state = .active →
    Runs (.dramRefreshSlot p) s fun d => (d.chan p).refreshed = s.dev.dram.boundaries + 1 ∧
      (d.chan p).refreshEnd = s.dev.now + (s.dev.chan p).trp + (s.dev.chan p).trfc ∧
      (∀ x, ((d.chan p).bank x).row = none) ∧
      d.ctr .refreshes p 0 = (s.dev.ctr .refreshes p 0 + 1) % 2 ^ 64) ∧
  (∀ (p : Nat) (s : State), s.On → p < 6 → s.dev.dram.enabled = true → s.dev.refreshSlot p ≤ s.dev.now →
    (s.dev.chan p).refreshed < s.dev.dram.boundaries + 1 → (s.dev.chan p).state = .selfRefresh →
    Runs (.dramRefreshSlot p) s fun d => d.counters = s.dev.counters ∧
      d.chan p = { s.dev.chan p with refreshed := s.dev.dram.boundaries + 1 }) ∧
  (∀ (l : List Nat) (s : State), s.On → s.dev.dram.enabled = true → s.dev.dram.pollAt + cyclesPerMs ≤ s.dev.now →
    Runs (.dramMr4Poll l) s fun d => d.dram.pollAt = s.dev.now ∧ d.dram.interval = s.dev.dram.interval ∧
      ∀ p, p < 6 → (s.dev.chan p).logical.isSome = true → (d.chan p).temp = l.getD p 0) ∧
  (∀ (p : Nat) (s : State), s.On → s.dev.dram.config.idleSrUs ≠ 0 → (s.dev.chan p).state = .active →
    (s.dev.chan p).queue = [] → (s.dev.chan p).waiting = [] →
    (s.dev.chan p).lastReq + s.dev.dram.config.idleSrUs * cyclesPerUs ≤ s.dev.now →
    Runs (.dramIdleSrEntry p) s fun d => (d.chan p).state = .selfRefresh ∧
      (d.chan p).srAt = some (s.dev.now + (s.dev.chan p).trp) ∧
      d.ctr .srEntries p 0 = (s.dev.ctr .srEntries p 0 + 1) % 2 ^ 64) ∧
  (∀ (p t : Nat) (s : State), s.On → (s.dev.chan p).srAt = some t → (s.dev.chan p).state = .selfRefresh →
    (s.dev.chan p).queue ≠ [] → t + s.dev.dram.config.srMinNs * 3 ≤ s.dev.now →
    Runs (.dramSrExit p) s fun d => d.chan p = { s.dev.chan p with
      state := .active, srAt := none, refreshEnd := s.dev.now + (s.dev.chan p).txs }) ∧
  (∀ (p : Nat) (ps : List Nat) (s : State), s.On → s.dev.dram.rateLeft = p :: ps →
    Runs (.dramRateChannelDone p) s fun d => d.dram.rateLeft = ps ∧
      d.chan p = { s.dev.chan p with rate := s.dev.dram.config.rate, sel := ((s.dev.chan p).sel + 1) % 2 })

/-- 14: spare, migration, sweeps, training, and firmware's accesses (R346, R347, R351 to R359). -/
def Obligations.DramChannelCommandsRun : Prop :=
  (∀ (l t p : Nat) (s : State), s.On → s.dev.dram.takeover = some (l, t) → s.dev.spareChan = some p →
    Runs .dramSpareTakeover s fun d => (d.chan p).state = .active ∧ (d.chan p).logical = some l ∧
      d.dram.takeover = none ∧ ∀ q, q ≠ p → d.chan q = s.dev.chan q) ∧
  (∀ s : State, s.On → Runs .journalRecopyDone s fun d => d.dram = { s.dev.dram with recopy := none } ∧
    d.tables = s.dev.tables) ∧
  (∀ (m : Migration) (s : State), s.On → s.dev.dram.migration = some m → m.src ≠ m.dst →
    Runs .dramMigrationComplete s fun d => (d.chan m.dst).logical = (s.dev.chan m.src).logical ∧
      (d.chan m.dst).state = .active ∧ (d.chan m.src).state = .outOfService ∧ (d.chan m.src).logical = none ∧
      d.dram.migration = none ∧ d.ctr .migrations m.src 0 = (s.dev.ctr .migrations m.src 0 + 1) % 2 ^ 32) ∧
  (∀ (m : Migration) (s : State), s.On → s.dev.dram.migration = some m → m.src ≠ m.dst → m.deadline ≤ s.dev.now →
    Runs .dramChannelTimeout s fun d => (d.chan m.src).state = .active ∧ (d.chan m.dst).state = .spare ∧
      (d.chan m.src).logical = (s.dev.chan m.src).logical ∧ d.dram.migration = none) ∧
  (∀ (p : Nat) (t : Option Machine.Token) (ws : List Nat) (s : State), s.On →
    s.dev.dram.sweep = some { channel := p, token := t, recentre := false } → (∀ w ∈ ws, w ≠ 0) →
    Runs (.dramSweepDone p ws) s fun d => (d.chan p).state = .spare ∧ (d.chan p).windows = ws ∧
      d.dram.sweep = none) ∧
  (∀ (p : Nat) (t : Option Machine.Token) (ws : List Nat) (s : State), s.On →
    s.dev.dram.sweep = some { channel := p, token := t, recentre := false } → 0 ∈ ws →
    (s.dev.chan p).state = .outOfService → s.dev.dram.migration = none →
    Runs (.dramSweepDone p ws) s fun d => (d.chan p).state = .fenced ∧ (d.chan p).logical = none ∧
      d.dram.sweep = none) ∧
  (∀ (p n : Nat) (s : State), s.On → (s.dev.chan p).logical.isSome = true →
    (s.dev.chan p).scrubAt + 3600 * cyclesPerS ≤ s.dev.now →
    Runs (.dramSystemScrub p n) s fun d => d.chan p = { s.dev.chan p with scrubAt := s.dev.now } ∧
      d.ctr .dramCe p 0 = (s.dev.ctr .dramCe p 0 + min n 2097152) % 2 ^ 64) ∧
  (∀ (s : State), s.On → s.dev.dram.enabled = false → 3 ≤ s.dev.boot.stage →
    Runs (.dramTrainingDone (List.replicate 6 true)) s fun d => d.dram.enabled = true ∧
      d.dram.journals = [0, 1] ∧ (∀ p, p < 5 → (d.chan p).state = .active ∧ (d.chan p).logical = some p) ∧
      (d.chan 5).state = .spare ∧ (d.chan 5).logical = none) ∧
  (∀ (p : Nat) (s : State), s.On → p < 6 → (s.dev.chan p).inService = false →
    Runs (.drcSetSwap p) s fun d => d.chan p = { s.dev.chan p with sel := ((s.dev.chan p).sel + 1) % 2 }) ∧
  (∀ (p : Nat) (s : State), s.On → p < 6 → (s.dev.chan p).inService = true →
    Runs (.drcSetSwap p) s fun d => d.dram = s.dev.dram) ∧
  (∀ (p : Nat) (s : State), s.On → p < 6 → (s.dev.chan p).inService = false →
    Runs (.drcModeRegisterAccess p true) s fun d => d.dram = s.dev.dram) ∧
  (∀ (p : Nat) (s : State), s.On → p < 6 → (s.dev.chan p).state = .outOfService →
    s.dev.dram.migration = none →
    Runs (.drcModeRegisterAccess p false) s fun d => (d.chan p).state = .fenced ∧
      d.ctr .fences p 0 = (s.dev.ctr .fences p 0 + 1) % 2 ^ 32) ∧
  (∀ (p : Nat) (s : State), s.On → p < 6 → (s.dev.chan p).inService = false →
    Runs (.drcTrainingRowAccess p true) s fun d => d.dram = s.dev.dram ∧
      d.ctr .dramWrites p 0 = (s.dev.ctr .dramWrites p 0 + 1) % 2 ^ 64) ∧
  (∀ (p e : Nat) (s : State), s.On → p < 6 → (s.dev.chan p).inService = false →
    Runs (.drcReadCompare p e) s fun d => d.dram = s.dev.dram ∧
      d.ctr .dramReads p 0 = (s.dev.ctr .dramReads p 0 + 1) % 2 ^ 64)

/-- 14: the messages of the DRAM controller (R357, R358). -/
def Obligations.DramMessagesRun : Prop :=
  (∀ (h : Hdr) (r : DramConfigRec) (s : State) (x : Session),
    s.Serves { code := 0x0E01, lenOk := exactly 16, maxBody := 0 } h x → s.Hears h →
    firstFail (dramConfigChecks (x.sends h) s.dev r) = none →
    Runs (.dramConfigSet h r) s fun d => d.Replied h .ok [] ∧ d.dram = { s.dev.dram with next := some r }) ∧
  (∀ (h : Hdr) (r : DramChannelRec) (p : Nat) (s : State) (x : Session),
    s.Serves { code := 0x0E02, lenOk := exactly 8, maxBody := 0, canAsync := true } h x →
    firstFail (dramChannelChecks (x.sends h) s.dev r) = none → r.op = 1 → s.dev.spareChan = some p →
    Runs (.dramChannelSet h r) s fun d => (d.chan r.channel).state = .migrating ∧ (d.chan p).state = .migrating ∧
      (d.chan r.channel).logical = (s.dev.chan r.channel).logical ∧
      ∃ m, d.dram.migration = some m ∧ m.src = r.channel ∧ m.dst = p ∧ m.recentre = false ∧
        m.deadline = s.dev.now + r.deadlineMs * cyclesPerMs) ∧
  (∀ (h : Hdr) (r : DramChannelRec) (s : State) (x : Session),
    s.Serves { code := 0x0E02, lenOk := exactly 8, maxBody := 0, canAsync := true } h x →
    firstFail (dramChannelChecks (x.sends h) s.dev r) = none → r.op = 2 →
    Runs (.dramChannelSet h r) s fun d => (d.chan r.channel).state = .outOfService ∧
      ∃ w, d.dram.sweep = some w ∧ w.channel = r.channel ∧ w.recentre = false) ∧
  (∀ (h : Hdr) (r : DramChannelRec) (s : State) (x : Session),
    s.Serves { code := 0x0E02, lenOk := exactly 8, maxBody := 0, canAsync := true } h x → s.Hears h →
    firstFail (dramChannelChecks (x.sends h) s.dev r) = none → r.op = 3 →
    Runs (.dramChannelSet h r) s fun d => d.Replied h .ok [] ∧ (d.chan r.channel).state = .outOfService) ∧
  (∀ (h : Hdr) (r : DramChannelRec) (s : State) (x : Session),
    s.Serves { code := 0x0E02, lenOk := exactly 8, maxBody := 0, canAsync := true } h x →
    firstFail (dramChannelChecks (x.sends h) s.dev r) = none → r.op = 4 →
    Runs (.dramChannelSet h r) s fun d => (d.chan r.channel).state = .fenced ∧
      (d.chan r.channel).logical = none ∧ (d.chan r.channel).queue = []) ∧
  (∀ (h : Hdr) (s : State) (x : Session),
    s.Serves { code := 0x0E03, lenOk := exactly 0, maxBody := 2048, changes := false } h x → s.Hears h →
    x.role ≠ .tenant →
    Runs (.dramStatusGet h) s fun d => d.data = s.dev.data ∧ ∃ b, d.Replied h .ok b) ∧
  (∀ (h : Hdr) (s : State) (x : Session),
    s.Serves { code := 0x0E03, lenOk := exactly 0, maxBody := 2048, changes := false } h x → s.Hears h →
    x.role = .tenant →
    Runs (.dramStatusGet h) s fun d => d.data = s.dev.data ∧ d.Replied h .notPermitted [])

/-- 15: records and replay (R362 to R370). -/
def Obligations.LiningCommandsRun : Prop :=
  (∀ (t : Nat) (c : Capture) (o : LinOffer) (s : State), s.On → s.dev.lining.captures.get? t = some c →
    c.offers.find? (fun o => o.known) = some o → c.records' = true → lossCause s.dev c o true = 0 → c.lost = 0 →
    c.data.mode = 0 → c.records.length + 1 < s.dev.recordArea t c.data.sleeveMask → c.data.trigger = 0 →
    o.fid = none →
    Runs (.liningRecordWrite t true) s fun d => d.lining.ring = s.dev.lining.ring ++ [(t, c.nextIndex)] ∧
      d.lining.lastWrite = some s.dev.now ∧ ∃ x, d.lining.captures.get? t = some x ∧
        x.records = c.records ++ [(c.nextIndex, o.data)] ∧ x.offers = c.offers.erase o) ∧
  (∀ (t : Nat) (served : Bool) (c : Capture) (o : LinOffer) (s : State), s.On →
    s.dev.lining.captures.get? t = some c → c.offers.find? (fun o => o.known) = some o → c.records' = true →
    lossCause s.dev c o served = 2 → o.fid = none →
    Runs (.liningRecordWrite t served) s fun d => d.lining.ring = s.dev.lining.ring ∧
      d.ctr .recLostRing t 0 = (s.dev.ctr .recLostRing t 0 + 1) % 2 ^ 64 ∧
      ∃ x, d.lining.captures.get? t = some x ∧ x.records = c.records ∧ x.lost = c.lost + 1 ∧ x.lostCause = 2) ∧
  (∀ (t i : Nat) (rest : List (Nat × Nat)) (c : Capture) (s : State), s.On → s.Settled → s.dev.lining.ring = (t, i) :: rest →
    s.dev.lining.captures.get? t = some c → (c.records.any fun r => r.1 = i) = true →
    s.dev.physical (unitChannel (s.dev.recordUnit t i)) = none →
    Runs .liningRingDrain s fun d => d.lining.ring = rest ∧
      d.lining.captures.get? t = some { c with ready := c.ready + 1 } ∧ d.dram = s.dev.dram) ∧
  (∀ (t : Nat) (c : Capture) (s : State), s.On → s.Settled → s.dev.lining.captures.get? t = some c → c.state = .armed →
    Runs (.snapshotSweepDone t) s fun d => d.lining.captures.get? t = some { c with state := .running }) ∧
  (∀ (k i : Nat) (x : LinRec) (rest : List (Nat × LinRec)) (r : Replay) (w : World) (s : State), s.On →
    s.dev.replayOn k = some r → r.todo = (i, x) :: rest → r.waiting = true → s.dev.replayBefore k .yoke = false →
    s.dev.worldAt x.body.epoch r.world.salt = some w →
    Runs (.replayEpochSwitch k) s fun d => d.replayOn k = some { r with
      world := w, loaded := x.body.epoch, waiting := false }) ∧
  (∀ (k : Nat) (r : Replay) (s : State), s.On → s.dev.replayOn k = some r → r.todo = [] →
    s.dev.replayBefore k .yoke = false →
    Runs (.replayStreamEnd k) s fun d => d.replayOn k = some { r with restoring := true }) ∧
  (∀ (k : Nat) (r : Replay) (s : State), s.On → s.dev.replayOn k = some r → r.restoring = true →
    Runs (.replayRestoreDone k) s fun d => d.replayOn k = none ∧
      (d.learner k).seedEpoch = ((s.dev.learner k).seedEpoch + 1) % 2 ^ 32)

/-- 15: the messages of the Lining (R371 to R376). -/
def Obligations.LiningMessagesRun : Prop :=
  (∀ (h : Hdr) (r : RecStoreRec) (s : State) (x : Session),
    s.Serves { code := 0x0F01, lenOk := exactly 104, maxBody := 0 } h x → s.Hears h →
    firstFail (recStoreChecks (x.sends h) s.dev r) = none → changedQuotas s.dev r = [] →
    Runs (.recStoreSet h r) s fun d => d.Replied h .ok [] ∧ d.lining.storeMib = r.storeMib ∧
      d.lining.quotas = s.dev.lining.quotas ∧
      ∀ t, t < 16 → d.lining.rates.get 0 t = r.ratePps.getD t 0) ∧
  (∀ (h : Hdr) (r : RecStoreRec) (s : State) (x : Session),
    s.Serves { code := 0x0F01, lenOk := exactly 104, maxBody := 0 } h x →
    firstFail (recStoreChecks (x.sends h) s.dev r) = none → changedQuotas s.dev r ≠ [] →
    s.dev.turnReady = false →
    Runs (.recStoreSet h r) s fun d => d.lining.quotas = s.dev.lining.quotas ∧
      ∃ a, d.ten.turns = s.dev.ten.turns ++ [a] ∧ a.cmd = .recStore r ∧ a.token.seq = h.seq) ∧
  (∀ (h : Hdr) (r : RecArmRec) (s : State) (x : Session),
    s.Serves { code := 0x0F02, lenOk := exactly 64, maxBody := 0, early := false } h x → s.Hears h →
    firstFail (recArmChecks (x.sends h) s.dev r) = none → s.dev.ten.rngOk = true → s.Settled →
    Runs (.recArm h r) s fun d => d.Replied h .ok [] ∧ d.tables = s.dev.tables ∧
      ∃ c, d.lining.captures.get? x.tenancy = some c ∧ c.state = .armed ∧ c.data = r ∧ c.records = [] ∧
        c.left = none ∧ ∀ k ∈ onesOf 7 r.sleeveMask, c.snapshots.get? k ≠ none) ∧
  (∀ (h : Hdr) (c : Capture) (s : State) (x : Session),
    s.Serves { code := 0x0F03, lenOk := exactly 0, maxBody := 0 } h x → s.Hears h →
    firstFail (ownChecks (x.sends h) s.dev false) = none → s.dev.lining.captures.get? x.tenancy = some c →
    c.state = .running → c.left = none →
    Runs (.recTrigger h) s fun d => d.Replied h .ok [] ∧ ∃ y, d.lining.captures.get? x.tenancy = some y ∧
      y.left = some c.data.postDepth ∧ y.records = c.records ∧
      y.state = if c.data.mode = 1 then .triggered else .running) ∧
  (∀ (h : Hdr) (c : Capture) (s : State) (x : Session),
    s.Serves { code := 0x0F04, lenOk := exactly 0, maxBody := 0 } h x → s.Hears h →
    firstFail (ownChecks (x.sends h) s.dev false) = none → s.dev.lining.captures.get? x.tenancy = some c →
    c.records' = true →
    Runs (.recStop h) s fun d => d.Replied h .ok [] ∧
      d.lining.captures.get? x.tenancy = some { c with state := .stopped, offers := [] }) ∧
  (∀ (h : Hdr) (s : State) (x : Session),
    s.Serves { code := 0x0F05, lenOk := exactly 0, maxBody := 0 } h x → s.Hears h →
    firstFail (ownChecks (x.sends h) s.dev (s.dev.replaying x.tenancy)) = none →
    Runs (.recClear h) s fun d => d.Replied h .ok [] ∧ d.lining.captures.get? x.tenancy = none ∧
      ∀ e ∈ d.lining.ring, e.1 ≠ x.tenancy ∨ s.dev.lining.captures.get? x.tenancy = none) ∧
  (∀ (h : Hdr) (r : RecExportRec) (s : State) (x : Session),
    s.Serves { code := 0x0F06, lenOk := exactly 24, maxBody := 16, canAsync := true } h x →
    firstFail (recExportChecks (x.sends h) s.dev r) = none →
    let slot := s.dev.bulkAbs x.tenancy r.keySlot;
    Runs (.recExport h r) s fun d => (d.bulkKey slot).seq = (s.dev.bulkKey slot).seq + 1 ∧
      ∃ j, d.cipher.jobs = s.dev.cipher.jobs ++ [j] ∧ j.user = 16 ∧ j.token.seq = h.seq ∧
        j.work = .exports slot (s.dev.nonceOf slot) r.count 0) ∧
  (∀ (h : Hdr) (s : State) (x : Session),
    s.Serves { code := 0x0F07, lenOk := exactly 0, maxBody := 2048, changes := false } h x → s.Hears h →
    x.role = .maint →
    Runs (.recStatusGet h) s fun d => d.data = s.dev.data ∧ d.Replied h .ok
      (s.dev.lining.ring.length :: sumRows ((List.range 16).map (lossCounts s.dev)))) ∧
  (∀ (h : Hdr) (r : ReplayRunRec) (c : Capture) (s : State) (x : Session),
    s.Serves { code := 0x0F08, lenOk := exactly 24, maxBody := 56, canAsync := true, early := false } h x →
    firstFail (replayRunChecks (x.sends h) s.dev r) = none → s.dev.lining.captures.get? x.tenancy = some c →
    Runs (.replayRun h r) s fun d => ∃ p, d.replayOn r.replaySleeve = some p ∧ p.tenancy = x.tenancy ∧
      p.data = r ∧ p.todo = issueOrder r.liveSleeve c.records ∧ p.restoring = false ∧
      (d.learner r.replaySleeve).seed = (c.snapshots.get .empty r.liveSleeve).seed) ∧
  (∀ (h : Hdr) (k : Nat) (r : Replay) (s : State) (x : Session),
    s.Serves { code := 0x0F09, lenOk := exactly 1, maxBody := 0 } h x → s.Hears h → k ≤ 6 →
    s.dev.replayOn k = some r → x.role = .owner →
    Runs (.replayAbort h k) s fun d => d.Replied h .ok [] ∧ d.replayOn k = none) ∧
  (∀ (h : Hdr) (n : Nat) (s : State) (x : Session),
    s.Serves { code := 0x0F0A, lenOk := exactly 2, maxBody := 2048, changes := false } h x → s.Hears h → 1 ≤ n →
    n ≤ 64 → x.role ≠ .maint → staleAllotment (x.sends h) s.dev = false →
    let es := s.dev.lining.reports.get [] x.tenancy;
    Runs (.replayReportRead h n) s fun d => d.data = s.dev.data ∧
      d.Replied h .ok ((es.take n).flatMap fun e => [e.index, e.recorded, e.replayed, e.cls]) ∧
      d.lining.reports.get [] x.tenancy = es.drop n)

/-- 16: reassignment and scrub, and the turns of the assignment counter (R382, R384, R385, R389, Table 16-4). -/
def Obligations.ReassignmentCommandsRun : Prop :=
  (∀ (p : Nat) (ts : List Nat) (s : State), s.On → s.dev.ten.lossRx.get? p = some ts → (s.dev.port p).rxFrame = none →
    Runs (.tenancyLossEffect p .rx) s fun d => d.ten.lossRx.get? p = none ∧ d.ctr .rxFramesOk p 0 = 0 ∧
      d.ctr .txFrames p 0 = s.dev.ctr .txFrames p 0) ∧
  (∀ (p : Nat) (ts : List Nat) (s : State), s.On → s.dev.ten.lossTx.get? p = some ts → (s.dev.port p).txFrame = none →
    Runs (.tenancyLossEffect p .tx) s fun d => d.ten.lossTx.get? p = none ∧ d.ctr .txFrames p 0 = 0 ∧
      d.ctr .rxFramesOk p 0 = s.dev.ctr .rxFramesOk p 0) ∧
  (∀ (i v : Nat) (c : Commit) (cs : List Commit) (s : State), s.On → s.dev.vers.commits = c :: cs →
    s.dev.preparedSlot = some v → c.scrub = some i → c.changes = [] → s.dev.current ≠ v → s.dev.current < 4 →
    Runs (.resScrubCommit i) s fun d => (d.vslot v).state = .current ∧ (d.vslot s.dev.current).state = .draining ∧
      (d.vslot v).epoch = ((s.dev.vslot s.dev.current).epoch + 1) % 16384 ∧
      d.ctr .commits c.tenancy 0 = (s.dev.ctr .commits c.tenancy 0 + 1) % 2 ^ 64) ∧
  (∀ (i : Nat) (m : Reassign) (s : State), s.On → s.dev.move i = some m → m.step = 3 → m.waitSlots = [] →
    Runs (.resDrainDone i) s fun d => d.move i = some { m with step := 4 } ∧ d.vers = s.dev.vers) ∧
  (∀ (i : Nat) (m : Reassign) (s : State), s.On → s.dev.move i = some m → m.step = 4 → m.kind = 8 →
    Runs (.resUnitScrubDone i) s fun d => d.move i = some { m with step := 5 } ∧
      d.vers.templates = s.dev.vers.templates.filter
        (fun j _ => !((m.holders.map (·.1)).contains (j / 128))) ∧ d.vers.groups = s.dev.vers.groups) ∧
  (∀ (p q : Nat) (e : QEntry) (es : List QEntry) (s : State), s.On → p < 96 → q < 16 →
    (s.dev.unit 1 (qKey p q)).scrubbing = true → s.dev.queue p q = e :: es → e.isMirror = true →
    Runs (.scrubQueueDiscard p q) s fun d => d.data = (s.dev.headDrop p q e es 29).data) ∧
  (∀ (i u : Nat) (m : Reassign) (s : State), s.On → s.dev.move i = some m → m.step = 5 → m.moving = [u] →
    m.kept = [] → m.value = none → m.newTenancy = some 3 → m.kind = 4 → m.enrol = none → s.dev.turnReady = true →
    Runs (.resEpochIssue i) s fun d => (d.unit 4 u).epoch = (if (s.dev.unit 4 u).tenancy.isSome then s.dev.ten.counter else 0) ∧
      (d.unit 4 u).scrubbing = false ∧ d.move i = none ∧
      d.ten.counter = if s.dev.ten.counter = 65535 then 1 else s.dev.ten.counter + 1) ∧
  (∀ (w : WaitingTurn) (ws : List WaitingTurn) (r : PortTenancyRec) (s : State), s.On → s.dev.ten.turns = w :: ws →
    w.cmd = .portTenancy r → s.dev.turnReady = true →
    Runs .assignCounterTurn s fun d => (d.portMap r.port).epoch = s.dev.ten.counter ∧ d.ten.turns = ws ∧
      d.ten.counter = if s.dev.ten.counter = 65535 then 1 else s.dev.ten.counter + 1)

/-- 16: fuses, nonces, draws, and the sessions of maintenance (R395, R399, R401, R403). -/
def Obligations.ClaspCommandsRun : Prop :=
  (∀ (n t : Nat) (tok : Machine.Token) (s : State), s.On → s.dev.ten.rollbackTarget = some (n, tok, t) →
    t + cyclesPerMs ≤ s.dev.now → s.dev.ten.rollback + 1 < n →
    Runs .rollbackFuseBlow s fun d => d.ten.rollback = s.dev.ten.rollback + 1 ∧
      d.ten.rollbackTarget = some (n, tok, s.dev.now)) ∧
  (∀ (n t : Nat) (tok : Machine.Token) (s : State), s.On → s.dev.ten.rollbackTarget = some (n, tok, t) →
    t + cyclesPerMs ≤ s.dev.now → n ≤ s.dev.ten.rollback + 1 →
    Runs .rollbackFuseBlow s fun d => d.ten.rollback = s.dev.ten.rollback + 1 ∧ d.ten.rollbackTarget = none) ∧
  (∀ (n t : Nat) (s : State), s.On → s.dev.ten.debugNonce = some (n, t) → t + 300 * cyclesPerS ≤ s.dev.now →
    Runs .debugNonceExpiry s fun d => d.ten = { s.dev.ten with debugNonce := none }) ∧
  (∀ s : State, s.On → Runs .claspHealthTestFail s fun d => d.ten = { s.dev.ten with rngOk := false } ∧
    d.cipher = s.dev.cipher) ∧
  (∀ s : State, s.On → Runs .drawTimeout s fun d =>
    ∀ x ∈ d.ten.draws, s.dev.now < x.2 + cyclesPerS) ∧
  (∀ (f k : Nat) (x : Session) (s : State), s.On → (s.dev.mbox f).sealed.get? k = some x → x.role = .maint →
    x.openedAt + x.maxDuration * cyclesPerS ≤ s.dev.now →
    Runs (.maintSessionExpiry f k) s fun d => (d.mbox f).sealed.get? k = none) ∧
  (∀ (f k : Nat) (x : Session) (s : State), s.On → (f, k, x) ∈ s.dev.openSessions → k ≠ 0 → x.role = .maint →
    x.timeFree = false → x.notAfter < s.dev.stamp.sec →
    Runs .maintNotAfterCheck s fun d => (d.mbox f).sealed.get? k = none)

/-- 16: the messages of tenancy and secrecy (R382, R388, R396, R397, R399, R400, R403, R432). -/
def Obligations.TenancyMessagesRun : Prop :=
  (∀ (h : Hdr) (r : PortTenancyRec) (s : State) (x : Session),
    s.Serves { code := 0x1001, lenOk := exactly (8 + r.count), maxBody := 0 } h x → s.Hears h →
    firstFail (portTenancyChecks (x.sends h) s.dev r) = none → s.dev.turnReady = true → s.dev.ten.turns = [] →
    r.mode = 0 → r.tenancy < 16 → (s.dev.portMap r.port).mode = 0 → (s.dev.portMap r.port).tenancy ≠ r.tenancy →
    Runs (.portTenancySet h r) s fun d => d.Replied h .ok [] ∧ d.wholly r.port = some r.tenancy ∧
      (d.portMap r.port).epoch = s.dev.ten.counter) ∧
  (∀ (h : Hdr) (r : PortTenancyRec) (s : State) (x : Session),
    s.Serves { code := 0x1001, lenOk := exactly (8 + r.count), maxBody := 0 } h x → s.Hears h →
    firstFail (portTenancyChecks (x.sends h) s.dev r) = none → r.mode = 0 → r.tenancy = 255 →
    Runs (.portTenancySet h r) s fun d => d.Replied h .ok [] ∧ d.wholly r.port = none ∧
      (d.portMap r.port).epoch = 0 ∧ d.ten.counter = s.dev.ten.counter) ∧
  (∀ (h : Hdr) (r : ResAssignRec) (s : State) (x : Session),
    s.Serves { code := 0x1002, lenOk := exactly 12, maxBody := 8, canAsync := true } h x → s.Hears h →
    firstFail (resAssignChecks (x.sends h) s.dev r) = none → (s.dev.movePlan r).moving = [] →
    Runs (.resAssign h r) s fun d => d.Replied h .ok [h.epoch, 0] ∧ d.data = s.dev.data) ∧
  (∀ (h : Hdr) (r : ResAssignRec) (u : Nat) (s : State) (x : Session),
    s.Serves { code := 0x1002, lenOk := exactly 12, maxBody := 8, canAsync := true } h x →
    firstFail (resAssignChecks (x.sends h) s.dev r) = none → r.kind = 4 → u ∈ (s.dev.movePlan r).moving →
    s.dev.commitUnderWay = false → s.dev.holdersOf 4 (s.dev.movePlan r).moving ≠ [] →
    (∀ m ∈ s.dev.ten.moves, m.id ≠ s.dev.ten.moveSeq) →
    Runs (.resAssign h r) s fun d => d.unit 4 u = {
        tenancy := if r.tenancy < 16 then some r.tenancy else none, epoch := 0, scrubbing := true } ∧
      d.ten.counter = s.dev.ten.counter ∧
      ∃ m ∈ d.ten.moves, m.step = 2 ∧ m.kind = 4 ∧ m.moving = (s.dev.movePlan r).moving) ∧
  (∀ (h : Hdr) (kind : Nat) (s : State) (x : Session),
    s.Serves { code := 0x1003, lenOk := exactly 4, maxBody := 2048, changes := false } h x → s.Hears h →
    x.role ≠ .maint → 1 ≤ kind → kind ≤ 14 →
    Runs (.resStatusGet h kind) s fun d => d.data = s.dev.data ∧
      ∃ us : List Nat, d.Replied h .ok (us.flatMap fun u => [u, (s.dev.unit kind u).tenancy.getD 0xFF, (s.dev.unit kind u).epoch]) ∧
        ∀ u, u ∈ us ↔ u < unitCount kind ∧ (x.role = .owner ∨ s.dev.holds x.tenancy kind u = true)) ∧
  (∀ (h : Hdr) (key : Nat) (ok : Bool) (s : State) (x : Session),
    s.Serves { code := 0x1004, lenOk := fun l => l = 96 || l = 192, maxBody := 0 } h x →
    s.dev.ten.ownerKey = none → h.fn = 0 → h.session = 0 →
    Runs (.ownerKeySet h key ok) s fun d => d.ten.ownerKey = none ∧ ∃ q ∈ d.island.waiting, ∃ tok,
      q.op = .pageProgram ∧ q.use = .ownerKey key (some tok) ∧ tok.seq = h.seq) ∧
  (∀ (h : Hdr) (key k : Nat) (s : State) (x : Session),
    s.Serves { code := 0x1004, lenOk := fun l => l = 96 || l = 192, maxBody := 0 } h x → s.Hears h →
    s.dev.ten.ownerKey = some k →
    Runs (.ownerKeySet h key false) s fun d => d.Replied h .badSeal [] ∧ d.data = s.dev.data) ∧
  (∀ (h : Hdr) (r : TenantEnrolRec) (s : State) (x : Session),
    s.Serves { code := 0x1005, lenOk := fun _ => true, maxBody := 0, canAsync := true } h x → x.role = .owner →
    1 ≤ r.tenancy → r.tenancy ≤ 15 → s.dev.ten.tenantKeys.get? r.tenancy = none →
    Runs (.tenantEnrol h r) s fun d => d.ten.tenantKeys = s.dev.ten.tenantKeys ∧ ∃ q ∈ d.island.waiting, ∃ tok,
      q.op = .pageProgram ∧ q.use = .tenantKey r (some tok) ∧ tok.seq = h.seq) ∧
  (∀ (h : Hdr) (n : Nat) (s : State) (x : Session),
    s.Serves { code := 0x1006, lenOk := fun _ => true, maxBody := 0, canAsync := true, sealedOnly := true } h x →
    x.role = .owner → s.dev.ten.rollback < n → n ≤ 64 → (∀ v ∈ s.dev.imageVersions, n ≤ v) →
    s.dev.ten.rollbackTarget = none →
    Runs (.rollbackAdvance h n) s fun d => d.ten.rollback = s.dev.ten.rollback ∧
      ∃ tok, d.ten.rollbackTarget = some (n, tok, s.dev.now) ∧ tok.seq = h.seq) ∧
  (∀ (h : Hdr) (n : Nat) (s : State) (x : Session),
    s.Serves { code := 0x1007, lenOk := exactly 16, maxBody := 2048, open0 := true, changes := false } h x →
    s.Hears h →
    Runs (.attestGet h n) s fun d => d.data = s.dev.data ∧ ∃ b, d.Replied h .ok b ∧ n ∈ b ∧
      s.dev.cipher.bootEpoch ∈ b ∧ (x.role = .tenant → Config.digest (s.dev.ten.tenantKeys.get 0 x.tenancy) ∈ b)) ∧
  (∀ (h : Hdr) (s : State) (x : Session),
    s.Serves { code := 0x1008, lenOk := exactly 0, maxBody := 16 } h x → s.Hears h → x.role = .owner →
    s.dev.ten.rngOk = true →
    Runs (.debugNonceGet h) s fun d => ∃ n, n < 2 ^ 128 ∧ d.Replied h .ok [n] ∧
      d.ten.debugNonce = some (n, s.dev.now)) ∧
  (∀ (h : Hdr) (a b : Sys2Proof.Token) (s : State) (x : Session),
    s.Serves { code := 0x1009, lenOk := exactly 464, maxBody := 0, canAsync := true, sealedOnly := true } h x →
    x.role = .owner → s.dev.ten.lifecycle.testBit 1 = false → unlockToken s.dev.ten.debugNonce a = true →
    unlockToken s.dev.ten.debugNonce b = true →
    Runs (.debugUnlock h a b) s fun d => d.ten.debugUnlocked = true ∧ d.ten.debugNonce = none ∧
      d.ports.frames = .none ∧ d.ten.journalKeys = .none ∧ d.ten.contextKey = none ∧
      (∀ t, 1 ≤ t → t ≤ 15 → ∀ k u, k < 15 → u < unitCount k → d.holds t k u = false)) ∧
  (∀ (h : Hdr) (a b : Sys2Proof.Token) (s : State) (x : Session),
    s.Serves { code := 0x1009, lenOk := exactly 464, maxBody := 0, canAsync := true, sealedOnly := true } h x →
    s.Hears h → x.role = .owner → s.dev.ten.lifecycle.testBit 1 = false →
    unlockToken s.dev.ten.debugNonce a = false →
    Runs (.debugUnlock h a b) s fun d => d.Replied h .badSeal [] ∧ d.data = s.dev.data)

/-- 17: rings, doorbells, interrupts of rings, the boot mailbox, heartbeats and the failover of cores (R408 to R411,
R424, R426, R427, R429 to R431). -/
def Obligations.MailboxCommandsRun : Prop :=
  (∀ (f : Nat) (s : State), s.On → s.Settled → s.dev.fnExists f = true → (s.dev.mbox f).req.enabled = false →
    6 ≤ (s.dev.mbox f).req.size → (s.dev.mbox f).req.size ≤ 14 →
    Runs (.reqRingEnableWrite f true) s fun d =>
      (d.mbox f).req = { (s.dev.mbox f).req with enabled := true, head := (s.dev.mbox f).req.tail } ∧
      (d.mbox f).zeroOpen = true ∧ (d.mbox f).zero.highest = 0 ∧ (d.mbox f).zero.seen = [] ∧
      (d.mbox f).sealed = (s.dev.mbox f).sealed ∧ (d.mbox f).rsp = (s.dev.mbox f).rsp) ∧
  (∀ (f : Nat) (s : State), s.On → s.dev.fnExists f = true →
    Runs (.reqRingEnableWrite f false) s fun d => (d.mbox f).req.enabled = false ∧ (d.mbox f).zeroOpen = false) ∧
  (∀ (f : Nat) (s : State), s.On → s.Settled → s.dev.fnExists f = true → (s.dev.mbox f).rsp.enabled = false →
    6 ≤ (s.dev.mbox f).rsp.size → (s.dev.mbox f).rsp.size ≤ 14 →
    (∀ k x, s.dev.session f k = some x → x.held = [] ∧ x.lost = 0) →
    Runs (.rspRingEnableWrite f true) s fun d => d.mbox f = { s.dev.mbox f with
      rsp := { (s.dev.mbox f).rsp with enabled := true, tail := (s.dev.mbox f).rsp.head }, entries := [] }) ∧
  (∀ (f : Nat) (s : State), s.On → s.Settled → s.dev.fnExists f = true → (s.dev.mbox f).rx.enabled = false →
    6 ≤ (s.dev.mbox f).rx.size →
    Runs (.rxRingEnableWrite f true) s fun d => (d.mbox f).rx.enabled =
        decide ((s.dev.mbox f).rx.size ≤ 16) ∧
      ((s.dev.mbox f).rx.size ≤ 16 → (d.mbox f).rx.tail = (s.dev.mbox f).rx.head)) ∧
  (∀ (f : Nat) (s : State), s.On → s.Settled → s.dev.fnExists f = true →
    ((s.dev.mbox f).req.size < 6 ∨ 14 < (s.dev.mbox f).req.size) →
    ((s.dev.mbox f).rsp.size < 6 ∨ 14 < (s.dev.mbox f).rsp.size) → (s.dev.mbox f).rx.size < 6 →
    Runs (.reqRingEnableWrite f true) s (fun d => d = s.dev) ∧ Runs (.rspRingEnableWrite f true) s (fun d => d = s.dev) ∧
      Runs (.rxRingEnableWrite f true) s (fun d => d = s.dev)) ∧
  (∀ (f tail : Nat) (s : State), s.On → s.Settled → s.dev.fnExists f = true → (s.dev.mbox f).req.enabled = true →
    (s.dev.mbox f).halted = false → s.dev.served f = true → s.dev.mayRequest f = true → tail < 2 ^ 32 →
    (tail + 2 ^ 32 - (s.dev.mbox f).req.head) % 2 ^ 32 ≤ 2 ^ (s.dev.mbox f).req.size →
    (s.dev.mbox f).fetched ≠ tail → s.dev.host.reads = [] → s.dev.host.waitingReads = [] →
    s.dev.host.quarantine = [] →
    Runs (.reqDoorbell f tail []) s fun d => (d.mbox f).req.tail = tail ∧
      ∃ r, d.host.reads = [r] ∧ r.fn = f ∧ r.use = .ringFetch tail ∧ r.issued = s.dev.now) ∧
  (∀ (f tail : Nat) (u : List (Nat × Hdr)) (s : State), s.On → s.Settled → s.dev.fnExists f = true →
    (s.dev.mbox f).req.enabled = true → (s.dev.mbox f).halted = false → (s.dev.mbox f).hostLost = false →
    s.dev.served f = true → tail < 2 ^ 32 →
    2 ^ (s.dev.mbox f).req.size < (tail + 2 ^ 32 - (s.dev.mbox f).req.head) % 2 ^ 32 →
    Runs (.reqDoorbell f tail u) s fun d => (d.mbox f).reqError = true ∧ (d.mbox f).halted = true ∧
      d.ctr .ringErrors f 0 = (s.dev.ctr .ringErrors f 0 + 1) % 2 ^ 32) ∧
  (∀ (f i : Nat) (s : State), s.On → s.Settled → s.dev.fnExists f = true → (s.dev.mbox f).unknown = [] →
    (∀ k x, s.dev.session f k = some x → x.held = [] ∧ x.lost = 0) →
    Runs (.rspHeadWrite f i) s fun d => (d.mbox f).rsp = { (s.dev.mbox f).rsp with head := i % 2 ^ 32 }) ∧
  (∀ (f i : Nat) (s : State), s.On → s.Settled → s.dev.fnExists f = true →
    Runs (.rxHeadWrite f i) s fun d => (d.mbox f).rx = { (s.dev.mbox f).rx with head := i % 2 ^ 32 }) ∧
  (∀ (f : Nat) (s : State), s.On → s.Settled → (s.dev.mbox f).irqRsp.late s.dev.now = true →
    (s.dev.fend f).irqStatus.testBit 0 = false → (s.dev.fend f).irqMask.testBit 0 = false →
    (s.dev.mbox f).irqRsp.vector ∉ (s.dev.fend f).msixMasked → s.dev.mayRequest f = true →
    Runs (.irqCoalesceTimeout f 0) s fun d => (d.mbox f).irqRsp.waiting = 0 ∧ (d.fend f).irqStatus.testBit 0 = true ∧
      d.host.msiSent = (f, (s.dev.mbox f).irqRsp.vector) :: s.dev.host.msiSent) ∧
  (∀ (f : Nat) (s : State), s.On → s.Settled → (s.dev.mbox f).irqRx.late s.dev.now = true →
    Runs (.irqCoalesceTimeout f 1) s fun d => (d.mbox f).irqRx.waiting = 0 ∧ (d.fend f).irqStatus.testBit 1 = true) ∧
  (∀ (f : Nat) (s : State), s.On → s.Settled → f < 2 → (s.dev.mbox f).bootBytes ≤ 256 →
    Runs (.bootGo f) s fun d => (d.mbox f).bootWaiting =
      ((s.dev.mbox f).bootWaiting || !(s.dev.mbox f).bootDone) ∧ (d.mbox f).boot = (s.dev.mbox f).boot) ∧
  (∀ (f : Nat) (s : State), s.On → s.Settled → s.dev.fnExists f = true →
    Runs (.bootDoneClear f) s fun d => d.mbox f = { s.dev.mbox f with bootDone := false }) ∧
  (∀ (f : Nat) (s : State), s.On → s.Settled → s.dev.fnExists f = true →
    Runs (.heartbeatKick f) s fun d => d.mbox f = { s.dev.mbox f with hbSince := s.dev.now }) ∧
  (∀ (f : Nat) (s : State), s.On → s.Settled → s.dev.fnExists f = true → (s.dev.mbox f).hbTimeout ≠ 0 →
    (s.dev.mbox f).hostLost = false → (s.dev.mbox f).hbSince + (s.dev.mbox f).hbTimeout * cyclesPerMs ≤ s.dev.now →
    Runs (.heartbeatExpiry f) s fun d => (d.mbox f).hostLost = true ∧ (d.fend f).lostCause = 4 ∧
      (d.fend f).teardown = true ∧ (∀ k, k < 5 → d.session f k = none) ∧ d.ports = s.dev.ports ∧ d.hem = s.dev.hem ∧
      d.queues = s.dev.queues ∧ d.tables = s.dev.tables ∧ d.tcam = s.dev.tcam) ∧
  (∀ (f : Nat) (s : State), s.On → s.Settled → s.dev.fnExists f = true →
    Runs (.hostLostClear f) s fun d => d.mbox f = { s.dev.mbox f with hostLost := false }) ∧
  (∀ (c : Nat) (s : State), s.On → c < 5 → s.dev.outOfService (16 + c) = false →
    Runs (.watchdogExpiry c) s fun d => d.outOfService (16 + c) = true ∧
      (∀ k, k ∈ d.mbx.absent ↔ k ∈ s.dev.mbx.absent ∨ (k < 4 ∧ s.dev.coreOf k = c)) ∧
      d.mbx.spare = (if s.dev.mbx.spare = some c then none else s.dev.mbx.spare)) ∧
  (∀ (k : Nat) (ks : List Nat) (p : Nat) (s : State), s.On → s.dev.mbx.absent = k :: ks → s.dev.mbx.spare = some p →
    Runs .coreTakeover s fun d => d.coreOf k = p ∧ d.mbx.absent = ks ∧ d.mbx.spare = none ∧
      ∀ e ∈ d.mbx.effects, e.1.core ≠ k) ∧
  (∀ (f : Nat) (x : Hello) (s : State), s.On → s.Settled → (s.dev.mbox f).hello = some x →
    x.since + 10 * cyclesPerS ≤ s.dev.now →
    Runs (.helloExpiry f) s fun d => d.mbox f = { s.dev.mbox f with hello := none })

/-- 17: the messages of sessions (R411 to R413, R422, R434). -/
def Obligations.SessionMessagesRun : Prop :=
  (∀ (h : Hdr) (n : Nat) (s : State) (x : Session),
    s.Serves { code := 0x1101, lenOk := exactly 32, maxBody := 320, open0 := true, changes := false } h x → s.Hears h →
    h.session = 0 → s.dev.ten.rngOk = true →
    Runs (.sessionHello h n) s fun d => ∃ eph nonce, nonce < 2 ^ 256 ∧
      d.Replied h .ok [Config.idkPublic, eph, nonce, Config.idkSignature [n, nonce, eph, h.fn]] ∧
      (d.mbox h.fn).hello = some { hostNonce := n, draw := eph, since := s.dev.now }) ∧
  (∀ (h : Hdr) (r : SessionOpenRec) (e : Hello) (s : State) (x : Session),
    s.Serves { code := 0x1102, lenOk := exactly 428, maxBody := 4, open0 := true, changes := false } h x → s.Hears h →
    h.session = 0 → firstFail (sessionOpenChecks (x.sends h) s.dev r) = none → s.dev.liveHello h.fn = some e →
    Runs (.sessionOpen h r) s fun d => (d.mbox h.fn).hello = none ∧ ∃ k y, 1 ≤ k ∧ k ≤ 4 ∧
      s.dev.session h.fn k = none ∧ d.session h.fn k = some y ∧ y.tenancy = r.tenancy ∧ y.highest = 0 ∧
      y.key = Config.sessionKey e.draw r.hostEph ∧
      y.role = (if r.role = 0 then .owner else if r.role = 1 then .tenant else .maint) ∧
      d.Replied { h with session := k, tenancy := r.tenancy } .ok [if r.role = 2 then r.token.maxDurationS else 0]) ∧
  (∀ (h : Hdr) (r : SessionOpenRec) (st : Status) (s : State) (x : Session),
    s.Serves { code := 0x1102, lenOk := exactly 428, maxBody := 4, open0 := true, changes := false } h x → s.Hears h →
    h.session = 0 → firstFail (sessionOpenChecks (x.sends h) s.dev r) = some st →
    Runs (.sessionOpen h r) s fun d => d.Replied h st [] ∧ (d.mbox h.fn).hello = none ∧ d.data = s.dev.data) ∧
  (∀ (h : Hdr) (s : State) (x : Session),
    s.Serves { code := 0x1103, lenOk := exactly 0, maxBody := 0, changes := false } h x → s.Hears h → h.session ≠ 0 →
    Runs (.sessionClose h) s fun d => d.Replied h .ok [] ∧ d.session h.fn h.session = none) ∧
  (∀ (h : Hdr) (m : Nat) (s : State) (x : Session),
    s.Serves { code := 0x1104, lenOk := exactly 8, maxBody := 0, changes := false } h x → s.Hears h →
    Runs (.eventMaskSet h m) s fun d => d.Replied h .ok [] ∧ d.data = s.dev.data ∧
      ∃ y, d.session h.fn h.session = some y ∧ y.mask = m % 2 ^ 32) ∧
  (∀ (h : Hdr) (s : State) (x : Session),
    s.Serves { code := 0x1105, lenOk := exactly 0, maxBody := 2048, changes := false } h x → s.Hears h →
    x.role ≠ .tenant →
    Runs (.mbxStatsGet h) s fun d => d.data = s.dev.data ∧
      d.Replied h .ok (allFns.flatMap fun f => f :: mbxRow (s.dev.take h) f))

/-- 18: registers, the link, and what loses or restores functions (R13, R14, R408, R436, R438, R439, R444, R445, R449 to
R453, R455). -/
def Obligations.EndpointCommandsRun : Prop :=
  (∀ (f v : Nat) (s : State), s.On → s.Settled → s.dev.fnExists f = true →
    Runs (.registerWrite f .irqMask v) s fun d => d.fend f = { s.dev.fend f with irqMask := v % 64 } ∧
      d.mbox f = s.dev.mbox f ∧ ∀ g, g ≠ f → d.fend g = s.dev.fend g) ∧
  (∀ (f v : Nat) (s : State), s.On → s.Settled → s.dev.fnExists f = true →
    Runs (.registerWrite f .reqBase v) s fun d => (d.mbox f).req = if (s.dev.mbox f).req.enabled then
      (s.dev.mbox f).req else { (s.dev.mbox f).req with base := v % 2 ^ 64 / 4096 * 4096 }) ∧
  (∀ (f v : Nat) (s : State), s.On → s.Settled → Runs (.registerWrite f .readOnly v) s fun d => d = s.dev) ∧
  (∀ (f v : Nat) (s : State), s.On → s.Settled → Runs (.registerWrite f .reserved v) s fun d => d = s.dev) ∧
  (∀ (f m : Nat) (s : State), s.On → s.Settled → s.dev.fnExists f = true →
    Runs (.irqStatusClear f m) s fun d => d.mbox f = s.dev.mbox f ∧ ∀ i, (d.fend f).irqStatus.testBit i =
      (decide (i < 6) && (s.dev.fend f).irqStatus.testBit i && !m.testBit i)) ∧
  (∀ (f : Nat) (w : Bool) (s : State), s.On → s.Settled → s.dev.fnExists f = true →
    Runs (.barMisalignedAccess f w) s fun d => d.ctr .misalignedAccess f 0 =
      (s.dev.ctr .misalignedAccess f 0 + 1) % 2 ^ 64 ∧ d.mbox f = s.dev.mbox f ∧ d.fend f = s.dev.fend f) ∧
  (∀ (v w : Nat) (s : State), s.On → 1 ≤ v → v ≤ 5 → w ∈ [1, 2, 4, 8] →
    Runs (.pcieLinkUp v w) s fun d => d.host.linkUp = true ∧ d.host.speed = v ∧ d.host.width = w ∧
      d.data = s.dev.data) ∧
  (∀ s : State, s.On → s.dev.host.linkUp = true →
    Runs .pcieLinkDown s fun d => d.host.linkUp = false ∧ (∀ f, f < 32 → s.dev.fnExists f = true →
      (d.mbox f).hostLost = true ∧ (d.fend f).teardown = true ∧ (d.fend f).lostCause = 1) ∧
      d.ports = s.dev.ports ∧ d.hem = s.dev.hem ∧ d.queues = s.dev.queues ∧ d.tables = s.dev.tables) ∧
  (∀ s : State, s.On →
    Runs .hotReset s fun d => (∀ f, f < 32 → s.dev.fnExists f = true →
      (d.mbox f).hostLost = true ∧ (d.fend f).crs = true ∧ (d.fend f).lostCause = 5) ∧
      d.ports = s.dev.ports ∧ d.hem = s.dev.hem ∧ d.queues = s.dev.queues ∧ d.tables = s.dev.tables) ∧
  (∀ (f : Nat) (s : State), s.On → f < 32 → f ≠ 0 → s.dev.fnExists f = true →
    Runs (.functionLevelReset f) s fun d => (d.mbox f).hostLost = true ∧ (d.fend f).crs = true ∧
      (d.fend f).lostCause = 3 ∧ (d.fend f).teardown = true ∧ d.host.vfEnable = s.dev.host.vfEnable ∧
      (∀ g, g ≠ f → (d.mbox g).hostLost = (s.dev.mbox g).hostLost)) ∧
  (∀ s : State, s.On →
    Runs (.functionLevelReset 0) s fun d => d.host.vfEnable = false ∧ (d.fend 0).crs = true ∧
      (∀ f, 2 ≤ f → f < 32 → s.dev.fnExists f = true → (d.mbox f).hostLost = true ∧ (d.fend f).crs = true) ∧
      (d.mbox 1).hostLost = (s.dev.mbox 1).hostLost) ∧
  (∀ (f : Nat) (s : State), s.On → f < 32 → s.dev.fnExists f = true → (s.dev.fend f).crs = false →
    (s.dev.fend f).busMaster = true →
    Runs (.busMasterClear f) s fun d => (d.fend f).busMaster = false ∧ (d.mbox f).hostLost = true ∧
      (d.fend f).lostCause = 2 ∧ d.ports = s.dev.ports ∧ d.tables = s.dev.tables ∧
      ∀ r ∈ d.host.reads, r.fn = f → r.discard = true) ∧
  (∀ (f : Nat) (s : State), s.On → s.Settled → s.dev.fnExists f = true → (s.dev.fend f).crs = false →
    (s.dev.mbox f).hostLost = true →
    Runs (.busMasterSet f) s fun d => (d.fend f).busMaster = true ∧ d.mayRequest f = false ∧
      d.host.reads = s.dev.host.reads) ∧
  (∀ (f : Nat) (s : State), s.On → f < 32 → s.dev.fnExists f = true → (s.dev.fend f).crs = false →
    (s.dev.fend f).d3hot = false →
    Runs (.d3hotEntry f) s fun d => (d.fend f).d3hot = true ∧ (d.mbox f).hostLost = true ∧ (d.fend f).lostCause = 6) ∧
  (∀ (f : Nat) (s : State), s.On → s.Settled → s.dev.fnExists f = true → (s.dev.fend f).crs = false →
    Runs (.d0Return f) s fun d => d.fend f = { s.dev.fend f with d3hot := false } ∧ d.mbox f = s.dev.mbox f) ∧
  (∀ (n : Nat) (s : State), s.On → s.Settled → s.dev.answersConfig 0 = true → s.dev.host.vfEnable = false → n ≤ 30 →
    Runs (.vfEnableSet n) s fun d => ∀ f, d.fnExists f = decide (f < n + 2 ∨ f < 2)) ∧
  (∀ s : State, s.On → s.dev.answersConfig 0 = true → s.dev.host.vfEnable = true →
    Runs .vfEnableClear s fun d => (∀ f, d.fnExists f = decide (f < 2)) ∧
      ∀ f, 2 ≤ f → f < 32 → s.dev.fnExists f = true → (d.mbox f).hostLost = true ∧ (d.fend f).crs = true) ∧
  (∀ (f c : Nat) (s : State), s.On → s.Settled → s.dev.answersConfig f = true →
    Runs (.configRequest f true c) s fun d => d.host.answer = .normal ∧
      (d.fend f).ctoValue = (if c ∈ [0, 1, 2, 5, 6, 9, 10, 13, 14] then c else (s.dev.fend f).ctoValue)) ∧
  (∀ (f c : Nat) (w : Bool) (s : State), s.On → s.Settled → s.dev.fnExists f = true → (s.dev.fend f).crs = true →
    Runs (.configRequest f w c) s fun d => d.host.answer = .retry ∧ d.fend f = s.dev.fend f) ∧
  (∀ (f : Nat) (s : State), s.On → s.Settled → f < 32 → f ≠ 0 → (s.dev.fend f).teardown = true →
    (s.dev.fend f).lostCause = 3 →
    Runs (.teardownFinish f) s fun d => d.fend f = (s.dev.fend f).restored ∧ d.mbox f = .reset ∧
      d.ctr .teardowns f 0 = (s.dev.ctr .teardowns f 0 + 1) % 2 ^ 32) ∧
  (∀ (f : Nat) (s : State), s.On → s.Settled → f < 32 → (s.dev.fend f).teardown = true → (s.dev.mbox f).hostLost = true →
    (s.dev.fend f).lostCause = 2 →
    Runs (.teardownFinish f) s fun d => (d.fend f).teardown = false ∧ (d.fend f).irqStatus.testBit 4 = true ∧
      (d.mbox f).req = (s.dev.mbox f).req)

/-- 18: reads of host memory and HOST_STATUS_GET (R442, R445 to R449, R456). -/
def Obligations.HostReadCommandsRun : Prop :=
  (∀ (r : DmaRead) (n : Nat) (s : State), s.On → s.Settled → s.dev.host.reads = [r] → s.dev.host.waitingReads = [] →
    r.arrived = none → r.discard = false → r.use = .ringFetch n → s.dev.now < r.issued + r.timeout →
    (s.dev.mbox r.fn).req.enabled = true → (s.dev.mbox r.fn).unknown = [] →
    (s.dev.mbox r.fn).available < (n + 2 ^ 32 - (s.dev.mbox r.fn).req.head) % 2 ^ 32 →
    (n + 2 ^ 32 - (s.dev.mbox r.fn).req.head) % 2 ^ 32 ≤ 2 ^ (s.dev.mbox r.fn).req.size →
    Runs (.dmaCompletionArrival r.tag .ok) s fun d => d.host.reads = [] ∧ (d.mbox r.fn).fetched = n) ∧
  (∀ (r : DmaRead) (st : DmaStatus) (s : State), s.On → s.Settled → s.dev.readOf r.tag = some r → r.discard = true →
    s.dev.now < r.issued + r.timeout → s.dev.host.waitingReads = [] →
    Runs (.dmaCompletionArrival r.tag st) s fun d => d.host.reads = s.dev.host.reads.erase r ∧
      d.ctr .masterOffDiscards r.fn 0 = (s.dev.ctr .masterOffDiscards r.fn 0 + 1) % 2 ^ 64 ∧ d.mbx = s.dev.mbx) ∧
  (∀ (r : DmaRead) (n : Nat) (s : State), s.On → s.Settled → s.dev.host.reads = [r] → s.dev.host.waitingReads = [] →
    r.arrived = none → r.discard = false → r.use = .ringFetch n → s.dev.now < r.issued + r.timeout →
    Runs (.dmaCompletionArrival r.tag .bad) s fun d => d.host.reads = [] ∧ d.host.quarantine = s.dev.host.quarantine ∧
      d.mbx = s.dev.mbx ∧ (d.fend r.fn).refetchAt = some (s.dev.now + cyclesPerMs) ∧
      d.ctr .badCompletions r.fn 0 = (s.dev.ctr .badCompletions r.fn 0 + 1) % 2 ^ 64) ∧
  (∀ (q : Nat × Nat × Nat) (st : DmaStatus) (s : State), s.On → s.Settled → s.dev.readOf q.1 = none →
    s.dev.host.quarantine.find? (fun x => x.1 = q.1) = some q →
    Runs (.dmaCompletionArrival q.1 st) s fun d => d.host.quarantine = s.dev.host.quarantine ∧ d.mbx = s.dev.mbx ∧
      d.ctr .lateCompletions q.2.1 0 = (s.dev.ctr .lateCompletions q.2.1 0 + 1) % 2 ^ 64) ∧
  (∀ (r : DmaRead) (n : Nat) (s : State), s.On → s.Settled → s.dev.host.reads = [r] → r.arrived = none →
    r.discard = false → r.use = .ringFetch n → r.issued + r.timeout ≤ s.dev.now →
    Runs (.completionTimeout r.tag) s fun d => d.host.reads = [] ∧ (d.fend r.fn).aerTimeout = true ∧
      d.host.quarantine = s.dev.host.quarantine ++ [(r.tag, r.fn, s.dev.now + 2 * r.timeout)] ∧
      (d.fend r.fn).refetchAt = some (s.dev.now + cyclesPerMs) ∧
      d.ctr .completionTimeouts r.fn 0 = (s.dev.ctr .completionTimeouts r.fn 0 + 1) % 2 ^ 64) ∧
  (∀ (r : DmaRead) (tok : Machine.Token) (x : BulkSegmentRec) (s : State), s.On → s.Settled → s.dev.host.reads = [r] →
    r.arrived = none → r.discard = false → r.use = .message tok (.bulkSegment x) → tok.boot = false →
    s.dev.coreUp tok.core = true → s.dev.canWrite tok.fn = true →
    (∃ y, s.dev.session tok.fn tok.session = some y ∧ y.serial = tok.serial) → r.issued + r.timeout ≤ s.dev.now →
    Runs (.completionTimeout r.tag) s fun d => ∃ e ∈ (d.mbox tok.fn).entries, e.requestSeq = tok.seq ∧
      e.session = tok.session ∧ e.status = .busMasterOff ∧ e.body = []) ∧
  (∀ (t : Nat) (s : State), s.On → s.Settled → s.dev.host.waitingReads = [] →
    Runs (.tagQuarantineEnd t) s fun d => ∀ q, q ∈ d.host.quarantine ↔
      q ∈ s.dev.host.quarantine ∧ ¬(q.1 = t ∧ q.2.2 ≤ s.dev.now)) ∧
  (∀ (f t : Nat) (s : State), s.On → s.Settled → (s.dev.fend f).refetchAt = some t → t ≤ s.dev.now →
    (s.dev.mbox f).req.enabled = true → (s.dev.mbox f).halted = false → s.dev.served f = true →
    s.dev.mayRequest f = true → (s.dev.mbox f).fetched ≠ (s.dev.mbox f).req.tail →
    ((s.dev.mbox f).req.tail + 2 ^ 32 - (s.dev.mbox f).req.head) % 2 ^ 32 ≤ 2 ^ (s.dev.mbox f).req.size →
    s.dev.host.reads = [] → s.dev.host.waitingReads = [] → s.dev.host.quarantine = [] →
    Runs (.reqRingFetchRetry f) s fun d => (d.fend f).refetchAt = none ∧
      ∃ r, d.host.reads = [r] ∧ r.fn = f ∧ r.use = .ringFetch (s.dev.mbox f).req.tail) ∧
  (∀ (h : Hdr) (s : State) (x : Session),
    s.Serves { code := 0x1201, lenOk := exactly 0, maxBody := 2048, changes := false } h x → s.Hears h →
    x.role = .tenant →
    Runs (.hostStatusGet h) s fun d => d.data = s.dev.data ∧ ∃ aspm, d.Replied h .ok
      ([s.dev.host.speed, s.dev.host.width, aspm] ++
        (allFns.filter fun f => 2 ≤ f && s.dev.fnTenancy f == some x.tenancy).flatMap
          fun f => f :: hostRow s.dev f)) ∧
  (∀ (h : Hdr) (s : State) (x : Session),
    s.Serves { code := 0x1201, lenOk := exactly 0, maxBody := 2048, changes := false } h x → s.Hears h →
    x.role ≠ .tenant →
    Runs (.hostStatusGet h) s fun d => d.data = s.dev.data ∧ ∃ aspm, d.Replied h .ok
      ([s.dev.host.speed, s.dev.host.width, aspm, s.dev.sysState,
        s.dev.ctr .linkDowns 0 0, s.dev.ctr .linkRetrains 0 0, s.dev.ctr .correctableErrors 0 0] ++
        allFns.flatMap fun f => f :: hostRow s.dev f))

/-- 19: voltage planning, sensors and re-planning (R458 to R460, R462 to R465). -/
def Obligations.GussetCommandsRun : Prop :=
  (∀ s : State, s.On → s.dev.planning = true → s.dev.gus.evalAt + 3000000 ≤ s.dev.now →
    s.dev.island.config.flags.testBit 0 = true → s.dev.gus.holdUntil = none →
    Runs .gussetVoltageEval s fun d =>
      d.gus.mv = planVoltage (s.dev.gus.slacks.cells.map (·.2)) s.dev.gus.vminSram s.dev.gus.mv ∧
      (d.gus.mv = s.dev.gus.mv ∨ d.gus.requested = true) ∧ d.data = s.dev.data) ∧
  (∀ (mv : Nat) (s : State), s.On → s.Settled → s.dev.gus.requested = true → s.dev.gus.mv ≤ mv + 10 →
    mv ≤ s.dev.gus.mv + 10 →
    Runs (.pmbusReadback mv true) s fun d => d = { s.dev with gus := { s.dev.gus with
      requested := false, attempts := 0, confirmed := s.dev.gus.mv } }) ∧
  (∀ (mv : Nat) (s : State), s.On → s.Settled → s.dev.gus.requested = true → s.dev.gus.attempts = 2 →
    Runs (.pmbusReadback mv false) s fun d => d.gus.mv = s.dev.gus.confirmed ∧ d.gus.requested = false ∧
      d.gus.holdUntil = some (s.dev.now + cyclesPerS) ∧
      d.ctr .pmbusFail 0 0 = (s.dev.ctr .pmbusFail 0 0 + 1) % 2 ^ 32 ∧ d.data = s.dev.data) ∧
  (∀ (t : Nat) (s : State), s.On → s.Settled → s.dev.gus.holdUntil = some t → t ≤ s.dev.now →
    Runs .pmbusHoldoffEnd s fun d => d = { s.dev with gus := { s.dev.gus with holdUntil := none } }) ∧
  (∀ (ts : List Int) (s : State), s.On → s.Settled → (∀ t ∈ ts, t < 460) →
    Runs (.thermalSample ts) s fun d => d.power = .on ∧ d.gus.temps = ts ∧ (∀ n ∈ d.gus.hot, n = 0) ∧
      d.data = s.dev.data) ∧
  (∀ (ts : List Int) (i : Nat) (t : Int) (s : State), s.On → ts[i]? = some t → 460 ≤ t →
    2 ≤ s.dev.gus.hot.getD i 0 →
    Runs (.thermalSample ts) s fun d => d.power = .shutdown ∧
      ∀ p c, s.dev.dram.channels.get? p = some c → c.state = .active →
        ∃ c', d.dram.channels.get? p = some c' ∧ c'.state = .selfRefresh) ∧
  (∀ (k r : Nat) (slack : Int) (s : State), s.On → s.Settled → k < 64 → 20 ≤ slack →
    Runs (.ringOscSample k r slack) s fun d => d.gus.ratios.get? k = some r ∧ d.gus.slacks.get? k = some slack ∧
      d.gus.lowSince.get? k = none ∧ d.gus.mv = s.dev.gus.mv) ∧
  (∀ (k r b : Nat) (s : State), s.On → s.Settled → k < 64 → s.dev.island.baseRatio.get? k = some b →
    Runs (.ringOscSample k r 20) s fun d => d.island = s.dev.island ∧
      d.ageing k = if b = 0 then 0 else (b - r) * 10000 / b) ∧
  (∀ (mv : Nat) (s : State), s.On → s.Settled → mv ≤ 800 →
    Runs (.sramVminTest mv) s fun d => d.gus.vminSram = mv ∧ d.gus.mv = s.dev.gus.mv ∧ d.data = s.dev.data) ∧
  (∀ (mv : Nat) (s : State), s.On → s.Settled → 800 < mv →
    Runs (.sramVminTest mv) s fun d => d.gus.vminSram = mv ∧
      d.gus.eom.get? (10 * 4096) = some { at' := true, outSince := none }) ∧
  (∀ (l e p b : Nat) (s : State), s.On → s.Settled → s.dev.portOfLane l = some p → s.dev.isUp p = true →
    s.dev.gus.adaptAt.get? l = none → s.dev.island.baseEye.get? (l * 8 + (s.dev.port p).cfg.mode) = some b →
    e * 100 < b * 70 →
    Runs (.serdesAdaptStep l e) s fun d => d.gus.adapt.get 0 l = s.dev.gus.adapt.get 0 l +
        (if s.dev.gus.adapt.get 0 l < Config.adaptSteps (s.dev.port p).cfg.mode then 1 else 0) ∧
      d.gus.eyes.get? l = some e ∧ d.ports = s.dev.ports) ∧
  (∀ (p sp : Nat) (ws bs : List Nat) (cs : List Int) (s : State), s.On → s.Settled →
    (s.dev.chan p).logical.isSome = true → s.dev.island.baseWindow.get? p = some bs →
    (∃ x ∈ ws.zip bs, x.1 * 100 < x.2 * 60) → s.dev.gus.recentreAt.get? p = none → s.dev.gus.retryAt.get? p = none →
    s.dev.island.config.flags.testBit 1 = true → s.dev.planning = true → s.dev.spareChan = some sp → sp ≠ p →
    s.dev.dramBusy = false →
    Runs (.dramWindowCheck p ws cs) s fun d => (d.chan p).state = .migrating ∧ (d.chan sp).state = .migrating ∧
      (d.chan p).windows = ws ∧ ∃ m, d.dram.migration = some m ∧ m.src = p ∧ m.dst = sp ∧ m.recentre = true ∧
        m.deadline = s.dev.now + 10000 * cyclesPerMs) ∧
  (∀ (k b n m : Nat) (s : State), s.On → s.Settled → k < 7 → b < 16 → s.dev.island.baseMargin.get? (k * 16 + b) = some m →
    n ≤ m → m ≤ n + 10 →
    Runs (.tcamMarginTest k b n) s fun d =>
      (d.tcam.sleeves.get .reset k).threshold1 ≤ 95 - ((m - n : Nat) : Int) ∧
      (d.tcam.sleeves.get .reset k).threshold1 ≤ (s.dev.tcam.sleeves.get .reset k).threshold1 ∧
      (d.tcam.sleeves.get .reset k).threshold2 ≤ 105 - ((m - n : Nat) : Int) ∧
      ∀ j, j ≠ k → d.tcam.sleeves.get .reset j = s.dev.tcam.sleeves.get .reset j)

/-- 19: the persistent-store island, the history and the messages of the Gusset (R466 to R471). -/
def Obligations.IslandCommandsRun : Prop :=
  (∀ (c : Nat) (r : FlashReq) (t : Nat) (s : State), s.Settled → s.dev.island.busy = none → r.op = .pageProgram →
    nextFlash (fun x => x.recheckAt.isNone) s.dev.island.waiting = some r → r.use = .bootEpoch t →
    Runs (.flashOpCheck c) s fun d => if mayStart s.dev.island.config c .pageProgram = true then
        d.island = { s.dev.island with waiting := s.dev.island.waiting.erase r, busy := some r }
      else d.island.busy = none ∧ d.island.waiting = (s.dev.island.waiting.map fun x =>
          if x == r then { x with recheckAt := some (s.dev.now + 10 * cyclesPerMs) } else x) ∧
        d.ctr .flashDeferrals 0 0 = (s.dev.ctr .flashDeferrals 0 0 + 1) % 2 ^ 64) ∧
  (∀ (c t v : Nat) (r : FlashReq) (s : State), s.Settled → s.dev.island.busy = none → s.dev.island.waiting = [r] →
    r.recheckAt = some t → t ≤ s.dev.now → r.use = .bootEpoch v →
    Runs (.flashDeferRecheck c) s fun d => if mayStart s.dev.island.config c r.op = true then
        d.island.waiting = [] ∧ d.island.busy = some r
      else d.island.busy = none ∧
        d.island.waiting = [{ r with recheckAt := some (s.dev.now + 10 * cyclesPerMs) }]) ∧
  (∀ (v : Nat) (r : FlashReq) (s : State), s.Settled → s.dev.island.busy = some r → r.use = .bootEpoch v →
    Runs .flashOpComplete s fun d => d.island = { s.dev.island with busy := none, epoch := v }) ∧
  (∀ (h : HistoryRec) (r : FlashReq) (s : State), s.Settled → s.dev.island.busy = some r → r.use = .history h →
    h.kind ≠ 0 → s.dev.island.history.length < 16384 →
    Runs .flashOpComplete s fun d => d.island.busy = none ∧ d.island.history = s.dev.island.history ++ [h] ∧
      d.ctr .historyRecords 0 0 = (s.dev.ctr .historyRecords 0 0 + 1) % 2 ^ 64) ∧
  (∀ (key : Nat) (tok : Machine.Token) (r : FlashReq) (s : State), s.On → s.Settled → s.dev.island.waiting = [r] →
    r.use = .ownerKey key (some tok) → r.since + 10 * cyclesPerS ≤ s.dev.now → tok.boot = false → s.dev.coreUp tok.core = true →
    s.dev.canWrite tok.fn = true → (∃ y, s.dev.session tok.fn tok.session = some y ∧ y.serial = tok.serial) →
    Runs .flashWriteDeadline s fun d => d.island.waiting = [] ∧ d.ten.ownerKey = s.dev.ten.ownerKey ∧
      ∃ e ∈ (d.mbox tok.fn).entries, e.requestSeq = tok.seq ∧ e.session = tok.session ∧ e.status = .timeout) ∧
  (∀ (c : Nat) (s : State), s.Settled → s.dev.island.powerFail = false → s.dev.island.busy = none →
    s.dev.island.waiting = [] → mayStart s.dev.island.config c .postmortem = true → s.dev.freeSlot.isSome = true →
    Runs (.powerFailAssert c) s fun d => d.island.powerFail = true ∧ d.ports = s.dev.ports ∧
      ∃ r, d.island.busy = some r ∧ r.use = .postmortem) ∧
  (∀ (c : Nat) (s : State), s.Settled → s.dev.island.powerFail = false → s.dev.island.busy = none →
    (mayStart s.dev.island.config c .postmortem = false ∨ s.dev.freeSlot = none) →
    Runs (.powerFailAssert c) s fun d => d.island.powerFail = true ∧ d.island.busy = none ∧
      (∀ r ∈ d.island.waiting, r.use ≠ .postmortem) ∧
      d.ctr .postmortemLost 0 0 = (s.dev.ctr .postmortemLost 0 0 + 1) % 2 ^ 64) ∧
  (∀ s : State, s.Settled → s.dev.island.powerFail = true →
    Runs .powerFailDeassert s fun d => d.island.powerFail = false ∧
      ∀ i r, s.dev.island.slots.get? i = some r → r.reported = false → r.bootEpoch = s.dev.island.epoch →
        d.island.slots.get? i = some { r with dip := true }) ∧
  (∀ s : State, s.On → s.Settled → s.dev.planning = true →
    Runs .postmortemBufferRefresh s fun d => d.island.buffer.events = s.dev.gus.events ∧
      d.island.buffer.voltage = s.dev.gus.mv ∧ d.island.buffer.temps = s.dev.gus.temps ∧
      d.island.buffer.units = s.dev.ten.units ∧ d.island.buffer.effects.length ≤ 8) ∧
  (∀ (k : Nat) (s : State), s.On → s.Settled → s.dev.planning = true → 1 ≤ k → k ≤ 3 →
    (k = 1 → s.dev.gus.historyAt + 21600 * cyclesPerS ≤ s.dev.now) →
    Runs (.historyAppend k) s fun d => d.gus.tMax = [] ∧ ∃ q ∈ d.island.waiting, q.op = .pageProgram ∧
      q.use = .history (s.dev.historyRec k)) ∧
  (∀ (h : Hdr) (r : GusConfigRec) (s : State) (x : Session),
    s.Serves { code := 0x1301, lenOk := exactly 16, maxBody := 0 } h x → s.Hears h →
    firstFail (gusConfigChecks (x.sends h) r) = none →
    Runs (.gusConfigSet h r) s fun d => d.Replied h .ok [] ∧ d.island = { s.dev.island with config := r } ∧
      d.ports = s.dev.ports) ∧
  (∀ (h : Hdr) (s : State) (x : Session),
    s.Serves { code := 0x1302, lenOk := exactly 0, maxBody := 2048, changes := false } h x → s.Hears h →
    x.role ≠ .tenant →
    Runs (.gusStatusGet h) s fun d => d.data = s.dev.data ∧ ∃ rest, d.Replied h .ok
      (historyFields (s.dev.historyRec 1) ++ [match s.dev.junction with
        | some t => tempCode t
        | none => 0] ++ rest)) ∧
  (∀ (h : Hdr) (a n : Nat) (s : State) (x : Session),
    s.Serves { code := 0x1303, lenOk := exactly 6, maxBody := 15360, changes := false } h x → s.Hears h →
    x.role ≠ .tenant → 1 ≤ n → n ≤ 60 →
    Runs (.gusHistoryRead h a n) s fun d => d.data = s.dev.data ∧
      d.Replied h .ok (((s.dev.island.history.drop a).take n).flatMap historyFields)) ∧
  (∀ (h : Hdr) (k : Nat) (r : PmRecord) (s : State) (x : Session),
    s.Serves { code := 0x1304, lenOk := exactly 1, maxBody := 16288, changes := false } h x → s.Hears h →
    x.role ≠ .tenant → k ≤ 3 → s.dev.island.slots.get? k = some r →
    Runs (.gusPostmortemRead h k) s fun d => d.data = s.dev.data ∧ ∃ rest, d.Replied h .ok
      ([r.bootEpoch, r.buffer.time.sec, r.buffer.time.ns, b2n r.dip, b2n r.buffer.shutdown, r.buffer.voltage] ++
        rest))

/-- 20: power, ROM and the start of firmware (R474 to R480, R500). -/
def Obligations.StartCommandsRun : Prop :=
  (∀ s : State, s.Settled → Runs .islandPowerOnReset s fun d => d.island.config = gusConfigZero ∧
    d.island.waiting = [] ∧ d.island.busy = none ∧ d.island.images = s.dev.island.images ∧ d.ports = s.dev.ports) ∧
  (∀ s : State, Runs .perstAssert s fun d => d.power = .reset ∧ d.ports = Dev.reset.ports ∧
    d.tables = Dev.reset.tables ∧ d.mbx = .reset ∧ d.island.images = s.dev.island.images ∧
    d.island.history = s.dev.island.history ∧ d.ten.rollback = s.dev.ten.rollback) ∧
  (∀ s : State, s.dev.power = .reset → Runs (.perstRelease true) s fun d => d.power = .on ∧ d.now = 0 ∧
    d.boot.stage = 0 ∧ d.gus = .reset ∧ d.hem = Dev.reset.hem ∧ d.ports = Dev.reset.ports ∧
    d.queues = Dev.reset.queues ∧ d.vers = Dev.reset.vers ∧ d.counters = Dev.reset.counters ∧
    d.host.vfEnable = false ∧ d.host.reads = [] ∧ d.host.quarantine = [] ∧ d.boot.ejectGrace = 5000) ∧
  (∀ s : State, s.dev.power = .reset → Runs (.perstRelease false) s fun d => d.power = .on ∧ d.boot.stage = 0x0F ∧
    d.host.configOpen = true) ∧
  (∀ s : State, s.dev.power ≠ .reset → Runs .railFault s fun d => d.power = .undefined) ∧
  (∀ s : State, s.On → s.dev.boot.stage = 0 →
    s.dev.tryArea s.dev.island.activeArea (s.dev.island.directory.map fun b => b.digestOf s.dev.island.activeArea) = 1 →
    Runs (.romImageSelect true) s fun d => d.boot.stage = 1 ∧ d.boot.fallback = none ∧ d.boot.bank = 0 ∧
      d.boot.runningArea = some s.dev.island.activeArea ∧
      d.boot.running = s.dev.island.images.get? s.dev.island.activeArea) ∧
  (∀ (r : Nat) (s : State), s.On → s.dev.boot.stage = 0 → r ≠ 1 →
    s.dev.tryArea s.dev.island.activeArea (s.dev.island.directory.map fun b => b.digestOf s.dev.island.activeArea) = r →
    s.dev.tryArea (1 - s.dev.island.activeArea)
      (s.dev.island.directory.map fun b => b.digestOf (1 - s.dev.island.activeArea)) = 1 →
    Runs (.romImageSelect true) s fun d => d.boot.stage = 1 ∧
      d.boot.fallback = some (1 - s.dev.island.activeArea, r) ∧ d.island = s.dev.island) ∧
  (∀ s : State, s.On → s.dev.boot.stage = 0 →
    Runs (.romImageSelect false) s fun d => d.boot.stage = 0x0E ∧ d.boot.romCause = 1 ∧ d.host.configOpen = true) ∧
  (∀ (h : Hdr) (s : State), s.On → s.Settled → s.dev.romHolds h = true →
    Runs (.bootInfo h) s fun d => (d.mbox h.fn).bootDone = true ∧ (d.mbox h.fn).bootWaiting = false ∧
      ∃ n, (d.mbox h.fn).boot = Mem.writeList (s.dev.mbox h.fn).boot 0
        [0x1480 + 2 ^ 16 * h.tenancy + 2 ^ 24 * 4, n, 16, h.seq,
         s.dev.boot.romCause + 2 ^ 8 * s.dev.boot.romResultA + 2 ^ 16 * s.dev.boot.romResultB +
           2 ^ 24 * s.dev.ten.lifecycle + 2 ^ 32 * (Config.serial % 2 ^ 32),
         Config.serial / 2 ^ 32 % 2 ^ 32 + 2 ^ 32 * s.dev.ten.rollback]) ∧
  (∀ (h : Hdr) (n : Nat) (i : FwImage) (s : State), s.On → s.Settled → s.dev.romHolds h = true → h.fn = 0 → 512 ≤ n →
    n ≤ 1573376 → s.dev.mayRequest 0 = true → s.dev.host.reads = [] → s.dev.host.quarantine = [] →
    Runs (.bootImageLoad h n i) s fun d => d.boot = s.dev.boot ∧ (d.mbox 0).bootWaiting = false ∧
      ∃ r tok, d.host.reads = [r] ∧ r.fn = 0 ∧ r.use = .message tok (.bootLoad i) ∧ tok.seq = h.seq) ∧
  (∀ (h : Hdr) (n : Nat) (i : FwImage) (s : State), s.On → s.Settled → s.dev.romHolds h = true → h.fn = 0 → 512 ≤ n →
    n ≤ 1573376 → s.dev.mayRequest 0 = false →
    Runs (.bootImageLoad h n i) s fun d => (d.mbox 0).bootDone = true ∧
      ∃ n, (d.mbox 0).boot = Mem.writeList (s.dev.mbox 0).boot 0
        [0x1481 + 2 ^ 16 * h.tenancy + 2 ^ 24 * 4, n, 2 ^ 32 * 14, h.seq]) ∧
  (∀ s : State, s.On → s.dev.boot.stage = 1 → s.dev.ten.rngOk = true →
    Runs .firmwareStart s fun d => d.boot.stage = 2 ∧ d.ten.ownerKey = s.dev.island.ownerKey ∧
      d.ten.tenantKeys = s.dev.island.tenantKeys ∧
      d.island.config = s.dev.island.board.getD s.dev.island.config ∧ d.ten.contextKey.isSome = true ∧
      (∀ t, t < 16 → (d.ten.journalKeys.get? t).isSome = true) ∧ d.host.beatFrom = some s.dev.now ∧
      ∀ u ∈ s.dev.island.service, u < 144 → (d.svcUnit u).state = .failed) ∧
  (∀ s : State, s.On → s.dev.boot.stage = 2 →
    Runs .firmwareReady s fun d => d.mbx.fwReady = true ∧ d.boot.stage = 3 ∧ d.host.configOpen = true ∧
      d.host.subsystemId = Config.subsystem ∧ d.cipher.flashEpoch = s.dev.island.epoch) ∧
  (∀ s : State, s.On → s.dev.boot.stage = 3 → s.dev.boot.ready = false → s.dev.dram.enabled = true →
    (∀ o ∈ s.dev.boot.ops, o.op ≠ 3) →
    Runs .sleevesEnable s fun d => d.boot.ready = true ∧ ∀ k, k < 7 → (d.sleeve k).enabled = true)

/-- 20: units in and out of service, and ejection (R484 to R489, R491, R496, R497, R499). -/
def Obligations.ServiceCommandsRun : Prop :=
  (∀ (o : SvcOp) (os : List SvcOp) (s : State), s.On → s.dev.boot.ops = o :: os → o.op = 3 → s.dev.boot.ready = true →
    Runs (.svcTestDone true) s fun d => d.svcUnit (svcKey o.kind o.unit) = { state := .outOfService, lastTest := 1 } ∧
      d.boot.ops = os ∧ d.ports = s.dev.ports ∧ d.hem = s.dev.hem) ∧
  (∀ (o : SvcOp) (os : List SvcOp) (s : State), s.On → s.dev.boot.ops = o :: os → o.op = 3 →
    Runs (.svcTestDone false) s fun d => d.svcUnit (svcKey o.kind o.unit) = { state := .failed, lastTest := 2 } ∧
      d.boot.ops = os) ∧
  (∀ (o : SvcOp) (os : List SvcOp) (s : State), s.On → s.dev.boot.ops = o :: os → o.kind = 1 → o.op = 1 →
    s.dev.drained o.unit = true → s.dev.isSpare o.unit = true →
    Runs .svcOutOfServiceDone s fun d => (d.svcUnit o.unit).state = .outOfService ∧ d.boot.ops = os) ∧
  (∀ (o : SvcOp) (os : List SvcOp) (s : State), s.On → s.dev.boot.ops = o :: os → o.op = 1 → o.deadline ≤ s.dev.now →
    Runs .svcDeadline s fun d => d.boot.ops = os ∧ d.boot.units = s.dev.boot.units) ∧
  (∀ (o : SvcOp) (os : List SvcOp) (q : Nat) (s : State), s.On → s.dev.mbx.spare = some q → s.dev.boot.ops = o :: os →
    o.kind = 2 → o.op = 1 →
    Runs .coreHandoverDone s fun d => (d.svcUnit (16 + o.unit)).state = .outOfService ∧ d.mbx.spare = none ∧
      d.boot.ops = os ∧ (∀ k, k < 4 → s.dev.coreOf k = o.unit → k ∉ s.dev.mbx.absent → d.coreOf k = q) ∧
      ∀ k, s.dev.coreOf k ≠ o.unit → d.coreOf k = s.dev.coreOf k) ∧
  (∀ (h : Hdr) (r : SvcUnitRec) (s : State) (x : Session),
    s.Serves { code := 0x1401, lenOk := exactly 8, maxBody := 0 } h x → s.Hears h →
    firstFail (svcUnitChecks (x.sends h) s.dev r) = none → r.op = 2 →
    Runs (.svcUnitSet h r) s fun d => d.Replied h .ok [] ∧ (d.svcUnit (svcKey r.kind r.unit)).state = .inService) ∧
  (∀ (h : Hdr) (r : SvcUnitRec) (s : State) (x : Session),
    s.Serves { code := 0x1401, lenOk := exactly 8, maxBody := 0 } h x →
    firstFail (svcUnitChecks (x.sends h) s.dev r) = none → r.op = 1 → r.kind ≠ 4 →
    Runs (.svcUnitSet h r) s fun d => d.boot.units = s.dev.boot.units ∧ ∃ o, d.boot.ops = s.dev.boot.ops ++ [o] ∧
      o.kind = r.kind ∧ o.unit = r.unit ∧ o.op = 1 ∧ o.deadline = s.dev.now + r.deadlineMs * cyclesPerMs) ∧
  (∀ (h : Hdr) (r : SvcTestRec) (s : State) (x : Session),
    s.Serves { code := 0x1402, lenOk := exactly 4, maxBody := 0 } h x → s.Hears h →
    firstFail (svcTestChecks (x.sends h) s.dev r) = none →
    Runs (.svcTest h r) s fun d => d.Replied h .ok [] ∧ (d.svcUnit (svcKey r.kind r.unit)).state = .testing) ∧
  (∀ (h : Hdr) (s : State) (x : Session),
    s.Serves { code := 0x1403, lenOk := exactly 0, maxBody := 2048, changes := false } h x → s.Hears h →
    x.role ≠ .tenant →
    Runs (.svcStatusGet h) s fun d => d.data = s.dev.data ∧ d.Replied h .ok
      ((List.range 7 ++ (List.range 5).map (16 + ·) ++ (List.range 112).map (32 + ·)).map
        (fun u => s.dev.svcCode u + 256 * (s.dev.svcUnit u).lastTest) ++
        (List.range 6).map fun p => (s.dev.chan p).state.svcCode)) ∧
  (∀ s : State, s.On → s.dev.boot.eject = .idle → s.dev.boot.ejectMode = 0 → s.dev.boot.ready = true →
    Runs .ejectRequest s fun d => d.boot = { s.dev.boot with
        ejectReqLow := true, eject := .requested, ejectAt := s.dev.now } ∧ d.ports = s.dev.ports) ∧
  (∀ s : State, s.On → (s.dev.boot.eject = .requested ∨ s.dev.boot.eject = .held) →
    Runs .ejectCancel s fun d => d.boot.eject = .idle ∧ d.boot.ejectReqLow = false ∧ d.ports = s.dev.ports) ∧
  (∀ s : State, s.On → s.dev.boot.eject = .requested → s.dev.ejectWaits = false →
    s.dev.boot.ejectAt + s.dev.boot.ejectGrace * cyclesPerMs ≤ s.dev.now →
    Runs .ejectGraceExpiry s fun d => d.boot.eject = .proceeding ∧ d.boot.ejectAt = s.dev.now ∧
      (∀ p, p < 96 → (d.port p).cfg.mode = 0) ∧
      ∀ t c, t < 16 → d.lining.captures.get? t = some c → c.going = false) ∧
  (∀ (r : FlashReq) (n : Nat) (s : State), s.On → s.dev.boot.eject = .proceeding →
    s.dev.boot.ejectAt + 100 * cyclesPerMs ≤ s.dev.now → s.dev.island.waiting = [r] → r.recheckAt.isSome = true →
    r.use = .bootEpoch n →
    Runs .ejectFlashAbandon s fun d => d.island.waiting = [] ∧ d.island.busy = s.dev.island.busy) ∧
  (∀ s : State, s.On → s.dev.boot.eject = .proceeding → s.dev.island.busy = none → s.dev.island.waiting = [] →
    Runs .ejectReady s fun d => d.boot.eject = .ready ∧ d.boot.ejectRdyLow = true ∧
      ∀ p, (d.chan p).state ≠ .active) ∧
  (∀ (h : Hdr) (r : EjectConfigRec) (s : State) (x : Session),
    s.Serves { code := 0x1408, lenOk := exactly 4, maxBody := 0 } h x → s.Hears h → x.role = .owner → r.mode = 0 →
    r.graceMs ≤ 60000 →
    Runs (.ejectConfigSet h r) s fun d => d.Replied h .ok [] ∧
      d.boot = { s.dev.boot with ejectMode := 0, ejectGrace := r.graceMs }) ∧
  (∀ (h : Hdr) (s : State) (x : Session),
    s.Serves { code := 0x1409, lenOk := exactly 1, maxBody := 0 } h x → s.Hears h → x.role = .owner →
    s.dev.boot.eject = .requested →
    Runs (.svcEject h 2) s fun d => d.Replied h .ok [] ∧ d.boot = { s.dev.boot with eject := .held, ejectGo := false })

/-- 20: firmware images stored, started and committed, and patches (R492 to R495, R499). -/
def Obligations.FirmwareCommandsRun : Prop :=
  (∀ (h : Hdr) (r : FwStoreRec) (s : State) (x : Session),
    s.Serves { code := 0x1404, lenOk := exactly 16, maxBody := 0 } h x →
    firstFail (fwStoreChecks (x.sends h) s.dev r) = none → s.dev.mayRequest h.fn = true → s.dev.host.reads = [] →
    s.dev.host.quarantine = [] →
    Runs (.fwStore h r) s fun d => d.island = s.dev.island ∧ ∃ q tok, d.host.reads = [q] ∧ q.fn = h.fn ∧
      q.use = .message tok (.fwStore r) ∧ tok.seq = h.seq) ∧
  (∀ (w : FwStoring) (s : State), s.On → s.dev.boot.storing = some w → s.dev.island.waiting = [] →
    s.dev.island.busy = none → w.area ≠ 3 →
    Runs (.fwStoreComplete true) s fun d => d.boot.storing = none ∧ d.island.images.get? w.area = some w.image ∧
      ∀ a, a ≠ w.area → d.island.images.get? a = s.dev.island.images.get? a) ∧
  (∀ (w : FwStoring) (s : State), s.On → s.dev.boot.storing = some w → s.dev.island.waiting = [] →
    s.dev.island.busy = none →
    Runs (.fwStoreComplete false) s fun d => d.boot.storing = none ∧ d.island = s.dev.island) ∧
  (∀ (h : Hdr) (g a : Nat) (i : FwImage) (s : State) (x : Session),
    s.Serves { code := 0x1405, lenOk := exactly 48, maxBody := 0 } h x → x.role = .owner → h.session ≠ 0 →
    s.dev.inactiveArea g = some a → s.dev.island.images.get? a = some i → s.dev.imageOk 1 i = true →
    i.handoverOk = true → s.dev.boot.ready = true → s.dev.fwBusy = false →
    Runs (.fwSwitch h g) s fun d => d.boot.running = s.dev.boot.running ∧ ∃ w, d.boot.switching = some w ∧
      w.image = i ∧ w.area = a ∧ w.stopped = false ∧ w.token.seq = h.seq) ∧
  (∀ (w : FwSwitching) (s : State), s.On → s.dev.boot.switching = some w → w.stopped = false →
    Runs .fwSwitchLoaded s fun d => d.boot = { s.dev.boot with
        switching := some { w with stopped := true, at4 := s.dev.now } } ∧ (∀ k, d.coreUp k = false) ∧
      d.ports = s.dev.ports) ∧
  (∀ (w : FwSwitching) (s : State), s.On → s.dev.boot.switching = some w → w.stopped = true →
    s.dev.boot.eject = .idle →
    Runs .fwSwitchResume s fun d => d.boot = { s.dev.boot with
        switching := none, running := some w.image, runningArea := some w.area, bank := 1 - s.dev.boot.bank } ∧ d.island = s.dev.island ∧ d.ports = s.dev.ports ∧
      d.hem = s.dev.hem) ∧
  (∀ (w : FwSwitching) (s : State), s.On → s.dev.boot.switching = some w → w.stopped = true →
    w.at4 + 200 * cyclesPerMs ≤ s.dev.now → s.dev.boot.eject = .idle →
    Runs .fwSwitchTimeout s fun d => d.boot = { s.dev.boot with switching := none } ∧ d.ports = s.dev.ports) ∧
  (∀ (h : Hdr) (g a : Nat) (i : FwImage) (s : State) (x : Session),
    s.Serves { code := 0x1406, lenOk := exactly 48, maxBody := 0 } h x → x.role = .owner → h.session ≠ 0 →
    s.dev.boot.running = some i → i.digest = g → s.dev.imageOk 1 i = true → s.dev.boot.runningArea = some a →
    s.dev.island.images.get? a = some i → s.dev.boot.ready = true →
    Runs (.fwCommit h g) s fun d => d.island.dir0 = s.dev.island.dir0 ∧ d.island.dir1 = s.dev.island.dir1 ∧
      ∃ q ∈ d.island.waiting, ∃ c b tok, q.use = .directory c b (some tok) ∧ b.valid = true ∧ b.active = a ∧
        tok.seq = h.seq) ∧
  (∀ (h : Hdr) (g : Nat) (i : FwImage) (s : State) (x : Session),
    s.Serves { code := 0x1407, lenOk := exactly 48, maxBody := 0 } h x → s.Hears h → x.role = .owner →
    h.session ≠ 0 → s.dev.island.images.get? 2 = some i → i.digest = g → s.dev.imageOk 2 i = true → i.mixedOk = true →
    s.dev.boot.ready = true → s.dev.fwBusy = false →
    Runs (.patchRoll h g) s fun d => d.Replied h .ok [] ∧ ∃ w, d.boot.rolling = some w ∧ w.digest = g ∧
      (∀ k, k ∈ w.left ↔ k < 7 ∧ (s.dev.sleeve k).enabled = true) ∧
      ∀ k, (List.range 7).find? s.dev.isSpare = some k → w.left.head? = some k) ∧
  (∀ (t : Nat) (ts : List Nat) (g : Nat) (s : State), s.On → s.dev.boot.rolling = some { digest := g, left := t :: ts } →
    t < 7 → s.dev.serving t = false → s.dev.drained t = true → s.dev.svcBusy 1 t = false → s.dev.boot.eject = .idle →
    Runs (.patchRollSleeveDone true) s fun d => d.boot.patches.get? t = some g ∧ (d.svcUnit t).lastTest = 1 ∧
      (d.svcUnit t).state ≠ .failed ∧
      d.boot.rolling = if ts = [] then none else some { digest := g, left := ts })

/-- 21: clocks, the regulator's alert, the SMBus target and JTAG (R402, R513, R515 to R518). -/
def Obligations.BoardCommandsRun : Prop :=
  (∀ s : State, s.dev.power ≠ .reset → Runs .refclkStop s fun d => d.power = .undefined) ∧
  (∀ (g l : Nat) (s : State), s.On → g < 6 → 16 * g ≤ l → l < 16 * g + 16 →
    Runs (.srdRefclkLoss g) s fun d => ∀ k : LockKind, (d.lane l).hasLock k = false) ∧
  (∀ s : State, s.On → s.Settled →
    Runs .pmbusAlert s fun d => d = { s.dev with gus := { s.dev.gus with requested := true, attempts := 1 } }) ∧
  (∀ s : State, s.On → s.Settled → s.dev.board.sampledAt + 300000 ≤ s.dev.now →
    Runs .smbusSampleUpdate s fun d => d.board.sample = s.dev.smbNow ∧ d.board.sampledAt = s.dev.now ∧
      d.board.alert = (s.dev.board.alert || alerts s.dev.board.sample s.dev.smbNow)) ∧
  (∀ s : State, s.Settled → (s.dev.power = .on ∨ s.dev.power = .shutdown) →
    Runs .smbusTj s (fun d => d = { s.dev with board := { s.dev.board with
      reply := .word (s.dev.board.sample.tj % 2 ^ 16).toNat } }) ∧
    Runs .smbusStage s (fun d => d = { s.dev with board := { s.dev.board with
      reply := .byte s.dev.board.sample.stage } }) ∧
    Runs .smbusFlags s (fun d => d = { s.dev with board := { s.dev.board with
      reply := .byte s.dev.board.sample.flags } }) ∧
    Runs .smbusCoreMv s (fun d => d = { s.dev with board := { s.dev.board with
      reply := .word s.dev.board.sample.coreMv } }) ∧
    Runs .smbusEom s (fun d => d = { s.dev with board := { s.dev.board with
      reply := .word s.dev.board.sample.eom } }) ∧
    Runs .smbusSensors s (fun d => d = { s.dev with board := { s.dev.board with
      reply := .block s.dev.board.sample.sensors } }) ∧
    Runs .smbusWriteNack s (fun d => d = { s.dev with board := { s.dev.board with reply := .nack } }) ∧
    Runs .smbusAlertResponse s (fun d => d.board.alert = false ∧
      d.board.reply = if s.dev.board.alert = true then .byte 0x5A else .nack)) ∧
  (∀ (j : Jtag) (s : State), s.Settled → s.dev.power ≠ .undefined →
    Runs (.jtagInstruction j) s fun d => (j = .idcode → d.board.jtagData = some 0x19600D4B) ∧
      (s.dev.debugLocked = true → (∀ c, j = .other c → d.board.jtag = .bypass)) ∧
      (s.dev.debugLocked = false → d.board.jtag = j))

/-- A step runs the command at the front of the queue on the state with the queue's rest; on an empty queue the block
idles, which is the model's choice (log entry 1). -/
def Obligations.StepRunsTheFrontCommand : Prop :=
  (∀ (c : Instr) (cs : List Instr) (s : State), s.pending = c :: cs → step s = exec c { s with pending := cs }) ∧
  (∀ s : State, s.pending = [] → step s = .next s)

/-- Power (R475, R513, R514): no command is refused; a device in an undefined state faults on every command but the
resets and those of the persistent-store island; a device in reset or shut down takes only the commands of `atRest` and
`alwaysTakes` and leaves every other without effect; and no command touches the commands that wait. -/
def Obligations.CommandsObeyThePowerState : Prop :=
  (∀ (c : Instr) (s : State) (r : Refusal), exec c s ≠ .refused r) ∧
  (∀ (c : Instr) (s : State), s.dev.power = .undefined → alwaysTakes c = false →
    exec c s = .fault .undefinedUntilReset) ∧
  (∀ (c : Instr) (s : State), s.dev.power ≠ .undefined ∨ alwaysTakes c = true →
    ∃ t, exec c s = .next t ∧ t.pending = s.pending) ∧
  (∀ (c : Instr) (s : State), s.dev.power = .reset ∨ s.dev.power = .shutdown → atRest c = false →
    alwaysTakes c = false → exec c s = .next s)

/-- Every event is delivered, held or counted in the step that raised it (R421 to R423): if none waits before a step,
none waits after it. -/
def Obligations.EveryStepSettles : Prop :=
  (∀ s t : State, s.Settled → step s = .next t → t.Settled) ∧
  (∀ (c : Instr) (s t : State), s.Settled → exec c s = .next t → t.Settled)

/-- What the spec gives a register, a FIFO or a table after a fundamental reset (R32, R43, R71, R90, R150, R170, R197,
R253, R279, R333, R377, R405, R435, R457, R472, R500). -/
def Obligations.ResetIsAsTheSpecStates : Prop :=
  (State.reset.pending = [] ∧ State.reset.Settled ∧ State.reset.On ∧ ∀ c a b, State.reset.dev.ctr c a b = 0) ∧
  (∀ k, k < 7 → ((State.reset.dev.sleeve k).enabled = false ∧ (State.reset.dev.sleeve k).updates = [])) ∧
  (∀ c, c < 24 → (State.reset.dev.cuff c).sleeve = c / 4 ∧ (State.reset.dev.cuff c).slices = []) ∧
  (State.reset.dev.hem.acc = 0 ∧ State.reset.dev.hem.stepGen = 0 ∧ State.reset.dev.hem.utcOffset = 0 ∧
    State.reset.dev.hem.mode = .freerun ∧ State.reset.dev.hem.incr = hemBase ∧ State.reset.dev.hem.clockClass = 248 ∧
    State.reset.dev.hem.io.source = 0 ∧ State.reset.dev.hem.ppsOut = false) ∧
  (∀ p, p < 96 → (State.reset.dev.port p).cfg.mode = 0 ∧ (State.reset.dev.port p).link = .disabled ∧
    (State.reset.dev.ten.ports.get? p) = none) ∧
  (∀ i, State.reset.dev.tables.flow.get? i = none ∧ State.reset.dev.tables.learn.get? i = none ∧
    State.reset.dev.tcam.entries.get? i = none ∧ State.reset.dev.vers.actions.get? i = none ∧
    State.reset.dev.meter.bindings.get? i = none ∧ State.reset.dev.rel.profiles.get? i = none ∧
    State.reset.dev.parse.patterns.get? i = none) ∧
  ((State.reset.dev.vslot 0) = { state := .current, epoch := 0 } ∧
    (∀ v, 1 ≤ v → v < 4 → (State.reset.dev.vslot v).state = .free) ∧ State.reset.dev.current = 0 ∧
    State.reset.dev.vers.staged = [] ∧ State.reset.dev.vers.journal = [] ∧ State.reset.dev.vers.commits = []) ∧
  (∀ k u, (State.reset.dev.unit k u).tenancy = none ∧ (State.reset.dev.unit k u).epoch = 0) ∧
  State.reset.dev.ten.counter = 1 ∧ State.reset.dev.ten.debugUnlocked = false ∧
  (∀ f, (State.reset.dev.mbox f).req.enabled = false ∧ (State.reset.dev.mbox f).rsp.enabled = false ∧
    (State.reset.dev.mbox f).rx.enabled = false ∧ (∀ k, State.reset.dev.session f k = none) ∧
    (State.reset.dev.mbox f).zero.highest = 0 ∧ (State.reset.dev.mbox f).zero.rspSeq = 0) ∧
  (State.reset.dev.mbx.spare = some 4 ∧ State.reset.dev.mbx.absent = [] ∧ State.reset.dev.mbx.fwReady = false) ∧
  (State.reset.dev.host.vfEnable = false ∧ State.reset.dev.host.numVfs = 0 ∧ State.reset.dev.host.reads = [] ∧
    State.reset.dev.host.quarantine = [] ∧ ∀ f, State.reset.dev.fnExists f = decide (f < 2)) ∧
  (State.reset.dev.gus.mv = 750 ∧ State.reset.dev.boot.ejectGrace = 5000 ∧ State.reset.dev.boot.eject = .idle ∧
    State.reset.dev.boot.ops = [])

/-- The sequence window of a session (R415). -/
def Obligations.SequenceWindow : Prop :=
  (∀ (d : Dev) (r : SessionOpenRec) (x : Hello), (newSession d r x).highest = 0 ∧ (newSession d r x).seen = []) ∧
  (∀ (x : Session) (n : Nat), x.accepts n = true ↔
    n ≠ 0 ∧ (x.highest < n ∨ (x.highest < n + 64 ∧ n ≤ x.highest ∧ n ∉ x.seen))) ∧
  (∀ (x : Session) (n m : Nat), (x.accept n).highest = max x.highest n ∧
    (m ∈ (x.accept n).seen ↔ (m = n ∨ m ∈ x.seen) ∧ max x.highest n < m + 64)) ∧
  (∀ (o : OpSpec) (h : Hdr) (act : Sender → Dev → Reply × Dev) (s : State) (x : Session),
    s.Starts o h → s.Hears h → s.dev.session h.fn h.session = some x → sealGood h → x.accepts h.seq = false →
    ∃ t y, runMessage o h act s = .next t ∧ t.pending = s.pending ∧ t.dev.Replied h .badSequence [] ∧
      t.dev.data = s.dev.data ∧ t.dev.session h.fn h.session = some y ∧ y.highest = x.highest ∧ y.seen = x.seen) ∧
  (∀ (o : OpSpec) (h : Hdr) (act : Sender → Dev → Reply × Dev) (s : State) (x : Session),
    s.Starts o h → s.Hears h → s.dev.session h.fn h.session = some x → ¬ sealGood h →
    ∃ t y, runMessage o h act s = .next t ∧ t.pending = s.pending ∧ t.dev.Replied h .badSeal [] ∧
      t.dev.data = s.dev.data ∧ t.dev.session h.fn h.session = some y ∧ y.highest = x.highest ∧ y.seen = x.seen) ∧
  (∀ (o : OpSpec) (h : Hdr) (act : Sender → Dev → Reply × Dev) (s : State) (x : Session),
    s.Starts o h → s.Hears h → s.dev.session h.fn h.session = some x → sealGood h → x.accepts h.seq = true →
    (∀ w d, (act w d).2.mbx = d.mbx ∧ ∃ st n body, (act w d).1 = .done st n body) →
    ∃ t y, runMessage o h act s = .next t ∧ t.dev.session h.fn h.session = some y ∧
      y.highest = (x.accept h.seq).highest ∧ y.seen = (x.accept h.seq).seen)

/-- Rings and their enables (R408). -/
def Obligations.RingsFollowTheirEnables : Prop :=
  (∀ (f v : Nat) (s : State), s.On → s.Settled → s.dev.fnExists f = true →
    Runs (.registerWrite f .reqBase v) s (fun d => (d.mbox f).req = if (s.dev.mbox f).req.enabled then
      (s.dev.mbox f).req else { (s.dev.mbox f).req with base := v % 2 ^ 64 / 4096 * 4096 }) ∧
    Runs (.registerWrite f .reqSize v) s (fun d => (d.mbox f).req = if (s.dev.mbox f).req.enabled then
      (s.dev.mbox f).req else { (s.dev.mbox f).req with size := v % 16 }) ∧
    Runs (.registerWrite f .rspBase v) s (fun d => (d.mbox f).rsp = if (s.dev.mbox f).rsp.enabled then
      (s.dev.mbox f).rsp else { (s.dev.mbox f).rsp with base := v % 2 ^ 64 / 4096 * 4096 }) ∧
    Runs (.registerWrite f .rspSize v) s (fun d => (d.mbox f).rsp = if (s.dev.mbox f).rsp.enabled then
      (s.dev.mbox f).rsp else { (s.dev.mbox f).rsp with size := v % 16 }) ∧
    Runs (.registerWrite f .rxBase v) s (fun d => (d.mbox f).rx = if (s.dev.mbox f).rx.enabled then
      (s.dev.mbox f).rx else { (s.dev.mbox f).rx with base := v % 2 ^ 64 / 4096 * 4096 }) ∧
    Runs (.registerWrite f .rxSize v) s (fun d => (d.mbox f).rx = if (s.dev.mbox f).rx.enabled then
      (s.dev.mbox f).rx else { (s.dev.mbox f).rx with size := v % 16 })) ∧
  (∀ (f : Nat) (s : State), s.On → s.Settled → s.dev.fnExists f = true → (s.dev.mbox f).req.enabled = false →
    6 ≤ (s.dev.mbox f).req.size → (s.dev.mbox f).req.size ≤ 14 →
    Runs (.reqRingEnableWrite f true) s fun d => (d.mbox f).sealed = (s.dev.mbox f).sealed ∧
      (d.mbox f).req = { (s.dev.mbox f).req with enabled := true, head := (s.dev.mbox f).req.tail } ∧
      ∃ x, d.session f 0 = some x ∧ x.highest = 0 ∧ x.seen = []) ∧
  (∀ (f : Nat) (s : State), s.On → s.Settled → s.dev.fnExists f = true → (s.dev.mbox f).rsp.enabled = false →
    6 ≤ (s.dev.mbox f).rsp.size → (s.dev.mbox f).rsp.size ≤ 14 →
    Runs (.rspRingEnableWrite f true) s fun d =>
      (∀ k, (d.session f k).map (·.serial) = (s.dev.session f k).map (·.serial)) ∧
      (d.mbox f).rsp.enabled = true ∧ (d.mbox f).rsp.head = (s.dev.mbox f).rsp.head ∧
      (d.mbox f).rsp.tail % 2 ^ 32 =
        ((s.dev.mbox f).rsp.head + ((d.mbox f).entries.map (·.slots)).sum) % 2 ^ 32 ∧
      ((d.mbox f).entries = [] → (d.mbox f).rsp.tail = (s.dev.mbox f).rsp.head)) ∧
  (∀ (f : Nat) (s : State), s.On → s.Settled → s.dev.fnExists f = true → (s.dev.mbox f).rx.enabled = false →
    6 ≤ (s.dev.mbox f).rx.size → (s.dev.mbox f).rx.size ≤ 16 →
    Runs (.rxRingEnableWrite f true) s fun d => (∀ k, d.session f k = s.dev.session f k) ∧
      (d.mbox f).rx = { (s.dev.mbox f).rx with enabled := true, tail := (s.dev.mbox f).rx.head }) ∧
  (∀ (f : Nat) (s : State), s.On → s.Settled → s.dev.fnExists f = true →
    Runs (.reqRingEnableWrite f false) s fun d => (d.mbox f).req.enabled = false ∧
      (d.mbox f).sealed = (s.dev.mbox f).sealed)

/-- A request that fails a check before its opcode's own rules is answered with that status and changes nothing in the
data path (R417, R393, R481), whatever its opcode does; one that cannot start waits; and a request framed wrongly stops
its ring and has no response. -/
def Obligations.RejectedRequestsChangeNothing : Prop :=
  (∀ (o : OpSpec) (h : Hdr) (act : Sender → Dev → Reply × Dev) (s : State) (st : Status) (known : Bool),
    s.Starts o h → s.Hears h → envelope o h s.dev = some (st, known) →
    ∃ t, runMessage o h act s = .next t ∧ t.pending = s.pending ∧ t.dev.Replied h st [] ∧ t.dev.data = s.dev.data) ∧
  (∀ (o : OpSpec) (h : Hdr) (act : Sender → Dev → Reply × Dev) (s : State) (x : Session),
    s.Starts o h → s.Hears h → envelope o h s.dev = none → s.dev.session h.fn h.session = some x →
    (o.canAsync = true → h.flags.testBit 0 = true → (s.dev.mbox h.fn).asyncs.length < 32) →
    (x.role = .maint ∧ o.changes = true) ∨ (o.early = false ∧ s.dev.boot.ready = false) →
    ∃ t, runMessage o h act s = .next t ∧ t.pending = s.pending ∧ t.dev.data = s.dev.data ∧
      t.dev.Replied h (if x.role = .maint ∧ o.changes = true then .notPermitted else .badState) []) ∧
  (∀ (o : OpSpec) (h : Hdr) (act : Sender → Dev → Reply × Dev) (s : State) (x : Session),
    s.Starts o h → s.Hears h → envelope o h s.dev = none → s.dev.session h.fn h.session = some x →
    o.canAsync = true → h.flags.testBit 0 = true → 32 ≤ (s.dev.mbox h.fn).asyncs.length →
    ∃ t, runMessage o h act s = .next t ∧ t.pending = s.pending ∧ t.dev.data = s.dev.data ∧
      t.dev.Replied h .slotBusy []) ∧
  (∀ (o : OpSpec) (h : Hdr) (act : Sender → Dev → Reply × Dev) (s : State), s.On → s.Settled →
    s.dev.romHolds h = false → (h.boot = true ∨ (s.dev.mbox h.fn).unknown = []) → s.dev.canStart o h = false →
    runMessage o h act s = .next s) ∧
  (∀ (o : OpSpec) (h : Hdr) (act : Sender → Dev → Reply × Dev) (s : State), s.On → h.boot = false →
    (s.dev.mbox h.fn).unknown = [] → s.dev.canStart o h = true → misframed h (s.dev.mbox h.fn) = true →
    ∃ t, runMessage o h act s = .next t ∧ t.pending = s.pending ∧ t.dev.data = s.dev.data ∧
      (t.dev.mbox h.fn).reqError = true ∧ (t.dev.mbox h.fn).halted = true ∧
      (t.dev.mbox h.fn).req.head = (s.dev.mbox h.fn).req.head ∧
      ∀ e ∈ (t.dev.mbox h.fn).entries, e ∈ (s.dev.mbox h.fn).entries ∨ e.flags.testBit 3 = true)

/-- The version slots stay legal (R172): reset leaves them so, and every command that moves a slot from one state to
another keeps them so. -/
def Obligations.SlotStatesStayLegal : Prop :=
  State.reset.dev.slotsLegal ∧
  (∀ s : State, s.On → s.dev.slotsLegal → Runs .preparationStart s Dev.slotsLegal) ∧
  (∀ s : State, s.On → s.dev.slotsLegal → Runs .preparationComplete s Dev.slotsLegal) ∧
  (∀ s : State, s.On → s.dev.slotsLegal → Runs .commitCycle s Dev.slotsLegal) ∧
  (∀ (v : Nat) (s : State), s.On → s.dev.slotsLegal → Runs (.slotDrainComplete v) s Dev.slotsLegal) ∧
  (∀ (r : Nat) (s : State), s.On → s.dev.slotsLegal → Runs (.resScrubCommit r) s Dev.slotsLegal) ∧
  (∀ s : State, s.On → s.dev.slotsLegal → Runs .sleevesEnable s Dev.slotsLegal)
end

