-- ==== Sys2Proof/Laws/Dispatch.lean ====
section
/-! SUPPORT. One equation per arm of the dispatch, so that no proof unfolds the whole of it. -/

namespace Sys2Proof.Machine

theorem exec_frameRxStart (port : Nat) (fid : Nat) (lag : Nat) (bytes : List Nat) (s : State) : exec (.frameRxStart port fid lag bytes) s = execFrameRxStart port fid lag bytes s := rfl
theorem exec_tenancyMapLookup (fid : Nat) (s : State) : exec (.tenancyMapLookup fid) s = execTenancyMapLookup fid s := rfl
theorem exec_rxNextPocket (fid : Nat) (s : State) : exec (.rxNextPocket fid) s = execRxNextPocket fid s := rfl
theorem exec_sliceOffer (fid : Nat) (s : State) : exec (.sliceOffer fid) s = execSliceOffer fid s := rfl
theorem exec_frameRxEnd (fid : Nat) (fcsOk : Bool) (s : State) : exec (.frameRxEnd fid fcsOk) s = execFrameRxEnd fid fcsOk s := rfl
theorem exec_macsecRxVerify (fid : Nat) (s : State) : exec (.macsecRxVerify fid) s = execMacsecRxVerify fid s := rfl
theorem exec_macsecRxDeliver (fid : Nat) (s : State) : exec (.macsecRxDeliver fid) s = execMacsecRxDeliver fid s := rfl
theorem exec_fecCodewordDecode (lane : Nat) (result : FecResult) (s : State) : exec (.fecCodewordDecode lane result) s = execFecCodewordDecode lane result s := rfl
theorem exec_slotGrant (sleeve : Nat) (work : List SlotWork) (s : State) : exec (.slotGrant sleeve work) s = execSlotGrant sleeve work s := rfl
theorem exec_parse (fid : Nat) (s : State) : exec (.parse fid) s = execParse fid s := rfl
theorem exec_payloadPatternMatch (fid : Nat) (s : State) : exec (.payloadPatternMatch fid) s = execPayloadPatternMatch fid s := rfl
theorem exec_fragmentLookup (fid : Nat) (s : State) : exec (.fragmentLookup fid) s = execFragmentLookup fid s := rfl
theorem exec_fragmentWriteBack (fid : Nat) (s : State) : exec (.fragmentWriteBack fid) s = execFragmentWriteBack fid s := rfl
theorem exec_fragSweepVisit (sleeve : Nat) (s : State) : exec (.fragSweepVisit sleeve) s = execFragSweepVisit sleeve s := rfl
theorem exec_flowKeyBuild (fid : Nat) (s : State) : exec (.flowKeyBuild fid) s = execFlowKeyBuild fid s := rfl
theorem exec_flowLookup (fid : Nat) (ecc : Ecc) (s : State) : exec (.flowLookup fid ecc) s = execFlowLookup fid ecc s := rfl
theorem exec_learnLookup (fid : Nat) (ecc : Ecc) (s : State) : exec (.learnLookup fid ecc) s = execLearnLookup fid ecc s := rfl
theorem exec_tcamSearch (fid : Nat) (spurious : List Nat) (missed : List Nat) (s : State) : exec (.tcamSearch fid spurious missed) s = execTcamSearch fid spurious missed s := rfl
theorem exec_meterAccess (fid : Nat) (ecc : Ecc) (s : State) : exec (.meterAccess fid ecc) s = execMeterAccess fid ecc s := rfl
theorem exec_colourAction (fid : Nat) (s : State) : exec (.colourAction fid) s = execColourAction fid s := rfl
theorem exec_actionSelect (fid : Nat) (s : State) : exec (.actionSelect fid) s = execActionSelect fid s := rfl
theorem exec_forwardResolve (fid : Nat) (s : State) : exec (.forwardResolve fid) s = execForwardResolve fid s := rfl
theorem exec_ttlCopyMirror (fid : Nat) (s : State) : exec (.ttlCopyMirror fid) s = execTtlCopyMirror fid s := rfl
theorem exec_rewriteCompile (fid : Nat) (s : State) : exec (.rewriteCompile fid) s = execRewriteCompile fid s := rfl
theorem exec_releaseClassify (fid : Nat) (s : State) : exec (.releaseClassify fid) s = execReleaseClassify fid s := rfl
theorem exec_enqueueDecision (fid : Nat) (s : State) : exec (.enqueueDecision fid) s = execEnqueueDecision fid s := rfl
theorem exec_egressHandoff (fid : Nat) (s : State) : exec (.egressHandoff fid) s = execEgressHandoff fid s := rfl
theorem exec_seamClaim (port : Nat) (s : State) : exec (.seamClaim port) s = execSeamClaim port s := rfl
theorem exec_seamLaunch (port : Nat) (s : State) : exec (.seamLaunch port) s = execSeamLaunch port s := rfl
theorem exec_enqueue (fid : Nat) (s : State) : exec (.enqueue fid) s = execEnqueue fid s := rfl
theorem exec_copyMirrorRead (fid : Nat) (served : Bool) (s : State) : exec (.copyMirrorRead fid served) s = execCopyMirrorRead fid served s := rfl
theorem exec_rxRingCopyWrite (fn : Nat) (s : State) : exec (.rxRingCopyWrite fn) s = execRxRingCopyWrite fn s := rfl
theorem exec_spillWriteDone (fid : Nat) (s : State) : exec (.spillWriteDone fid) s = execSpillWriteDone fid s := rfl
theorem exec_spillReturn (port : Nat) (queue : Nat) (s : State) : exec (.spillReturn port queue) s = execSpillReturn port queue s := rfl
theorem exec_spillReturnRetry (port : Nat) (queue : Nat) (s : State) : exec (.spillReturnRetry port queue) s = execSpillReturnRetry port queue s := rfl
theorem exec_calendarRelease (port : Nat) (s : State) : exec (.calendarRelease port) s = execCalendarRelease port s := rfl
theorem exec_schedulerSelect (port : Nat) (s : State) : exec (.schedulerSelect port) s = execSchedulerSelect port s := rfl
theorem exec_frameTxStart (port : Nat) (ecc : Ecc) (s : State) : exec (.frameTxStart port ecc) s = execFrameTxStart port ecc s := rfl
theorem exec_frameTxEnd (port : Nat) (s : State) : exec (.frameTxEnd port) s = execFrameTxEnd port s := rfl
theorem exec_cachePrefetch (unit : Nat) (pool : Nat) (s : State) : exec (.cachePrefetch unit pool) s = execCachePrefetch unit pool s := rfl
theorem exec_cacheIdleReturn (unit : Nat) (s : State) : exec (.cacheIdleReturn unit) s = execCacheIdleReturn unit s := rfl
theorem exec_cacheLowWaterReturn (pool : Nat) (s : State) : exec (.cacheLowWaterReturn pool) s = execCacheLowWaterReturn pool s := rfl
theorem exec_sojournCheck (port : Nat) (s : State) : exec (.sojournCheck port) s = execSojournCheck port s := rfl
theorem exec_linkDownFlush (port : Nat) (s : State) : exec (.linkDownFlush port) s = execLinkDownFlush port s := rfl
theorem exec_linkHoldExpiry (port : Nat) (s : State) : exec (.linkHoldExpiry port) s = execLinkHoldExpiry port s := rfl
theorem exec_laneLockAcquire (lane : Nat) (kind : LockKind) (s : State) : exec (.laneLockAcquire lane kind) s = execLaneLockAcquire lane kind s := rfl
theorem exec_laneLockLoss (lane : Nat) (kind : LockKind) (s : State) : exec (.laneLockLoss lane kind) s = execLaneLockLoss lane kind s := rfl
theorem exec_synceResume (out : Nat) (s : State) : exec (.synceResume out) s = execSynceResume out s := rfl
theorem exec_remoteFaultRx (port : Nat) (present : Bool) (s : State) : exec (.remoteFaultRx port present) s = execRemoteFaultRx port present s := rfl
theorem exec_downHoldExpiry (port : Nat) (s : State) : exec (.downHoldExpiry port) s = execDownHoldExpiry port s := rfl
theorem exec_anResolved (port : Nat) (mode : Nat) (fec : Nat) (s : State) : exec (.anResolved port mode fec) s = execAnResolved port mode fec s := rfl
theorem exec_trainingComplete (port : Nat) (s : State) : exec (.trainingComplete port) s = execTrainingComplete port s := rfl
theorem exec_trainingTimeout (port : Nat) (s : State) : exec (.trainingTimeout port) s = execTrainingTimeout port s := rfl
theorem exec_upHoldExpiry (port : Nat) (s : State) : exec (.upHoldExpiry port) s = execUpHoldExpiry port s := rfl
theorem exec_cuffFenceDrained (cuff : Nat) (s : State) : exec (.cuffFenceDrained cuff) s = execCuffFenceDrained cuff s := rfl
theorem exec_cuffMoveTimeout (cuff : Nat) (s : State) : exec (.cuffMoveTimeout cuff) s = execCuffMoveTimeout cuff s := rfl
theorem exec_portSettingEffect (port : Nat) (dir : Dir) (s : State) : exec (.portSettingEffect port dir) s = execPortSettingEffect port dir s := rfl
theorem exec_ptpSettingEffect (port : Nat) (dir : Dir) (s : State) : exec (.ptpSettingEffect port dir) s = execPtpSettingEffect port dir s := rfl
theorem exec_macsecSettingEffect (port : Nat) (dir : Dir) (s : State) : exec (.macsecSettingEffect port dir) s = execMacsecSettingEffect port dir s := rfl
theorem exec_tenancyLossEffect (port : Nat) (dir : Dir) (s : State) : exec (.tenancyLossEffect port dir) s = execTenancyLossEffect port dir s := rfl
theorem exec_hemTimeAdvance (cycles : Nat) (s : State) : exec (.hemTimeAdvance cycles) s = execHemTimeAdvance cycles s := rfl
theorem exec_servoUpdate (offsetNs : Int) (freqAdj : Int) (s : State) : exec (.servoUpdate offsetNs freqAdj) s = execServoUpdate offsetNs freqAdj s := rfl
theorem exec_sourceLost (source : Nat) (s : State) : exec (.sourceLost source) s = execSourceLost source s := rfl
theorem exec_sourceValid (source : Nat) (s : State) : exec (.sourceValid source) s = execSourceValid source s := rfl
theorem exec_ppsInEdge (s : State) : exec (.ppsInEdge) s = execPpsInEdge s := rfl
theorem exec_ppsInMissing (s : State) : exec (.ppsInMissing) s = execPpsInMissing s := rfl
theorem exec_ppsOutEdge (s : State) : exec (.ppsOutEdge) s = execPpsOutEdge s := rfl
theorem exec_ppsOutPulseEnd (s : State) : exec (.ppsOutPulseEnd) s = execPpsOutPulseEnd s := rfl
theorem exec_todTx (s : State) : exec (.todTx) s = execTodTx s := rfl
theorem exec_todRx (bytes : List Nat) (s : State) : exec (.todRx bytes) s = execTodRx bytes s := rfl
theorem exec_flowIdleScan (tenancy : Nat) (s : State) : exec (.flowIdleScan tenancy) s = execFlowIdleScan tenancy s := rfl
theorem exec_learnEngineTurn (sleeve : Nat) (s : State) : exec (.learnEngineTurn sleeve) s = execLearnEngineTurn sleeve s := rfl
theorem exec_learnScannerVisit (sleeve : Nat) (s : State) : exec (.learnScannerVisit sleeve) s = execLearnScannerVisit sleeve s := rfl
theorem exec_generatorReseed (s : State) : exec (.generatorReseed) s = execGeneratorReseed s := rfl
theorem exec_tcamScrubPassStart (sleeve : Nat) (differing : List Nat) (s : State) : exec (.tcamScrubPassStart sleeve differing) s = execTcamScrubPassStart sleeve differing s := rfl
theorem exec_tcamBandEval (s : State) : exec (.tcamBandEval) s = execTcamBandEval s := rfl
theorem exec_searchWindowBoundary (sleeve : Nat) (s : State) : exec (.searchWindowBoundary sleeve) s = execSearchWindowBoundary sleeve s := rfl
theorem exec_slotDrainComplete (slot : Nat) (s : State) : exec (.slotDrainComplete slot) s = execSlotDrainComplete slot s := rfl
theorem exec_preparationStart (s : State) : exec (.preparationStart) s = execPreparationStart s := rfl
theorem exec_preparationComplete (s : State) : exec (.preparationComplete) s = execPreparationComplete s := rfl
theorem exec_commitSlotReady (s : State) : exec (.commitSlotReady) s = execCommitSlotReady s := rfl
theorem exec_commitDeadline (commit : Nat) (s : State) : exec (.commitDeadline commit) s = execCommitDeadline commit s := rfl
theorem exec_journalWriteDone (ok : Bool) (s : State) : exec (.journalWriteDone ok) s = execJournalWriteDone ok s := rfl
theorem exec_commitCycle (s : State) : exec (.commitCycle) s = execCommitCycle s := rfl
theorem exec_overlayDrain (sleeve : Nat) (stage : Nat) (s : State) : exec (.overlayDrain sleeve stage) s = execOverlayDrain sleeve stage s := rfl
theorem exec_csScrubRead (sleeve : Nat) (stage : Nat) (ecc : Ecc) (s : State) : exec (.csScrubRead sleeve stage ecc) s = execCsScrubRead sleeve stage ecc s := rfl
theorem exec_csWordRepair (sleeve : Nat) (stage : Nat) (addr : Nat) (s : State) : exec (.csWordRepair sleeve stage addr) s = execCsWordRepair sleeve stage addr s := rfl
theorem exec_hookGenDrained (s : State) : exec (.hookGenDrained) s = execHookGenDrained s := rfl
theorem exec_gateEntryAdvance (port : Nat) (s : State) : exec (.gateEntryAdvance port) s = execGateEntryAdvance port s := rfl
theorem exec_gateCycleBoundary (port : Nat) (s : State) : exec (.gateCycleBoundary port) s = execGateCycleBoundary port s := rfl
theorem exec_gateConfigChange (port : Nat) (s : State) : exec (.gateConfigChange port) s = execGateConfigChange port s := rfl
theorem exec_samplerTick (port : Nat) (tenancy : Nat) (s : State) : exec (.samplerTick port tenancy) s = execSamplerTick port tenancy s := rfl
theorem exec_keyTakeEffect (slot : Nat) (s : State) : exec (.keyTakeEffect slot) s = execKeyTakeEffect slot s := rfl
theorem exec_keyEraseComplete (slot : Nat) (s : State) : exec (.keyEraseComplete slot) s = execKeyEraseComplete slot s := rfl
theorem exec_bulkJobStart (s : State) : exec (.bulkJobStart) s = execBulkJobStart s := rfl
theorem exec_bulkJobComplete (engine : Nat) (s : State) : exec (.bulkJobComplete engine) s = execBulkJobComplete engine s := rfl
theorem exec_bulkKeyChange (slot : Nat) (s : State) : exec (.bulkKeyChange slot) s = execBulkKeyChange slot s := rfl
theorem exec_bootEpochAdvance (readback : Nat) (s : State) : exec (.bootEpochAdvance readback) s = execBootEpochAdvance readback s := rfl
theorem exec_bootEpochRetry (readback : Nat) (s : State) : exec (.bootEpochRetry readback) s = execBootEpochRetry readback s := rfl
theorem exec_dramCommandIssue (channel : Nat) (s : State) : exec (.dramCommandIssue channel) s = execDramCommandIssue channel s := rfl
theorem exec_dramReadComplete (channel : Nat) (ecc : Ecc) (s : State) : exec (.dramReadComplete channel ecc) s = execDramReadComplete channel ecc s := rfl
theorem exec_dramSpareTakeover (s : State) : exec (.dramSpareTakeover) s = execDramSpareTakeover s := rfl
theorem exec_journalRecopyDone (s : State) : exec (.journalRecopyDone) s = execJournalRecopyDone s := rfl
theorem exec_dramRefreshIntervalBoundary (s : State) : exec (.dramRefreshIntervalBoundary) s = execDramRefreshIntervalBoundary s := rfl
theorem exec_dramRefreshSlot (channel : Nat) (s : State) : exec (.dramRefreshSlot channel) s = execDramRefreshSlot channel s := rfl
theorem exec_dramMr4Poll (temps : List Nat) (s : State) : exec (.dramMr4Poll temps) s = execDramMr4Poll temps s := rfl
theorem exec_dramIdleSrEntry (channel : Nat) (s : State) : exec (.dramIdleSrEntry channel) s = execDramIdleSrEntry channel s := rfl
theorem exec_dramSrExit (channel : Nat) (s : State) : exec (.dramSrExit channel) s = execDramSrExit channel s := rfl
theorem exec_dramRateChannelDone (channel : Nat) (s : State) : exec (.dramRateChannelDone channel) s = execDramRateChannelDone channel s := rfl
theorem exec_dramMigrationComplete (s : State) : exec (.dramMigrationComplete) s = execDramMigrationComplete s := rfl
theorem exec_dramSweepDone (channel : Nat) (windows : List Nat) (s : State) : exec (.dramSweepDone channel windows) s = execDramSweepDone channel windows s := rfl
theorem exec_dramSystemScrub (channel : Nat) (errors : Nat) (s : State) : exec (.dramSystemScrub channel errors) s = execDramSystemScrub channel errors s := rfl
theorem exec_dramTrainingDone (passed : List Bool) (s : State) : exec (.dramTrainingDone passed) s = execDramTrainingDone passed s := rfl
theorem exec_liningRecordWrite (tenancy : Nat) (served : Bool) (s : State) : exec (.liningRecordWrite tenancy served) s = execLiningRecordWrite tenancy served s := rfl
theorem exec_liningRingDrain (s : State) : exec (.liningRingDrain) s = execLiningRingDrain s := rfl
theorem exec_snapshotSweepDone (tenancy : Nat) (s : State) : exec (.snapshotSweepDone tenancy) s = execSnapshotSweepDone tenancy s := rfl
theorem exec_replayEpochSwitch (sleeve : Nat) (s : State) : exec (.replayEpochSwitch sleeve) s = execReplayEpochSwitch sleeve s := rfl
theorem exec_replayStreamEnd (sleeve : Nat) (s : State) : exec (.replayStreamEnd sleeve) s = execReplayStreamEnd sleeve s := rfl
theorem exec_replayRestoreDone (sleeve : Nat) (s : State) : exec (.replayRestoreDone sleeve) s = execReplayRestoreDone sleeve s := rfl
theorem exec_resScrubCommit (res : Nat) (s : State) : exec (.resScrubCommit res) s = execResScrubCommit res s := rfl
theorem exec_resDrainDone (res : Nat) (s : State) : exec (.resDrainDone res) s = execResDrainDone res s := rfl
theorem exec_resUnitScrubDone (res : Nat) (s : State) : exec (.resUnitScrubDone res) s = execResUnitScrubDone res s := rfl
theorem exec_resEpochIssue (res : Nat) (s : State) : exec (.resEpochIssue res) s = execResEpochIssue res s := rfl
theorem exec_assignCounterTurn (s : State) : exec (.assignCounterTurn) s = execAssignCounterTurn s := rfl
theorem exec_maintSessionExpiry (fn : Nat) (session : Nat) (s : State) : exec (.maintSessionExpiry fn session) s = execMaintSessionExpiry fn session s := rfl
theorem exec_maintNotAfterCheck (s : State) : exec (.maintNotAfterCheck) s = execMaintNotAfterCheck s := rfl
theorem exec_debugNonceExpiry (s : State) : exec (.debugNonceExpiry) s = execDebugNonceExpiry s := rfl
theorem exec_rollbackFuseBlow (s : State) : exec (.rollbackFuseBlow) s = execRollbackFuseBlow s := rfl
theorem exec_claspHealthTestFail (s : State) : exec (.claspHealthTestFail) s = execClaspHealthTestFail s := rfl
theorem exec_drawTimeout (s : State) : exec (.drawTimeout) s = execDrawTimeout s := rfl
theorem exec_helloExpiry (fn : Nat) (s : State) : exec (.helloExpiry fn) s = execHelloExpiry fn s := rfl
theorem exec_watchdogExpiry (core : Nat) (s : State) : exec (.watchdogExpiry core) s = execWatchdogExpiry core s := rfl
theorem exec_coreTakeover (s : State) : exec (.coreTakeover) s = execCoreTakeover s := rfl
theorem exec_heartbeatExpiry (fn : Nat) (s : State) : exec (.heartbeatExpiry fn) s = execHeartbeatExpiry fn s := rfl
theorem exec_irqCoalesceTimeout (fn : Nat) (ring : Nat) (s : State) : exec (.irqCoalesceTimeout fn ring) s = execIrqCoalesceTimeout fn ring s := rfl
theorem exec_reqRingEnableWrite (fn : Nat) (on : Bool) (s : State) : exec (.reqRingEnableWrite fn on) s = execReqRingEnableWrite fn on s := rfl
theorem exec_rspRingEnableWrite (fn : Nat) (on : Bool) (s : State) : exec (.rspRingEnableWrite fn on) s = execRspRingEnableWrite fn on s := rfl
theorem exec_rxRingEnableWrite (fn : Nat) (on : Bool) (s : State) : exec (.rxRingEnableWrite fn on) s = execRxRingEnableWrite fn on s := rfl
theorem exec_reqDoorbell (fn : Nat) (tail : Nat) (unknown : List (Nat × Hdr)) (s : State) : exec (.reqDoorbell fn tail unknown) s = execReqDoorbell fn tail unknown s := rfl
theorem exec_rspHeadWrite (fn : Nat) (index : Nat) (s : State) : exec (.rspHeadWrite fn index) s = execRspHeadWrite fn index s := rfl
theorem exec_rxHeadWrite (fn : Nat) (index : Nat) (s : State) : exec (.rxHeadWrite fn index) s = execRxHeadWrite fn index s := rfl
theorem exec_heartbeatKick (fn : Nat) (s : State) : exec (.heartbeatKick fn) s = execHeartbeatKick fn s := rfl
theorem exec_bootGo (fn : Nat) (s : State) : exec (.bootGo fn) s = execBootGo fn s := rfl
theorem exec_bootDoneClear (fn : Nat) (s : State) : exec (.bootDoneClear fn) s = execBootDoneClear fn s := rfl
theorem exec_hostLostClear (fn : Nat) (s : State) : exec (.hostLostClear fn) s = execHostLostClear fn s := rfl
theorem exec_irqStatusClear (fn : Nat) (mask : Nat) (s : State) : exec (.irqStatusClear fn mask) s = execIrqStatusClear fn mask s := rfl
theorem exec_registerWrite (fn : Nat) (reg : Reg) (value : Nat) (s : State) : exec (.registerWrite fn reg value) s = execRegisterWrite fn reg value s := rfl
theorem exec_drcSetSwap (channel : Nat) (s : State) : exec (.drcSetSwap channel) s = execDrcSetSwap channel s := rfl
theorem exec_drcModeRegisterAccess (channel : Nat) (ok : Bool) (s : State) : exec (.drcModeRegisterAccess channel ok) s = execDrcModeRegisterAccess channel ok s := rfl
theorem exec_drcTrainingRowAccess (channel : Nat) (write : Bool) (s : State) : exec (.drcTrainingRowAccess channel write) s = execDrcTrainingRowAccess channel write s := rfl
theorem exec_drcReadCompare (channel : Nat) (errors : Nat) (s : State) : exec (.drcReadCompare channel errors) s = execDrcReadCompare channel errors s := rfl
theorem exec_barMisalignedAccess (fn : Nat) (write : Bool) (s : State) : exec (.barMisalignedAccess fn write) s = execBarMisalignedAccess fn write s := rfl
theorem exec_pcieLinkUp (speed : Nat) (width : Nat) (s : State) : exec (.pcieLinkUp speed width) s = execPcieLinkUp speed width s := rfl
theorem exec_pcieLinkDown (s : State) : exec (.pcieLinkDown) s = execPcieLinkDown s := rfl
theorem exec_hotReset (s : State) : exec (.hotReset) s = execHotReset s := rfl
theorem exec_functionLevelReset (fn : Nat) (s : State) : exec (.functionLevelReset fn) s = execFunctionLevelReset fn s := rfl
theorem exec_busMasterClear (fn : Nat) (s : State) : exec (.busMasterClear fn) s = execBusMasterClear fn s := rfl
theorem exec_busMasterSet (fn : Nat) (s : State) : exec (.busMasterSet fn) s = execBusMasterSet fn s := rfl
theorem exec_d3hotEntry (fn : Nat) (s : State) : exec (.d3hotEntry fn) s = execD3hotEntry fn s := rfl
theorem exec_d0Return (fn : Nat) (s : State) : exec (.d0Return fn) s = execD0Return fn s := rfl
theorem exec_vfEnableSet (numVfs : Nat) (s : State) : exec (.vfEnableSet numVfs) s = execVfEnableSet numVfs s := rfl
theorem exec_vfEnableClear (s : State) : exec (.vfEnableClear) s = execVfEnableClear s := rfl
theorem exec_configRequest (fn : Nat) (write : Bool) (ctoValue : Nat) (s : State) : exec (.configRequest fn write ctoValue) s = execConfigRequest fn write ctoValue s := rfl
theorem exec_dmaCompletionArrival (tag : Nat) (status : DmaStatus) (s : State) : exec (.dmaCompletionArrival tag status) s = execDmaCompletionArrival tag status s := rfl
theorem exec_completionTimeout (tag : Nat) (s : State) : exec (.completionTimeout tag) s = execCompletionTimeout tag s := rfl
theorem exec_tagQuarantineEnd (tag : Nat) (s : State) : exec (.tagQuarantineEnd tag) s = execTagQuarantineEnd tag s := rfl
theorem exec_reqRingFetchRetry (fn : Nat) (s : State) : exec (.reqRingFetchRetry fn) s = execReqRingFetchRetry fn s := rfl
theorem exec_teardownFinish (fn : Nat) (s : State) : exec (.teardownFinish fn) s = execTeardownFinish fn s := rfl
theorem exec_gussetVoltageEval (s : State) : exec (.gussetVoltageEval) s = execGussetVoltageEval s := rfl
theorem exec_pmbusReadback (mv : Nat) (acked : Bool) (s : State) : exec (.pmbusReadback mv acked) s = execPmbusReadback mv acked s := rfl
theorem exec_pmbusHoldoffEnd (s : State) : exec (.pmbusHoldoffEnd) s = execPmbusHoldoffEnd s := rfl
theorem exec_pmbusAlert (s : State) : exec (.pmbusAlert) s = execPmbusAlert s := rfl
theorem exec_thermalSample (temps : List Int) (s : State) : exec (.thermalSample temps) s = execThermalSample temps s := rfl
theorem exec_ringOscSample (site : Nat) (ratio : Nat) (slack : Int) (s : State) : exec (.ringOscSample site ratio slack) s = execRingOscSample site ratio slack s := rfl
theorem exec_sramVminTest (mv : Nat) (s : State) : exec (.sramVminTest mv) s = execSramVminTest mv s := rfl
theorem exec_serdesAdaptStep (lane : Nat) (eye : Nat) (s : State) : exec (.serdesAdaptStep lane eye) s = execSerdesAdaptStep lane eye s := rfl
theorem exec_dramWindowCheck (channel : Nat) (windows : List Nat) (centre : List Int) (s : State) : exec (.dramWindowCheck channel windows centre) s = execDramWindowCheck channel windows centre s := rfl
theorem exec_tcamMarginTest (sleeve : Nat) (bank : Nat) (steps : Nat) (s : State) : exec (.tcamMarginTest sleeve bank steps) s = execTcamMarginTest sleeve bank steps s := rfl
theorem exec_flashOpCheck (code : Nat) (s : State) : exec (.flashOpCheck code) s = execFlashOpCheck code s := rfl
theorem exec_flashDeferRecheck (code : Nat) (s : State) : exec (.flashDeferRecheck code) s = execFlashDeferRecheck code s := rfl
theorem exec_flashOpComplete (s : State) : exec (.flashOpComplete) s = execFlashOpComplete s := rfl
theorem exec_flashWriteDeadline (s : State) : exec (.flashWriteDeadline) s = execFlashWriteDeadline s := rfl
theorem exec_powerFailAssert (code : Nat) (s : State) : exec (.powerFailAssert code) s = execPowerFailAssert code s := rfl
theorem exec_powerFailDeassert (s : State) : exec (.powerFailDeassert) s = execPowerFailDeassert s := rfl
theorem exec_postmortemBufferRefresh (s : State) : exec (.postmortemBufferRefresh) s = execPostmortemBufferRefresh s := rfl
theorem exec_historyAppend (kind : Nat) (s : State) : exec (.historyAppend kind) s = execHistoryAppend kind s := rfl
theorem exec_islandPowerOnReset (s : State) : exec (.islandPowerOnReset) s = execIslandPowerOnReset s := rfl
theorem exec_perstRelease (fusesOk : Bool) (s : State) : exec (.perstRelease fusesOk) s = execPerstRelease fusesOk s := rfl
theorem exec_perstAssert (s : State) : exec (.perstAssert) s = execPerstAssert s := rfl
theorem exec_railFault (s : State) : exec (.railFault) s = execRailFault s := rfl
theorem exec_romImageSelect (flashOk : Bool) (s : State) : exec (.romImageSelect flashOk) s = execRomImageSelect flashOk s := rfl
theorem exec_firmwareStart (s : State) : exec (.firmwareStart) s = execFirmwareStart s := rfl
theorem exec_firmwareReady (s : State) : exec (.firmwareReady) s = execFirmwareReady s := rfl
theorem exec_sleevesEnable (s : State) : exec (.sleevesEnable) s = execSleevesEnable s := rfl
theorem exec_ejectRequest (s : State) : exec (.ejectRequest) s = execEjectRequest s := rfl
theorem exec_ejectCancel (s : State) : exec (.ejectCancel) s = execEjectCancel s := rfl
theorem exec_ejectGraceExpiry (s : State) : exec (.ejectGraceExpiry) s = execEjectGraceExpiry s := rfl
theorem exec_ejectReady (s : State) : exec (.ejectReady) s = execEjectReady s := rfl
theorem exec_fwStoreComplete (ok : Bool) (s : State) : exec (.fwStoreComplete ok) s = execFwStoreComplete ok s := rfl
theorem exec_fwSwitchLoaded (s : State) : exec (.fwSwitchLoaded) s = execFwSwitchLoaded s := rfl
theorem exec_fwSwitchResume (s : State) : exec (.fwSwitchResume) s = execFwSwitchResume s := rfl
theorem exec_fwSwitchTimeout (s : State) : exec (.fwSwitchTimeout) s = execFwSwitchTimeout s := rfl
theorem exec_patchRollSleeveDone (passed : Bool) (s : State) : exec (.patchRollSleeveDone passed) s = execPatchRollSleeveDone passed s := rfl
theorem exec_svcOutOfServiceDone (s : State) : exec (.svcOutOfServiceDone) s = execSvcOutOfServiceDone s := rfl
theorem exec_svcDeadline (s : State) : exec (.svcDeadline) s = execSvcDeadline s := rfl
theorem exec_svcTestDone (passed : Bool) (s : State) : exec (.svcTestDone passed) s = execSvcTestDone passed s := rfl
theorem exec_coreHandoverDone (s : State) : exec (.coreHandoverDone) s = execCoreHandoverDone s := rfl
theorem exec_refclkStop (s : State) : exec (.refclkStop) s = execRefclkStop s := rfl
theorem exec_srdRefclkLoss (bank : Nat) (s : State) : exec (.srdRefclkLoss bank) s = execSrdRefclkLoss bank s := rfl
theorem exec_smbusSampleUpdate (s : State) : exec (.smbusSampleUpdate) s = execSmbusSampleUpdate s := rfl
theorem exec_smbusTj (s : State) : exec (.smbusTj) s = execSmbusTj s := rfl
theorem exec_smbusStage (s : State) : exec (.smbusStage) s = execSmbusStage s := rfl
theorem exec_smbusFlags (s : State) : exec (.smbusFlags) s = execSmbusFlags s := rfl
theorem exec_smbusCoreMv (s : State) : exec (.smbusCoreMv) s = execSmbusCoreMv s := rfl
theorem exec_smbusEom (s : State) : exec (.smbusEom) s = execSmbusEom s := rfl
theorem exec_smbusSensors (s : State) : exec (.smbusSensors) s = execSmbusSensors s := rfl
theorem exec_smbusAlertResponse (s : State) : exec (.smbusAlertResponse) s = execSmbusAlertResponse s := rfl
theorem exec_smbusWriteNack (s : State) : exec (.smbusWriteNack) s = execSmbusWriteNack s := rfl
theorem exec_jtagInstruction (inst : Jtag) (s : State) : exec (.jtagInstruction inst) s = execJtagInstruction inst s := rfl
theorem exec_slotShareSet (h : Hdr) (r : SlotShareRec) (s : State) : exec (.slotShareSet h r) s = execSlotShareSet h r s := rfl
theorem exec_slotStatusGet (h : Hdr) (sleeve : Nat) (s : State) : exec (.slotStatusGet h sleeve) s = execSlotStatusGet h sleeve s := rfl
theorem exec_ptpPortSet (h : Hdr) (r : PtpPortRec) (s : State) : exec (.ptpPortSet h r) s = execPtpPortSet h r s := rfl
theorem exec_timeStatusGet (h : Hdr) (s : State) : exec (.timeStatusGet h) s = execTimeStatusGet h s := rfl
theorem exec_timeIoSet (h : Hdr) (r : TimeIoRec) (s : State) : exec (.timeIoSet h r) s = execTimeIoSet h r s := rfl
theorem exec_timeAdjust (h : Hdr) (r : TimeAdjustRec) (s : State) : exec (.timeAdjust h r) s = execTimeAdjust h r s := rfl
theorem exec_hemCountersGet (h : Hdr) (s : State) : exec (.hemCountersGet h) s = execHemCountersGet h s := rfl
theorem exec_cuffAttach (h : Hdr) (r : CuffAttachRec) (s : State) : exec (.cuffAttach h r) s = execCuffAttach h r s := rfl
theorem exec_portConfigSet (h : Hdr) (r : PortConfigRec) (s : State) : exec (.portConfigSet h r) s = execPortConfigSet h r s := rfl
theorem exec_portStatusGet (h : Hdr) (port : Nat) (s : State) : exec (.portStatusGet h port) s = execPortStatusGet h port s := rfl
theorem exec_macStatsGet (h : Hdr) (port : Nat) (s : State) : exec (.macStatsGet h port) s = execMacStatsGet h port s := rfl
theorem exec_parsePortSet (h : Hdr) (r : ParsePortRec) (s : State) : exec (.parsePortSet h r) s = execParsePortSet h r s := rfl
theorem exec_patternSet (h : Hdr) (r : PatternRec) (s : State) : exec (.patternSet h r) s = execPatternSet h r s := rfl
theorem exec_patternClear (h : Hdr) (index : Nat) (s : State) : exec (.patternClear h index) s = execPatternClear h index s := rfl
theorem exec_fragConfigSet (h : Hdr) (r : FragConfigRec) (s : State) : exec (.fragConfigSet h r) s = execFragConfigSet h r s := rfl
theorem exec_parseStatsGet (h : Hdr) (kind : Nat) (unit : Nat) (tenancy : Nat) (s : State) : exec (.parseStatsGet h kind unit tenancy) s = execParseStatsGet h kind unit tenancy s := rfl
theorem exec_flowProfileSet (h : Hdr) (r : ProfileRec) (s : State) : exec (.flowProfileSet h r) s = execFlowProfileSet h r s := rfl
theorem exec_flowAdd (h : Hdr) (r : FlowAddRec) (s : State) : exec (.flowAdd h r) s = execFlowAdd h r s := rfl
theorem exec_flowDel (h : Hdr) (r : FlowDelRec) (s : State) : exec (.flowDel h r) s = execFlowDel h r s := rfl
theorem exec_flowRead (h : Hdr) (s : State) : exec (.flowRead h) s = execFlowRead h s := rfl
theorem exec_learnPolicySet (h : Hdr) (r : LearnPolicyRec) (s : State) : exec (.learnPolicySet h r) s = execLearnPolicySet h r s := rfl
theorem exec_learnQuotaSet (h : Hdr) (r : LearnQuotaRec) (s : State) : exec (.learnQuotaSet h r) s = execLearnQuotaSet h r s := rfl
theorem exec_learnPortSet (h : Hdr) (r : LearnPortRec) (s : State) : exec (.learnPortSet h r) s = execLearnPortSet h r s := rfl
theorem exec_learnStaticSet (h : Hdr) (r : LearnStaticRec) (s : State) : exec (.learnStaticSet h r) s = execLearnStaticSet h r s := rfl
theorem exec_learnFlush (h : Hdr) (r : LearnFlushRec) (s : State) : exec (.learnFlush h r) s = execLearnFlush h r s := rfl
theorem exec_learnRead (h : Hdr) (sleeve : Nat) (s : State) : exec (.learnRead h sleeve) s = execLearnRead h sleeve s := rfl
theorem exec_tableStatsGet (h : Hdr) (sleeve : Nat) (s : State) : exec (.tableStatsGet h sleeve) s = execTableStatsGet h sleeve s := rfl
theorem exec_tcamProfileSet (h : Hdr) (r : ProfileRec) (s : State) : exec (.tcamProfileSet h r) s = execTcamProfileSet h r s := rfl
theorem exec_tcamWrite (h : Hdr) (r : TcamWriteRec) (s : State) : exec (.tcamWrite h r) s = execTcamWrite h r s := rfl
theorem exec_tcamClear (h : Hdr) (index : Nat) (s : State) : exec (.tcamClear h index) s = execTcamClear h index s := rfl
theorem exec_tcamIterate (h : Hdr) (r : TcamIterateRec) (s : State) : exec (.tcamIterate h r) s = execTcamIterate h r s := rfl
theorem exec_tcamThrottleSet (h : Hdr) (r : TcamThrottleRec) (s : State) : exec (.tcamThrottleSet h r) s = execTcamThrottleSet h r s := rfl
theorem exec_tcamStatusGet (h : Hdr) (sleeve : Nat) (s : State) : exec (.tcamStatusGet h sleeve) s = execTcamStatusGet h sleeve s := rfl
theorem exec_tblCommit (h : Hdr) (deadlineMs : Nat) (s : State) : exec (.tblCommit h deadlineMs) s = execTblCommit h deadlineMs s := rfl
theorem exec_tblAbort (h : Hdr) (s : State) : exec (.tblAbort h) s = execTblAbort h s := rfl
theorem exec_versionStatusGet (h : Hdr) (s : State) : exec (.versionStatusGet h) s = execVersionStatusGet h s := rfl
theorem exec_actTenancySet (h : Hdr) (r : ActTenancyRec) (s : State) : exec (.actTenancySet h r) s = execActTenancySet h r s := rfl
theorem exec_floodGroupSet (h : Hdr) (r : FloodGroupRec) (s : State) : exec (.floodGroupSet h r) s = execFloodGroupSet h r s := rfl
theorem exec_mirrorSessionSet (h : Hdr) (r : MirrorSessionRec) (s : State) : exec (.mirrorSessionSet h r) s = execMirrorSessionSet h r s := rfl
theorem exec_copyLimitSet (h : Hdr) (r : CopyLimitRec) (s : State) : exec (.copyLimitSet h r) s = execCopyLimitSet h r s := rfl
theorem exec_actionSet (h : Hdr) (r : ActionRec) (s : State) : exec (.actionSet h r) s = execActionSet h r s := rfl
theorem exec_actionClear (h : Hdr) (index : Nat) (s : State) : exec (.actionClear h index) s = execActionClear h index s := rfl
theorem exec_actStatsGet (h : Hdr) (s : State) : exec (.actStatsGet h) s = execActStatsGet h s := rfl
theorem exec_templateSet (h : Hdr) (r : TemplateRec) (s : State) : exec (.templateSet h r) s = execTemplateSet h r s := rfl
theorem exec_ucodeLoad (h : Hdr) (r : UcodeLoadRec) (img : UcodeImage) (s : State) : exec (.ucodeLoad h r img) s = execUcodeLoad h r img s := rfl
theorem exec_ucodeAccept (h : Hdr) (r : UcodeAcceptRec) (s : State) : exec (.ucodeAccept h r) s = execUcodeAccept h r s := rfl
theorem exec_ucodeActivate (h : Hdr) (r : UcodeActivateRec) (s : State) : exec (.ucodeActivate h r) s = execUcodeActivate h r s := rfl
theorem exec_custMemWrite (h : Hdr) (r : CustMemRec) (s : State) : exec (.custMemWrite h r) s = execCustMemWrite h r s := rfl
theorem exec_custMemRead (h : Hdr) (r : CustMemRec) (s : State) : exec (.custMemRead h r) s = execCustMemRead h r s := rfl
theorem exec_ucodeStatusGet (h : Hdr) (s : State) : exec (.ucodeStatusGet h) s = execUcodeStatusGet h s := rfl
theorem exec_poolSet (h : Hdr) (r : PoolRec) (s : State) : exec (.poolSet h r) s = execPoolSet h r s := rfl
theorem exec_queueBufSet (h : Hdr) (r : QueueBufRec) (s : State) : exec (.queueBufSet h r) s = execQueueBufSet h r s := rfl
theorem exec_bufGlobalSet (h : Hdr) (regionMib : Nat) (s : State) : exec (.bufGlobalSet h regionMib) s = execBufGlobalSet h regionMib s := rfl
theorem exec_yokeStatsGet (h : Hdr) (s : State) : exec (.yokeStatsGet h) s = execYokeStatsGet h s := rfl
theorem exec_poolStatusGet (h : Hdr) (pool : Nat) (pocket : Nat) (s : State) : exec (.poolStatusGet h pool pocket) s = execPoolStatusGet h pool pocket s := rfl
theorem exec_meterBind (h : Hdr) (r : MeterBindRec) (s : State) : exec (.meterBind h r) s = execMeterBind h r s := rfl
theorem exec_meterUnbind (h : Hdr) (index : Nat) (s : State) : exec (.meterUnbind h index) s = execMeterUnbind h index s := rfl
theorem exec_meterTenancySet (h : Hdr) (r : MeterTenancyRec) (s : State) : exec (.meterTenancySet h r) s = execMeterTenancySet h r s := rfl
theorem exec_meterStatsGet (h : Hdr) (index : Nat) (s : State) : exec (.meterStatsGet h index) s = execMeterStatsGet h index s := rfl
theorem exec_schedPortSet (h : Hdr) (r : SchedPortRec) (s : State) : exec (.schedPortSet h r) s = execSchedPortSet h r s := rfl
theorem exec_schedQueueSet (h : Hdr) (r : SchedQueueRec) (s : State) : exec (.schedQueueSet h r) s = execSchedQueueSet h r s := rfl
theorem exec_gateConfigSet (h : Hdr) (r : GateConfigRec) (s : State) : exec (.gateConfigSet h r) s = execGateConfigSet h r s := rfl
theorem exec_gateEntriesSet (h : Hdr) (r : GateEntriesRec) (s : State) : exec (.gateEntriesSet h r) s = execGateEntriesSet h r s := rfl
theorem exec_samplerQuotaSet (h : Hdr) (r : SamplerQuotaRec) (s : State) : exec (.samplerQuotaSet h r) s = execSamplerQuotaSet h r s := rfl
theorem exec_samplerSet (h : Hdr) (r : SamplerRec) (s : State) : exec (.samplerSet h r) s = execSamplerSet h r s := rfl
theorem exec_sampleRead (h : Hdr) (maxRecords : Nat) (s : State) : exec (.sampleRead h maxRecords) s = execSampleRead h maxRecords s := rfl
theorem exec_schedStatsGet (h : Hdr) (kind : Nat) (unit : Nat) (s : State) : exec (.schedStatsGet h kind unit) s = execSchedStatsGet h kind unit s := rfl
theorem exec_gateStatusGet (h : Hdr) (port : Nat) (s : State) : exec (.gateStatusGet h port) s = execGateStatusGet h port s := rfl
theorem exec_relProfileSet (h : Hdr) (r : RelProfileRec) (s : State) : exec (.relProfileSet h r) s = execRelProfileSet h r s := rfl
theorem exec_relProfileClear (h : Hdr) (index : Nat) (s : State) : exec (.relProfileClear h index) s = execRelProfileClear h index s := rfl
theorem exec_relTenancySet (h : Hdr) (flags : Nat) (s : State) : exec (.relTenancySet h flags) s = execRelTenancySet h flags s := rfl
theorem exec_relPortSet (h : Hdr) (port : Nat) (calLimit : Nat) (s : State) : exec (.relPortSet h port calLimit) s = execRelPortSet h port calLimit s := rfl
theorem exec_relStatsGet (h : Hdr) (kind : Nat) (unit : Nat) (s : State) : exec (.relStatsGet h kind unit) s = execRelStatsGet h kind unit s := rfl
theorem exec_relProfileRead (h : Hdr) (index : Nat) (s : State) : exec (.relProfileRead h index) s = execRelProfileRead h index s := rfl
theorem exec_macsecPortSet (h : Hdr) (r : MacsecPortRec) (s : State) : exec (.macsecPortSet h r) s = execMacsecPortSet h r s := rfl
theorem exec_macsecScSet (h : Hdr) (r : MacsecScRec) (s : State) : exec (.macsecScSet h r) s = execMacsecScSet h r s := rfl
theorem exec_macsecTxAnSet (h : Hdr) (sc : Nat) (an : Nat) (s : State) : exec (.macsecTxAnSet h sc an) s = execMacsecTxAnSet h sc an s := rfl
theorem exec_keyLoad (h : Hdr) (r : KeyLoadRec) (s : State) : exec (.keyLoad h r) s = execKeyLoad h r s := rfl
theorem exec_keyErase (h : Hdr) (r : KeyEraseRec) (s : State) : exec (.keyErase h r) s = execKeyErase h r s := rfl
theorem exec_macsecSaStatusGet (h : Hdr) (slot : Nat) (s : State) : exec (.macsecSaStatusGet h slot) s = execMacsecSaStatusGet h slot s := rfl
theorem exec_bulkOpen (h : Hdr) (r : BulkOpenRec) (s : State) : exec (.bulkOpen h r) s = execBulkOpen h r s := rfl
theorem exec_bulkSegment (h : Hdr) (r : BulkSegmentRec) (s : State) : exec (.bulkSegment h r) s = execBulkSegment h r s := rfl
theorem exec_bulkClose (h : Hdr) (message : Nat) (s : State) : exec (.bulkClose h message) s = execBulkClose h message s := rfl
theorem exec_bulkConfigSet (h : Hdr) (quota : List Nat) (s : State) : exec (.bulkConfigSet h quota) s = execBulkConfigSet h quota s := rfl
theorem exec_macsecStatsGet (h : Hdr) (port : Nat) (s : State) : exec (.macsecStatsGet h port) s = execMacsecStatsGet h port s := rfl
theorem exec_bulkStatsGet (h : Hdr) (s : State) : exec (.bulkStatsGet h) s = execBulkStatsGet h s := rfl
theorem exec_dramConfigSet (h : Hdr) (r : DramConfigRec) (s : State) : exec (.dramConfigSet h r) s = execDramConfigSet h r s := rfl
theorem exec_dramChannelSet (h : Hdr) (r : DramChannelRec) (s : State) : exec (.dramChannelSet h r) s = execDramChannelSet h r s := rfl
theorem exec_dramStatusGet (h : Hdr) (s : State) : exec (.dramStatusGet h) s = execDramStatusGet h s := rfl
theorem exec_recStoreSet (h : Hdr) (r : RecStoreRec) (s : State) : exec (.recStoreSet h r) s = execRecStoreSet h r s := rfl
theorem exec_recArm (h : Hdr) (r : RecArmRec) (s : State) : exec (.recArm h r) s = execRecArm h r s := rfl
theorem exec_recTrigger (h : Hdr) (s : State) : exec (.recTrigger h) s = execRecTrigger h s := rfl
theorem exec_recStop (h : Hdr) (s : State) : exec (.recStop h) s = execRecStop h s := rfl
theorem exec_recClear (h : Hdr) (s : State) : exec (.recClear h) s = execRecClear h s := rfl
theorem exec_recExport (h : Hdr) (r : RecExportRec) (s : State) : exec (.recExport h r) s = execRecExport h r s := rfl
theorem exec_recStatusGet (h : Hdr) (s : State) : exec (.recStatusGet h) s = execRecStatusGet h s := rfl
theorem exec_replayRun (h : Hdr) (r : ReplayRunRec) (s : State) : exec (.replayRun h r) s = execReplayRun h r s := rfl
theorem exec_replayAbort (h : Hdr) (sleeve : Nat) (s : State) : exec (.replayAbort h sleeve) s = execReplayAbort h sleeve s := rfl
theorem exec_replayReportRead (h : Hdr) (maxEntries : Nat) (s : State) : exec (.replayReportRead h maxEntries) s = execReplayReportRead h maxEntries s := rfl
theorem exec_portTenancySet (h : Hdr) (r : PortTenancyRec) (s : State) : exec (.portTenancySet h r) s = execPortTenancySet h r s := rfl
theorem exec_resAssign (h : Hdr) (r : ResAssignRec) (s : State) : exec (.resAssign h r) s = execResAssign h r s := rfl
theorem exec_resStatusGet (h : Hdr) (kind : Nat) (s : State) : exec (.resStatusGet h kind) s = execResStatusGet h kind s := rfl
theorem exec_ownerKeySet (h : Hdr) (key : Nat) (sigOk : Bool) (s : State) : exec (.ownerKeySet h key sigOk) s = execOwnerKeySet h key sigOk s := rfl
theorem exec_tenantEnrol (h : Hdr) (r : TenantEnrolRec) (s : State) : exec (.tenantEnrol h r) s = execTenantEnrol h r s := rfl
theorem exec_rollbackAdvance (h : Hdr) (target : Nat) (s : State) : exec (.rollbackAdvance h target) s = execRollbackAdvance h target s := rfl
theorem exec_attestGet (h : Hdr) (nonce : Nat) (s : State) : exec (.attestGet h nonce) s = execAttestGet h nonce s := rfl
theorem exec_debugNonceGet (h : Hdr) (s : State) : exec (.debugNonceGet h) s = execDebugNonceGet h s := rfl
theorem exec_debugUnlock (h : Hdr) (owner : Sys2Proof.Token) (vendor : Sys2Proof.Token) (s : State) : exec (.debugUnlock h owner vendor) s = execDebugUnlock h owner vendor s := rfl
theorem exec_sessionHello (h : Hdr) (hostNonce : Nat) (s : State) : exec (.sessionHello h hostNonce) s = execSessionHello h hostNonce s := rfl
theorem exec_sessionOpen (h : Hdr) (r : SessionOpenRec) (s : State) : exec (.sessionOpen h r) s = execSessionOpen h r s := rfl
theorem exec_sessionClose (h : Hdr) (s : State) : exec (.sessionClose h) s = execSessionClose h s := rfl
theorem exec_eventMaskSet (h : Hdr) (mask : Nat) (s : State) : exec (.eventMaskSet h mask) s = execEventMaskSet h mask s := rfl
theorem exec_mbxStatsGet (h : Hdr) (s : State) : exec (.mbxStatsGet h) s = execMbxStatsGet h s := rfl
theorem exec_hostStatusGet (h : Hdr) (s : State) : exec (.hostStatusGet h) s = execHostStatusGet h s := rfl
theorem exec_gusConfigSet (h : Hdr) (r : GusConfigRec) (s : State) : exec (.gusConfigSet h r) s = execGusConfigSet h r s := rfl
theorem exec_gusStatusGet (h : Hdr) (s : State) : exec (.gusStatusGet h) s = execGusStatusGet h s := rfl
theorem exec_gusHistoryRead (h : Hdr) (first : Nat) (count : Nat) (s : State) : exec (.gusHistoryRead h first count) s = execGusHistoryRead h first count s := rfl
theorem exec_gusPostmortemRead (h : Hdr) (slot : Nat) (s : State) : exec (.gusPostmortemRead h slot) s = execGusPostmortemRead h slot s := rfl
theorem exec_svcUnitSet (h : Hdr) (r : SvcUnitRec) (s : State) : exec (.svcUnitSet h r) s = execSvcUnitSet h r s := rfl
theorem exec_svcTest (h : Hdr) (r : SvcTestRec) (s : State) : exec (.svcTest h r) s = execSvcTest h r s := rfl
theorem exec_svcStatusGet (h : Hdr) (s : State) : exec (.svcStatusGet h) s = execSvcStatusGet h s := rfl
theorem exec_fwStore (h : Hdr) (r : FwStoreRec) (s : State) : exec (.fwStore h r) s = execFwStore h r s := rfl
theorem exec_fwSwitch (h : Hdr) (digest : Nat) (s : State) : exec (.fwSwitch h digest) s = execFwSwitch h digest s := rfl
theorem exec_fwCommit (h : Hdr) (digest : Nat) (s : State) : exec (.fwCommit h digest) s = execFwCommit h digest s := rfl
theorem exec_patchRoll (h : Hdr) (digest : Nat) (s : State) : exec (.patchRoll h digest) s = execPatchRoll h digest s := rfl
theorem exec_ejectConfigSet (h : Hdr) (r : EjectConfigRec) (s : State) : exec (.ejectConfigSet h r) s = execEjectConfigSet h r s := rfl
theorem exec_svcEject (h : Hdr) (op : Nat) (s : State) : exec (.svcEject h op) s = execSvcEject h op s := rfl
theorem exec_bootInfo (h : Hdr) (s : State) : exec (.bootInfo h) s = execBootInfo h s := rfl
theorem exec_bootImageLoad (h : Hdr) (len : Nat) (img : FwImage) (s : State) : exec (.bootImageLoad h len img) s = execBootImageLoad h len img s := rfl
theorem exec_ucodeActivateTimeout (s : State) : exec (.ucodeActivateTimeout) s = execUcodeActivateTimeout s := rfl
theorem exec_dramChannelTimeout (s : State) : exec (.dramChannelTimeout) s = execDramChannelTimeout s := rfl
theorem exec_scrubQueueDiscard (port : Nat) (queue : Nat) (s : State) : exec (.scrubQueueDiscard port queue) s = execScrubQueueDiscard port queue s := rfl
theorem exec_ejectFlashAbandon (s : State) : exec (.ejectFlashAbandon) s = execEjectFlashAbandon s := rfl

end Sys2Proof.Machine
end

