-- ==== Sys2Proof/Laws/Frames.lean ====
section
/-! SUPPORT. What the shared operations of `Machine/Ops.lean` leave alone: counters, events, responses and the delivery
of events touch the mailboxes, the endpoint, the Lining's captures, the event buffer and the counters, and nothing else.
`Dev.data` is what they leave alone. -/

namespace Sys2Proof.Machine

theorem foldl_data {α : Type} (f : Dev → α → Dev) (hf : ∀ d a, (f d a).data = d.data) (l : List α) (d : Dev) :
    (l.foldl f d).data = d.data := by
  induction l generalizing d with
  | nil => rfl
  | cons a l ih => exact (ih (f d a)).trans (hf d a)

@[simp] theorem setCtr_data (d : Dev) (c : Ctr) (a b n : Nat) : (d.setCtr c a b n).data = d.data := rfl
@[simp] theorem bump_data (d : Dev) (c : Ctr) (a b n : Nat) : (d.bump c a b n).data = d.data := rfl
@[simp] theorem inc_data (d : Dev) (c : Ctr) (a b : Nat) : (d.inc c a b).data = d.data := rfl
@[simp] theorem zeroCtrs_data (d : Dev) (p : CtrKey → Bool) : (d.zeroCtrs p).data = d.data := rfl
@[simp] theorem setMbox_data (d : Dev) (f : Nat) (m : Mailbox) : (d.setMbox f m).data = d.data := rfl
@[simp] theorem setFend_data (d : Dev) (f : Nat) (e : EndFn) : (d.setFend f e).data = d.data := rfl

@[simp] theorem setSession_data (d : Dev) (f k : Nat) (s : Session) : (d.setSession f k s).data = d.data := by
  unfold Dev.setSession; split <;> rfl

@[simp] theorem remember_data (d : Dev) (aud : List Aud) (e : EventMsg) : (d.remember aud e).data = d.data := rfl
@[simp] theorem newEvent_data (d : Dev) (code : Nat) (args : List Nat) : (d.newEvent code args).2.data = d.data := rfl
@[simp] theorem raise_data (d : Dev) (code : Nat) (aud : List Aud) (args : List Nat) :
    (d.raise code aud args).data = d.data := rfl
@[simp] theorem occurs_data (d : Dev) (code a b : Nat) : (d.occurs code a b).2.data = d.data := rfl

@[simp] theorem raiseFirst_data (d : Dev) (code a b : Nat) (aud : List Aud) (args : List Nat) :
    (d.raiseFirst code a b aud args).data = d.data := by
  unfold Dev.raiseFirst
  simp only
  split <;> simp

@[simp] theorem msix_data (d : Dev) (f v : Nat) : (d.msix f v).data = d.data := by
  unfold Dev.msix; simp only; repeat' split
  all_goals rfl

@[simp] theorem irqBit_data (d : Dev) (f i v : Nat) (on : Bool) : (d.irqBit f i v on).data = d.data := by
  unfold Dev.irqBit; simp only; split <;> simp

@[simp] theorem irqMisc_data (d : Dev) (f i : Nat) : (d.irqMisc f i).data = d.data := by simp [Dev.irqMisc]

@[simp] theorem writeEntry_data (d : Dev) (f n : Nat) (e : Entry) : (d.writeEntry f n e).data = d.data := by
  unfold Dev.writeEntry; simp only; split <;> simp

@[simp] theorem nextSeq_data (d : Dev) (f k : Nat) : (d.nextSeq f k).2.data = d.data := by
  unfold Dev.nextSeq; split <;> simp

@[simp] theorem respond_data (d : Dev) (tok : Token) (st : Status) (b : Bool) (n : Nat) (body : List Nat) :
    (d.respond tok st b n body).data = d.data := by
  unfold Dev.respond; simp only; repeat' split
  all_goals simp

@[simp] theorem writeEvent_data (d : Dev) (f k : Nat) (s : Session) (e : EventMsg) :
    (d.writeEvent f k s e).data = d.data := by simp [Dev.writeEvent]

@[simp] theorem deliver_data (d : Dev) (f k : Nat) (e : EventMsg) : (d.deliver f k e).data = d.data := by
  unfold Dev.deliver; repeat' split
  all_goals simp

@[simp] theorem countLost_data (d : Dev) (aud : List Aud) (o : List (Nat × Nat × Session)) :
    (d.countLost aud o).data = d.data := by
  unfold Dev.countLost
  refine foldl_data _ (fun d a => ?_) aud d
  simp only; repeat' split
  all_goals simp

@[simp] theorem linTrigger_data (d : Dev) (t source code seq : Nat) : (d.linTrigger t source code seq).data = d.data := by
  unfold Dev.linTrigger; repeat' split
  all_goals rfl

@[simp] theorem eventTrigger_data (d : Dev) (c : Nat) (l : List (Nat × Nat × Session)) :
    (d.eventTrigger c l).data = d.data := by
  unfold Dev.eventTrigger
  refine foldl_data _ (fun d t => ?_) _ d
  repeat' split
  all_goals simp

@[simp] theorem deliverAll_data (d : Dev) (aud : List Aud) (e : EventMsg) : (d.deliverAll aud e).data = d.data := by
  unfold Dev.deliverAll
  simp only [eventTrigger_data]
  rw [foldl_data _ (fun d o => by simp)]
  simp

@[simp] theorem flushOnce_data (d : Dev) : d.flushOnce.data = d.data := by
  unfold Dev.flushOnce
  rw [foldl_data _ (fun d o => by simp)]
  rfl

/-- Delivering the events that a command raised changes nothing of the data path. -/
@[simp] theorem flush_data (d : Dev) : d.flush.data = d.data := by
  unfold Dev.flush
  exact foldl_data _ (fun d _ => by simp) _ d

@[simp] theorem countReject_data (d : Dev) (t : Nat) (st : Status) : (d.countReject t st).data = d.data := by
  unfold Dev.countReject; repeat' split
  all_goals simp

@[simp] theorem take_data (d : Dev) (h : Hdr) : (d.take h).data = d.data := by
  unfold Dev.take; simp only; split <;> simp

@[simp] theorem ringError_data (d : Dev) (f : Nat) : (d.ringError f).data = d.data := by simp [Dev.ringError]

@[simp] theorem finishNow_data (d : Dev) (tok : Token) (st : Status) (n : Nat) (b : List Nat) :
    (d.finishNow tok st n b).data = d.data := by
  unfold Dev.finishNow; simp only; repeat' split
  all_goals simp

@[simp] theorem finish_data (d : Dev) (tok : Token) (st : Status) (n : Nat) (b : List Nat) :
    (d.finish tok st n b).data = d.data := by
  unfold Dev.finish; split
  · rfl
  · simp

@[simp] theorem keep_data (d : Dev) (tok : Token) : (d.keep tok).data = d.data := by
  unfold Dev.keep; simp only; split <;> simp

/-- The end of a message leaves the data path as the message's own work left it. -/
@[simp] theorem conclude_data (tok : Token) (r : Reply × Dev) : (Dev.conclude tok r).data = r.2.data := by
  unfold Dev.conclude; split <;> simp

@[simp] theorem reject_data (d : Dev) (tok : Token) (h : Hdr) (st : Status) (k : Bool) :
    (d.reject tok h st k).data = d.data := by
  unfold Dev.reject; simp only [respond_data, countReject_data]
  repeat' split
  all_goals simp

theorem refuseUnknown_data (d e : Dev) (code : Nat) (h : Hdr) (he : d.refuseUnknown code h = some e) :
    e.data = d.data := by
  unfold Dev.refuseUnknown at he
  simp only at he
  repeat' split at he
  all_goals cases he
  all_goals simp

@[simp] theorem serveUnknown_data (d : Dev) (f : Nat) : (d.serveUnknown f).data = d.data := by
  unfold Dev.serveUnknown
  refine foldl_data _ (fun d u => ?_) _ d
  simp only
  repeat' split
  · rename_i h; simpa using refuseUnknown_data _ _ _ _ h
  · rfl
  · rfl

@[simp] theorem romTake_data (d : Dev) (f : Nat) : (d.romTake f).data = d.data := rfl

end Sys2Proof.Machine
end

