-- ==== Sys2Proof/Laws/Gate.lean ====
section
/-! SUPPORT. What any command can do: the gate of its power state, the waiting commands, and the events that it raised,
which it delivers to the last one. -/

namespace Sys2Proof.Machine

/-! ### The three gates -/

theorem running_on {f : Dev → Dev} {s : State} (h : s.dev.power = .on) :
    running f s = .next { s with dev := (f s.dev).flush } := by
  unfold running; rw [h]

theorem powered_on {f : Dev → Dev} {s : State} (h : s.dev.power ≠ .undefined) :
    powered f s = .next { s with dev := (f s.dev).flush } := by
  unfold powered; split
  · contradiction
  · rfl

/-- A command is one function of the device behind one of three gates. -/
def Gated (c : Instr) : Prop :=
  (atRest c = false ∧ alwaysTakes c = false ∧ ∃ f, ∀ s, exec c s = running f s) ∨
  (atRest c = true ∧ alwaysTakes c = false ∧ ∃ f, ∀ s, exec c s = powered f s) ∨
  (alwaysTakes c = true ∧ ∃ f, ∀ s, exec c s = always f s)

theorem gate_frameRxStart (port : Nat) (fid : Nat) (lag : Nat) (bytes : List Nat) : Gated (.frameRxStart port fid lag bytes) := .inl ⟨rfl, rfl, _, fun s => exec_frameRxStart port fid lag bytes s⟩
theorem gate_tenancyMapLookup (fid : Nat) : Gated (.tenancyMapLookup fid) := .inl ⟨rfl, rfl, _, fun s => exec_tenancyMapLookup fid s⟩
theorem gate_rxNextPocket (fid : Nat) : Gated (.rxNextPocket fid) := .inl ⟨rfl, rfl, _, fun s => exec_rxNextPocket fid s⟩
theorem gate_sliceOffer (fid : Nat) : Gated (.sliceOffer fid) := .inl ⟨rfl, rfl, _, fun s => exec_sliceOffer fid s⟩
theorem gate_frameRxEnd (fid : Nat) (fcsOk : Bool) : Gated (.frameRxEnd fid fcsOk) := .inl ⟨rfl, rfl, _, fun s => exec_frameRxEnd fid fcsOk s⟩
theorem gate_macsecRxVerify (fid : Nat) : Gated (.macsecRxVerify fid) := .inl ⟨rfl, rfl, _, fun s => exec_macsecRxVerify fid s⟩
theorem gate_macsecRxDeliver (fid : Nat) : Gated (.macsecRxDeliver fid) := .inl ⟨rfl, rfl, _, fun s => exec_macsecRxDeliver fid s⟩
theorem gate_fecCodewordDecode (lane : Nat) (result : FecResult) : Gated (.fecCodewordDecode lane result) := .inl ⟨rfl, rfl, _, fun s => exec_fecCodewordDecode lane result s⟩
theorem gate_slotGrant (sleeve : Nat) (work : List SlotWork) : Gated (.slotGrant sleeve work) := .inl ⟨rfl, rfl, _, fun s => exec_slotGrant sleeve work s⟩
theorem gate_parse (fid : Nat) : Gated (.parse fid) := .inl ⟨rfl, rfl, _, fun s => exec_parse fid s⟩
theorem gate_payloadPatternMatch (fid : Nat) : Gated (.payloadPatternMatch fid) := .inl ⟨rfl, rfl, _, fun s => exec_payloadPatternMatch fid s⟩
theorem gate_fragmentLookup (fid : Nat) : Gated (.fragmentLookup fid) := .inl ⟨rfl, rfl, _, fun s => exec_fragmentLookup fid s⟩
theorem gate_fragmentWriteBack (fid : Nat) : Gated (.fragmentWriteBack fid) := .inl ⟨rfl, rfl, _, fun s => exec_fragmentWriteBack fid s⟩
theorem gate_fragSweepVisit (sleeve : Nat) : Gated (.fragSweepVisit sleeve) := .inl ⟨rfl, rfl, _, fun s => exec_fragSweepVisit sleeve s⟩
theorem gate_flowKeyBuild (fid : Nat) : Gated (.flowKeyBuild fid) := .inl ⟨rfl, rfl, _, fun s => exec_flowKeyBuild fid s⟩
theorem gate_flowLookup (fid : Nat) (ecc : Ecc) : Gated (.flowLookup fid ecc) := .inl ⟨rfl, rfl, _, fun s => exec_flowLookup fid ecc s⟩
theorem gate_learnLookup (fid : Nat) (ecc : Ecc) : Gated (.learnLookup fid ecc) := .inl ⟨rfl, rfl, _, fun s => exec_learnLookup fid ecc s⟩
theorem gate_tcamSearch (fid : Nat) (spurious : List Nat) (missed : List Nat) : Gated (.tcamSearch fid spurious missed) := .inl ⟨rfl, rfl, _, fun s => exec_tcamSearch fid spurious missed s⟩
theorem gate_meterAccess (fid : Nat) (ecc : Ecc) : Gated (.meterAccess fid ecc) := .inl ⟨rfl, rfl, _, fun s => exec_meterAccess fid ecc s⟩
theorem gate_colourAction (fid : Nat) : Gated (.colourAction fid) := .inl ⟨rfl, rfl, _, fun s => exec_colourAction fid s⟩
theorem gate_actionSelect (fid : Nat) : Gated (.actionSelect fid) := .inl ⟨rfl, rfl, _, fun s => exec_actionSelect fid s⟩
theorem gate_forwardResolve (fid : Nat) : Gated (.forwardResolve fid) := .inl ⟨rfl, rfl, _, fun s => exec_forwardResolve fid s⟩
theorem gate_ttlCopyMirror (fid : Nat) : Gated (.ttlCopyMirror fid) := .inl ⟨rfl, rfl, _, fun s => exec_ttlCopyMirror fid s⟩
theorem gate_rewriteCompile (fid : Nat) : Gated (.rewriteCompile fid) := .inl ⟨rfl, rfl, _, fun s => exec_rewriteCompile fid s⟩
theorem gate_releaseClassify (fid : Nat) : Gated (.releaseClassify fid) := .inl ⟨rfl, rfl, _, fun s => exec_releaseClassify fid s⟩
theorem gate_enqueueDecision (fid : Nat) : Gated (.enqueueDecision fid) := .inl ⟨rfl, rfl, _, fun s => exec_enqueueDecision fid s⟩
theorem gate_egressHandoff (fid : Nat) : Gated (.egressHandoff fid) := .inl ⟨rfl, rfl, _, fun s => exec_egressHandoff fid s⟩
theorem gate_seamClaim (port : Nat) : Gated (.seamClaim port) := .inl ⟨rfl, rfl, _, fun s => exec_seamClaim port s⟩
theorem gate_seamLaunch (port : Nat) : Gated (.seamLaunch port) := .inl ⟨rfl, rfl, _, fun s => exec_seamLaunch port s⟩
theorem gate_enqueue (fid : Nat) : Gated (.enqueue fid) := .inl ⟨rfl, rfl, _, fun s => exec_enqueue fid s⟩
theorem gate_copyMirrorRead (fid : Nat) (served : Bool) : Gated (.copyMirrorRead fid served) := .inl ⟨rfl, rfl, _, fun s => exec_copyMirrorRead fid served s⟩
theorem gate_rxRingCopyWrite (fn : Nat) : Gated (.rxRingCopyWrite fn) := .inl ⟨rfl, rfl, _, fun s => exec_rxRingCopyWrite fn s⟩
theorem gate_spillWriteDone (fid : Nat) : Gated (.spillWriteDone fid) := .inl ⟨rfl, rfl, _, fun s => exec_spillWriteDone fid s⟩
theorem gate_spillReturn (port : Nat) (queue : Nat) : Gated (.spillReturn port queue) := .inl ⟨rfl, rfl, _, fun s => exec_spillReturn port queue s⟩
theorem gate_spillReturnRetry (port : Nat) (queue : Nat) : Gated (.spillReturnRetry port queue) := .inl ⟨rfl, rfl, _, fun s => exec_spillReturnRetry port queue s⟩
theorem gate_calendarRelease (port : Nat) : Gated (.calendarRelease port) := .inl ⟨rfl, rfl, _, fun s => exec_calendarRelease port s⟩
theorem gate_schedulerSelect (port : Nat) : Gated (.schedulerSelect port) := .inl ⟨rfl, rfl, _, fun s => exec_schedulerSelect port s⟩
theorem gate_frameTxStart (port : Nat) (ecc : Ecc) : Gated (.frameTxStart port ecc) := .inl ⟨rfl, rfl, _, fun s => exec_frameTxStart port ecc s⟩
theorem gate_frameTxEnd (port : Nat) : Gated (.frameTxEnd port) := .inl ⟨rfl, rfl, _, fun s => exec_frameTxEnd port s⟩
theorem gate_cachePrefetch (unit : Nat) (pool : Nat) : Gated (.cachePrefetch unit pool) := .inl ⟨rfl, rfl, _, fun s => exec_cachePrefetch unit pool s⟩
theorem gate_cacheIdleReturn (unit : Nat) : Gated (.cacheIdleReturn unit) := .inl ⟨rfl, rfl, _, fun s => exec_cacheIdleReturn unit s⟩
theorem gate_cacheLowWaterReturn (pool : Nat) : Gated (.cacheLowWaterReturn pool) := .inl ⟨rfl, rfl, _, fun s => exec_cacheLowWaterReturn pool s⟩
theorem gate_sojournCheck (port : Nat) : Gated (.sojournCheck port) := .inl ⟨rfl, rfl, _, fun s => exec_sojournCheck port s⟩
theorem gate_linkDownFlush (port : Nat) : Gated (.linkDownFlush port) := .inl ⟨rfl, rfl, _, fun s => exec_linkDownFlush port s⟩
theorem gate_linkHoldExpiry (port : Nat) : Gated (.linkHoldExpiry port) := .inl ⟨rfl, rfl, _, fun s => exec_linkHoldExpiry port s⟩
theorem gate_laneLockAcquire (lane : Nat) (kind : LockKind) : Gated (.laneLockAcquire lane kind) := .inl ⟨rfl, rfl, _, fun s => exec_laneLockAcquire lane kind s⟩
theorem gate_laneLockLoss (lane : Nat) (kind : LockKind) : Gated (.laneLockLoss lane kind) := .inl ⟨rfl, rfl, _, fun s => exec_laneLockLoss lane kind s⟩
theorem gate_synceResume (out : Nat) : Gated (.synceResume out) := .inl ⟨rfl, rfl, _, fun s => exec_synceResume out s⟩
theorem gate_remoteFaultRx (port : Nat) (present : Bool) : Gated (.remoteFaultRx port present) := .inl ⟨rfl, rfl, _, fun s => exec_remoteFaultRx port present s⟩
theorem gate_downHoldExpiry (port : Nat) : Gated (.downHoldExpiry port) := .inl ⟨rfl, rfl, _, fun s => exec_downHoldExpiry port s⟩
theorem gate_anResolved (port : Nat) (mode : Nat) (fec : Nat) : Gated (.anResolved port mode fec) := .inl ⟨rfl, rfl, _, fun s => exec_anResolved port mode fec s⟩
theorem gate_trainingComplete (port : Nat) : Gated (.trainingComplete port) := .inl ⟨rfl, rfl, _, fun s => exec_trainingComplete port s⟩
theorem gate_trainingTimeout (port : Nat) : Gated (.trainingTimeout port) := .inl ⟨rfl, rfl, _, fun s => exec_trainingTimeout port s⟩
theorem gate_upHoldExpiry (port : Nat) : Gated (.upHoldExpiry port) := .inl ⟨rfl, rfl, _, fun s => exec_upHoldExpiry port s⟩
theorem gate_cuffFenceDrained (cuff : Nat) : Gated (.cuffFenceDrained cuff) := .inl ⟨rfl, rfl, _, fun s => exec_cuffFenceDrained cuff s⟩
theorem gate_cuffMoveTimeout (cuff : Nat) : Gated (.cuffMoveTimeout cuff) := .inl ⟨rfl, rfl, _, fun s => exec_cuffMoveTimeout cuff s⟩
theorem gate_portSettingEffect (port : Nat) (dir : Dir) : Gated (.portSettingEffect port dir) := .inl ⟨rfl, rfl, _, fun s => exec_portSettingEffect port dir s⟩
theorem gate_ptpSettingEffect (port : Nat) (dir : Dir) : Gated (.ptpSettingEffect port dir) := .inl ⟨rfl, rfl, _, fun s => exec_ptpSettingEffect port dir s⟩
theorem gate_macsecSettingEffect (port : Nat) (dir : Dir) : Gated (.macsecSettingEffect port dir) := .inl ⟨rfl, rfl, _, fun s => exec_macsecSettingEffect port dir s⟩
theorem gate_tenancyLossEffect (port : Nat) (dir : Dir) : Gated (.tenancyLossEffect port dir) := .inl ⟨rfl, rfl, _, fun s => exec_tenancyLossEffect port dir s⟩
theorem gate_hemTimeAdvance (cycles : Nat) : Gated (.hemTimeAdvance cycles) := .inl ⟨rfl, rfl, _, fun s => exec_hemTimeAdvance cycles s⟩
theorem gate_servoUpdate (offsetNs : Int) (freqAdj : Int) : Gated (.servoUpdate offsetNs freqAdj) := .inl ⟨rfl, rfl, _, fun s => exec_servoUpdate offsetNs freqAdj s⟩
theorem gate_sourceLost (source : Nat) : Gated (.sourceLost source) := .inl ⟨rfl, rfl, _, fun s => exec_sourceLost source s⟩
theorem gate_sourceValid (source : Nat) : Gated (.sourceValid source) := .inl ⟨rfl, rfl, _, fun s => exec_sourceValid source s⟩
theorem gate_ppsInEdge : Gated (.ppsInEdge) := .inl ⟨rfl, rfl, _, fun s => exec_ppsInEdge s⟩
theorem gate_ppsInMissing : Gated (.ppsInMissing) := .inl ⟨rfl, rfl, _, fun s => exec_ppsInMissing s⟩
theorem gate_ppsOutEdge : Gated (.ppsOutEdge) := .inl ⟨rfl, rfl, _, fun s => exec_ppsOutEdge s⟩
theorem gate_ppsOutPulseEnd : Gated (.ppsOutPulseEnd) := .inl ⟨rfl, rfl, _, fun s => exec_ppsOutPulseEnd s⟩
theorem gate_todTx : Gated (.todTx) := .inl ⟨rfl, rfl, _, fun s => exec_todTx s⟩
theorem gate_todRx (bytes : List Nat) : Gated (.todRx bytes) := .inl ⟨rfl, rfl, _, fun s => exec_todRx bytes s⟩
theorem gate_flowIdleScan (tenancy : Nat) : Gated (.flowIdleScan tenancy) := .inl ⟨rfl, rfl, _, fun s => exec_flowIdleScan tenancy s⟩
theorem gate_learnEngineTurn (sleeve : Nat) : Gated (.learnEngineTurn sleeve) := .inl ⟨rfl, rfl, _, fun s => exec_learnEngineTurn sleeve s⟩
theorem gate_learnScannerVisit (sleeve : Nat) : Gated (.learnScannerVisit sleeve) := .inl ⟨rfl, rfl, _, fun s => exec_learnScannerVisit sleeve s⟩
theorem gate_generatorReseed : Gated (.generatorReseed) := .inl ⟨rfl, rfl, _, fun s => exec_generatorReseed s⟩
theorem gate_tcamScrubPassStart (sleeve : Nat) (differing : List Nat) : Gated (.tcamScrubPassStart sleeve differing) := .inl ⟨rfl, rfl, _, fun s => exec_tcamScrubPassStart sleeve differing s⟩
theorem gate_tcamBandEval : Gated (.tcamBandEval) := .inl ⟨rfl, rfl, _, fun s => exec_tcamBandEval s⟩
theorem gate_searchWindowBoundary (sleeve : Nat) : Gated (.searchWindowBoundary sleeve) := .inl ⟨rfl, rfl, _, fun s => exec_searchWindowBoundary sleeve s⟩
theorem gate_slotDrainComplete (slot : Nat) : Gated (.slotDrainComplete slot) := .inl ⟨rfl, rfl, _, fun s => exec_slotDrainComplete slot s⟩
theorem gate_preparationStart : Gated (.preparationStart) := .inl ⟨rfl, rfl, _, fun s => exec_preparationStart s⟩
theorem gate_preparationComplete : Gated (.preparationComplete) := .inl ⟨rfl, rfl, _, fun s => exec_preparationComplete s⟩
theorem gate_commitSlotReady : Gated (.commitSlotReady) := .inl ⟨rfl, rfl, _, fun s => exec_commitSlotReady s⟩
theorem gate_commitDeadline (commit : Nat) : Gated (.commitDeadline commit) := .inl ⟨rfl, rfl, _, fun s => exec_commitDeadline commit s⟩
theorem gate_journalWriteDone (ok : Bool) : Gated (.journalWriteDone ok) := .inl ⟨rfl, rfl, _, fun s => exec_journalWriteDone ok s⟩
theorem gate_commitCycle : Gated (.commitCycle) := .inl ⟨rfl, rfl, _, fun s => exec_commitCycle s⟩
theorem gate_overlayDrain (sleeve : Nat) (stage : Nat) : Gated (.overlayDrain sleeve stage) := .inl ⟨rfl, rfl, _, fun s => exec_overlayDrain sleeve stage s⟩
theorem gate_csScrubRead (sleeve : Nat) (stage : Nat) (ecc : Ecc) : Gated (.csScrubRead sleeve stage ecc) := .inl ⟨rfl, rfl, _, fun s => exec_csScrubRead sleeve stage ecc s⟩
theorem gate_csWordRepair (sleeve : Nat) (stage : Nat) (addr : Nat) : Gated (.csWordRepair sleeve stage addr) := .inl ⟨rfl, rfl, _, fun s => exec_csWordRepair sleeve stage addr s⟩
theorem gate_hookGenDrained : Gated (.hookGenDrained) := .inl ⟨rfl, rfl, _, fun s => exec_hookGenDrained s⟩
theorem gate_gateEntryAdvance (port : Nat) : Gated (.gateEntryAdvance port) := .inl ⟨rfl, rfl, _, fun s => exec_gateEntryAdvance port s⟩
theorem gate_gateCycleBoundary (port : Nat) : Gated (.gateCycleBoundary port) := .inl ⟨rfl, rfl, _, fun s => exec_gateCycleBoundary port s⟩
theorem gate_gateConfigChange (port : Nat) : Gated (.gateConfigChange port) := .inl ⟨rfl, rfl, _, fun s => exec_gateConfigChange port s⟩
theorem gate_samplerTick (port : Nat) (tenancy : Nat) : Gated (.samplerTick port tenancy) := .inl ⟨rfl, rfl, _, fun s => exec_samplerTick port tenancy s⟩
theorem gate_keyTakeEffect (slot : Nat) : Gated (.keyTakeEffect slot) := .inl ⟨rfl, rfl, _, fun s => exec_keyTakeEffect slot s⟩
theorem gate_keyEraseComplete (slot : Nat) : Gated (.keyEraseComplete slot) := .inl ⟨rfl, rfl, _, fun s => exec_keyEraseComplete slot s⟩
theorem gate_bulkJobStart : Gated (.bulkJobStart) := .inl ⟨rfl, rfl, _, fun s => exec_bulkJobStart s⟩
theorem gate_bulkJobComplete (engine : Nat) : Gated (.bulkJobComplete engine) := .inl ⟨rfl, rfl, _, fun s => exec_bulkJobComplete engine s⟩
theorem gate_bulkKeyChange (slot : Nat) : Gated (.bulkKeyChange slot) := .inl ⟨rfl, rfl, _, fun s => exec_bulkKeyChange slot s⟩
theorem gate_bootEpochAdvance (readback : Nat) : Gated (.bootEpochAdvance readback) := .inl ⟨rfl, rfl, _, fun s => exec_bootEpochAdvance readback s⟩
theorem gate_bootEpochRetry (readback : Nat) : Gated (.bootEpochRetry readback) := .inl ⟨rfl, rfl, _, fun s => exec_bootEpochRetry readback s⟩
theorem gate_dramCommandIssue (channel : Nat) : Gated (.dramCommandIssue channel) := .inl ⟨rfl, rfl, _, fun s => exec_dramCommandIssue channel s⟩
theorem gate_dramReadComplete (channel : Nat) (ecc : Ecc) : Gated (.dramReadComplete channel ecc) := .inl ⟨rfl, rfl, _, fun s => exec_dramReadComplete channel ecc s⟩
theorem gate_dramSpareTakeover : Gated (.dramSpareTakeover) := .inl ⟨rfl, rfl, _, fun s => exec_dramSpareTakeover s⟩
theorem gate_journalRecopyDone : Gated (.journalRecopyDone) := .inl ⟨rfl, rfl, _, fun s => exec_journalRecopyDone s⟩
theorem gate_dramRefreshIntervalBoundary : Gated (.dramRefreshIntervalBoundary) := .inl ⟨rfl, rfl, _, fun s => exec_dramRefreshIntervalBoundary s⟩
theorem gate_dramRefreshSlot (channel : Nat) : Gated (.dramRefreshSlot channel) := .inl ⟨rfl, rfl, _, fun s => exec_dramRefreshSlot channel s⟩
theorem gate_dramMr4Poll (temps : List Nat) : Gated (.dramMr4Poll temps) := .inl ⟨rfl, rfl, _, fun s => exec_dramMr4Poll temps s⟩
theorem gate_dramIdleSrEntry (channel : Nat) : Gated (.dramIdleSrEntry channel) := .inl ⟨rfl, rfl, _, fun s => exec_dramIdleSrEntry channel s⟩
theorem gate_dramSrExit (channel : Nat) : Gated (.dramSrExit channel) := .inl ⟨rfl, rfl, _, fun s => exec_dramSrExit channel s⟩
theorem gate_dramRateChannelDone (channel : Nat) : Gated (.dramRateChannelDone channel) := .inl ⟨rfl, rfl, _, fun s => exec_dramRateChannelDone channel s⟩
theorem gate_dramMigrationComplete : Gated (.dramMigrationComplete) := .inl ⟨rfl, rfl, _, fun s => exec_dramMigrationComplete s⟩
theorem gate_dramSweepDone (channel : Nat) (windows : List Nat) : Gated (.dramSweepDone channel windows) := .inl ⟨rfl, rfl, _, fun s => exec_dramSweepDone channel windows s⟩
theorem gate_dramSystemScrub (channel : Nat) (errors : Nat) : Gated (.dramSystemScrub channel errors) := .inl ⟨rfl, rfl, _, fun s => exec_dramSystemScrub channel errors s⟩
theorem gate_dramTrainingDone (passed : List Bool) : Gated (.dramTrainingDone passed) := .inl ⟨rfl, rfl, _, fun s => exec_dramTrainingDone passed s⟩
theorem gate_liningRecordWrite (tenancy : Nat) (served : Bool) : Gated (.liningRecordWrite tenancy served) := .inl ⟨rfl, rfl, _, fun s => exec_liningRecordWrite tenancy served s⟩
theorem gate_liningRingDrain : Gated (.liningRingDrain) := .inl ⟨rfl, rfl, _, fun s => exec_liningRingDrain s⟩
theorem gate_snapshotSweepDone (tenancy : Nat) : Gated (.snapshotSweepDone tenancy) := .inl ⟨rfl, rfl, _, fun s => exec_snapshotSweepDone tenancy s⟩
theorem gate_replayEpochSwitch (sleeve : Nat) : Gated (.replayEpochSwitch sleeve) := .inl ⟨rfl, rfl, _, fun s => exec_replayEpochSwitch sleeve s⟩
theorem gate_replayStreamEnd (sleeve : Nat) : Gated (.replayStreamEnd sleeve) := .inl ⟨rfl, rfl, _, fun s => exec_replayStreamEnd sleeve s⟩
theorem gate_replayRestoreDone (sleeve : Nat) : Gated (.replayRestoreDone sleeve) := .inl ⟨rfl, rfl, _, fun s => exec_replayRestoreDone sleeve s⟩
theorem gate_resScrubCommit (res : Nat) : Gated (.resScrubCommit res) := .inl ⟨rfl, rfl, _, fun s => exec_resScrubCommit res s⟩
theorem gate_resDrainDone (res : Nat) : Gated (.resDrainDone res) := .inl ⟨rfl, rfl, _, fun s => exec_resDrainDone res s⟩
theorem gate_resUnitScrubDone (res : Nat) : Gated (.resUnitScrubDone res) := .inl ⟨rfl, rfl, _, fun s => exec_resUnitScrubDone res s⟩
theorem gate_resEpochIssue (res : Nat) : Gated (.resEpochIssue res) := .inl ⟨rfl, rfl, _, fun s => exec_resEpochIssue res s⟩
theorem gate_assignCounterTurn : Gated (.assignCounterTurn) := .inl ⟨rfl, rfl, _, fun s => exec_assignCounterTurn s⟩
theorem gate_maintSessionExpiry (fn : Nat) (session : Nat) : Gated (.maintSessionExpiry fn session) := .inl ⟨rfl, rfl, _, fun s => exec_maintSessionExpiry fn session s⟩
theorem gate_maintNotAfterCheck : Gated (.maintNotAfterCheck) := .inl ⟨rfl, rfl, _, fun s => exec_maintNotAfterCheck s⟩
theorem gate_debugNonceExpiry : Gated (.debugNonceExpiry) := .inl ⟨rfl, rfl, _, fun s => exec_debugNonceExpiry s⟩
theorem gate_rollbackFuseBlow : Gated (.rollbackFuseBlow) := .inl ⟨rfl, rfl, _, fun s => exec_rollbackFuseBlow s⟩
theorem gate_claspHealthTestFail : Gated (.claspHealthTestFail) := .inl ⟨rfl, rfl, _, fun s => exec_claspHealthTestFail s⟩
theorem gate_drawTimeout : Gated (.drawTimeout) := .inl ⟨rfl, rfl, _, fun s => exec_drawTimeout s⟩
theorem gate_helloExpiry (fn : Nat) : Gated (.helloExpiry fn) := .inl ⟨rfl, rfl, _, fun s => exec_helloExpiry fn s⟩
theorem gate_watchdogExpiry (core : Nat) : Gated (.watchdogExpiry core) := .inl ⟨rfl, rfl, _, fun s => exec_watchdogExpiry core s⟩
theorem gate_coreTakeover : Gated (.coreTakeover) := .inl ⟨rfl, rfl, _, fun s => exec_coreTakeover s⟩
theorem gate_heartbeatExpiry (fn : Nat) : Gated (.heartbeatExpiry fn) := .inl ⟨rfl, rfl, _, fun s => exec_heartbeatExpiry fn s⟩
theorem gate_irqCoalesceTimeout (fn : Nat) (ring : Nat) : Gated (.irqCoalesceTimeout fn ring) := .inl ⟨rfl, rfl, _, fun s => exec_irqCoalesceTimeout fn ring s⟩
theorem gate_reqRingEnableWrite (fn : Nat) (on : Bool) : Gated (.reqRingEnableWrite fn on) := .inl ⟨rfl, rfl, _, fun s => exec_reqRingEnableWrite fn on s⟩
theorem gate_rspRingEnableWrite (fn : Nat) (on : Bool) : Gated (.rspRingEnableWrite fn on) := .inl ⟨rfl, rfl, _, fun s => exec_rspRingEnableWrite fn on s⟩
theorem gate_rxRingEnableWrite (fn : Nat) (on : Bool) : Gated (.rxRingEnableWrite fn on) := .inl ⟨rfl, rfl, _, fun s => exec_rxRingEnableWrite fn on s⟩
theorem gate_reqDoorbell (fn : Nat) (tail : Nat) (unknown : List (Nat × Hdr)) : Gated (.reqDoorbell fn tail unknown) := .inl ⟨rfl, rfl, _, fun s => exec_reqDoorbell fn tail unknown s⟩
theorem gate_rspHeadWrite (fn : Nat) (index : Nat) : Gated (.rspHeadWrite fn index) := .inl ⟨rfl, rfl, _, fun s => exec_rspHeadWrite fn index s⟩
theorem gate_rxHeadWrite (fn : Nat) (index : Nat) : Gated (.rxHeadWrite fn index) := .inl ⟨rfl, rfl, _, fun s => exec_rxHeadWrite fn index s⟩
theorem gate_heartbeatKick (fn : Nat) : Gated (.heartbeatKick fn) := .inl ⟨rfl, rfl, _, fun s => exec_heartbeatKick fn s⟩
theorem gate_bootGo (fn : Nat) : Gated (.bootGo fn) := .inl ⟨rfl, rfl, _, fun s => exec_bootGo fn s⟩
theorem gate_bootDoneClear (fn : Nat) : Gated (.bootDoneClear fn) := .inl ⟨rfl, rfl, _, fun s => exec_bootDoneClear fn s⟩
theorem gate_hostLostClear (fn : Nat) : Gated (.hostLostClear fn) := .inl ⟨rfl, rfl, _, fun s => exec_hostLostClear fn s⟩
theorem gate_irqStatusClear (fn : Nat) (mask : Nat) : Gated (.irqStatusClear fn mask) := .inl ⟨rfl, rfl, _, fun s => exec_irqStatusClear fn mask s⟩
theorem gate_registerWrite (fn : Nat) (reg : Reg) (value : Nat) : Gated (.registerWrite fn reg value) := .inl ⟨rfl, rfl, _, fun s => exec_registerWrite fn reg value s⟩
theorem gate_drcSetSwap (channel : Nat) : Gated (.drcSetSwap channel) := .inl ⟨rfl, rfl, _, fun s => exec_drcSetSwap channel s⟩
theorem gate_drcModeRegisterAccess (channel : Nat) (ok : Bool) : Gated (.drcModeRegisterAccess channel ok) := .inl ⟨rfl, rfl, _, fun s => exec_drcModeRegisterAccess channel ok s⟩
theorem gate_drcTrainingRowAccess (channel : Nat) (write : Bool) : Gated (.drcTrainingRowAccess channel write) := .inl ⟨rfl, rfl, _, fun s => exec_drcTrainingRowAccess channel write s⟩
theorem gate_drcReadCompare (channel : Nat) (errors : Nat) : Gated (.drcReadCompare channel errors) := .inl ⟨rfl, rfl, _, fun s => exec_drcReadCompare channel errors s⟩
theorem gate_barMisalignedAccess (fn : Nat) (write : Bool) : Gated (.barMisalignedAccess fn write) := .inl ⟨rfl, rfl, _, fun s => exec_barMisalignedAccess fn write s⟩
theorem gate_pcieLinkUp (speed : Nat) (width : Nat) : Gated (.pcieLinkUp speed width) := .inl ⟨rfl, rfl, _, fun s => exec_pcieLinkUp speed width s⟩
theorem gate_pcieLinkDown : Gated (.pcieLinkDown) := .inl ⟨rfl, rfl, _, fun s => exec_pcieLinkDown s⟩
theorem gate_hotReset : Gated (.hotReset) := .inl ⟨rfl, rfl, _, fun s => exec_hotReset s⟩
theorem gate_functionLevelReset (fn : Nat) : Gated (.functionLevelReset fn) := .inl ⟨rfl, rfl, _, fun s => exec_functionLevelReset fn s⟩
theorem gate_busMasterClear (fn : Nat) : Gated (.busMasterClear fn) := .inl ⟨rfl, rfl, _, fun s => exec_busMasterClear fn s⟩
theorem gate_busMasterSet (fn : Nat) : Gated (.busMasterSet fn) := .inl ⟨rfl, rfl, _, fun s => exec_busMasterSet fn s⟩
theorem gate_d3hotEntry (fn : Nat) : Gated (.d3hotEntry fn) := .inl ⟨rfl, rfl, _, fun s => exec_d3hotEntry fn s⟩
theorem gate_d0Return (fn : Nat) : Gated (.d0Return fn) := .inl ⟨rfl, rfl, _, fun s => exec_d0Return fn s⟩
theorem gate_vfEnableSet (numVfs : Nat) : Gated (.vfEnableSet numVfs) := .inl ⟨rfl, rfl, _, fun s => exec_vfEnableSet numVfs s⟩
theorem gate_vfEnableClear : Gated (.vfEnableClear) := .inl ⟨rfl, rfl, _, fun s => exec_vfEnableClear s⟩
theorem gate_configRequest (fn : Nat) (write : Bool) (ctoValue : Nat) : Gated (.configRequest fn write ctoValue) := .inl ⟨rfl, rfl, _, fun s => exec_configRequest fn write ctoValue s⟩
theorem gate_dmaCompletionArrival (tag : Nat) (status : DmaStatus) : Gated (.dmaCompletionArrival tag status) := .inl ⟨rfl, rfl, _, fun s => exec_dmaCompletionArrival tag status s⟩
theorem gate_completionTimeout (tag : Nat) : Gated (.completionTimeout tag) := .inl ⟨rfl, rfl, _, fun s => exec_completionTimeout tag s⟩
theorem gate_tagQuarantineEnd (tag : Nat) : Gated (.tagQuarantineEnd tag) := .inl ⟨rfl, rfl, _, fun s => exec_tagQuarantineEnd tag s⟩
theorem gate_reqRingFetchRetry (fn : Nat) : Gated (.reqRingFetchRetry fn) := .inl ⟨rfl, rfl, _, fun s => exec_reqRingFetchRetry fn s⟩
theorem gate_teardownFinish (fn : Nat) : Gated (.teardownFinish fn) := .inl ⟨rfl, rfl, _, fun s => exec_teardownFinish fn s⟩
theorem gate_gussetVoltageEval : Gated (.gussetVoltageEval) := .inl ⟨rfl, rfl, _, fun s => exec_gussetVoltageEval s⟩
theorem gate_pmbusReadback (mv : Nat) (acked : Bool) : Gated (.pmbusReadback mv acked) := .inl ⟨rfl, rfl, _, fun s => exec_pmbusReadback mv acked s⟩
theorem gate_pmbusHoldoffEnd : Gated (.pmbusHoldoffEnd) := .inl ⟨rfl, rfl, _, fun s => exec_pmbusHoldoffEnd s⟩
theorem gate_pmbusAlert : Gated (.pmbusAlert) := .inl ⟨rfl, rfl, _, fun s => exec_pmbusAlert s⟩
theorem gate_thermalSample (temps : List Int) : Gated (.thermalSample temps) := .inl ⟨rfl, rfl, _, fun s => exec_thermalSample temps s⟩
theorem gate_ringOscSample (site : Nat) (ratio : Nat) (slack : Int) : Gated (.ringOscSample site ratio slack) := .inl ⟨rfl, rfl, _, fun s => exec_ringOscSample site ratio slack s⟩
theorem gate_sramVminTest (mv : Nat) : Gated (.sramVminTest mv) := .inl ⟨rfl, rfl, _, fun s => exec_sramVminTest mv s⟩
theorem gate_serdesAdaptStep (lane : Nat) (eye : Nat) : Gated (.serdesAdaptStep lane eye) := .inl ⟨rfl, rfl, _, fun s => exec_serdesAdaptStep lane eye s⟩
theorem gate_dramWindowCheck (channel : Nat) (windows : List Nat) (centre : List Int) : Gated (.dramWindowCheck channel windows centre) := .inl ⟨rfl, rfl, _, fun s => exec_dramWindowCheck channel windows centre s⟩
theorem gate_tcamMarginTest (sleeve : Nat) (bank : Nat) (steps : Nat) : Gated (.tcamMarginTest sleeve bank steps) := .inl ⟨rfl, rfl, _, fun s => exec_tcamMarginTest sleeve bank steps s⟩
theorem gate_flashOpCheck (code : Nat) : Gated (.flashOpCheck code) := .inr (.inr ⟨rfl, _, fun s => exec_flashOpCheck code s⟩)
theorem gate_flashDeferRecheck (code : Nat) : Gated (.flashDeferRecheck code) := .inr (.inr ⟨rfl, _, fun s => exec_flashDeferRecheck code s⟩)
theorem gate_flashOpComplete : Gated (.flashOpComplete) := .inr (.inr ⟨rfl, _, fun s => exec_flashOpComplete s⟩)
theorem gate_flashWriteDeadline : Gated (.flashWriteDeadline) := .inl ⟨rfl, rfl, _, fun s => exec_flashWriteDeadline s⟩
theorem gate_powerFailAssert (code : Nat) : Gated (.powerFailAssert code) := .inr (.inr ⟨rfl, _, fun s => exec_powerFailAssert code s⟩)
theorem gate_powerFailDeassert : Gated (.powerFailDeassert) := .inr (.inr ⟨rfl, _, fun s => exec_powerFailDeassert s⟩)
theorem gate_postmortemBufferRefresh : Gated (.postmortemBufferRefresh) := .inl ⟨rfl, rfl, _, fun s => exec_postmortemBufferRefresh s⟩
theorem gate_historyAppend (kind : Nat) : Gated (.historyAppend kind) := .inl ⟨rfl, rfl, _, fun s => exec_historyAppend kind s⟩
theorem gate_islandPowerOnReset : Gated (.islandPowerOnReset) := .inr (.inr ⟨rfl, _, fun s => exec_islandPowerOnReset s⟩)
theorem gate_perstRelease (fusesOk : Bool) : Gated (.perstRelease fusesOk) := .inr (.inr ⟨rfl, _, fun s => exec_perstRelease fusesOk s⟩)
theorem gate_perstAssert : Gated (.perstAssert) := .inr (.inr ⟨rfl, _, fun s => exec_perstAssert s⟩)
theorem gate_railFault : Gated (.railFault) := .inr (.inr ⟨rfl, _, fun s => exec_railFault s⟩)
theorem gate_romImageSelect (flashOk : Bool) : Gated (.romImageSelect flashOk) := .inl ⟨rfl, rfl, _, fun s => exec_romImageSelect flashOk s⟩
theorem gate_firmwareStart : Gated (.firmwareStart) := .inl ⟨rfl, rfl, _, fun s => exec_firmwareStart s⟩
theorem gate_firmwareReady : Gated (.firmwareReady) := .inl ⟨rfl, rfl, _, fun s => exec_firmwareReady s⟩
theorem gate_sleevesEnable : Gated (.sleevesEnable) := .inl ⟨rfl, rfl, _, fun s => exec_sleevesEnable s⟩
theorem gate_ejectRequest : Gated (.ejectRequest) := .inl ⟨rfl, rfl, _, fun s => exec_ejectRequest s⟩
theorem gate_ejectCancel : Gated (.ejectCancel) := .inl ⟨rfl, rfl, _, fun s => exec_ejectCancel s⟩
theorem gate_ejectGraceExpiry : Gated (.ejectGraceExpiry) := .inl ⟨rfl, rfl, _, fun s => exec_ejectGraceExpiry s⟩
theorem gate_ejectReady : Gated (.ejectReady) := .inl ⟨rfl, rfl, _, fun s => exec_ejectReady s⟩
theorem gate_fwStoreComplete (ok : Bool) : Gated (.fwStoreComplete ok) := .inl ⟨rfl, rfl, _, fun s => exec_fwStoreComplete ok s⟩
theorem gate_fwSwitchLoaded : Gated (.fwSwitchLoaded) := .inl ⟨rfl, rfl, _, fun s => exec_fwSwitchLoaded s⟩
theorem gate_fwSwitchResume : Gated (.fwSwitchResume) := .inl ⟨rfl, rfl, _, fun s => exec_fwSwitchResume s⟩
theorem gate_fwSwitchTimeout : Gated (.fwSwitchTimeout) := .inl ⟨rfl, rfl, _, fun s => exec_fwSwitchTimeout s⟩
theorem gate_patchRollSleeveDone (passed : Bool) : Gated (.patchRollSleeveDone passed) := .inl ⟨rfl, rfl, _, fun s => exec_patchRollSleeveDone passed s⟩
theorem gate_svcOutOfServiceDone : Gated (.svcOutOfServiceDone) := .inl ⟨rfl, rfl, _, fun s => exec_svcOutOfServiceDone s⟩
theorem gate_svcDeadline : Gated (.svcDeadline) := .inl ⟨rfl, rfl, _, fun s => exec_svcDeadline s⟩
theorem gate_svcTestDone (passed : Bool) : Gated (.svcTestDone passed) := .inl ⟨rfl, rfl, _, fun s => exec_svcTestDone passed s⟩
theorem gate_coreHandoverDone : Gated (.coreHandoverDone) := .inl ⟨rfl, rfl, _, fun s => exec_coreHandoverDone s⟩
theorem gate_refclkStop : Gated (.refclkStop) := .inr (.inr ⟨rfl, _, fun s => exec_refclkStop s⟩)
theorem gate_srdRefclkLoss (bank : Nat) : Gated (.srdRefclkLoss bank) := .inl ⟨rfl, rfl, _, fun s => exec_srdRefclkLoss bank s⟩
theorem gate_smbusSampleUpdate : Gated (.smbusSampleUpdate) := .inl ⟨rfl, rfl, _, fun s => exec_smbusSampleUpdate s⟩
theorem gate_smbusTj : Gated (.smbusTj) := .inr (.inl ⟨rfl, rfl, _, fun s => (exec_smbusTj s).trans (by unfold execSmbusTj smbTransfer; rfl)⟩)
theorem gate_smbusStage : Gated (.smbusStage) := .inr (.inl ⟨rfl, rfl, _, fun s => (exec_smbusStage s).trans (by unfold execSmbusStage smbTransfer; rfl)⟩)
theorem gate_smbusFlags : Gated (.smbusFlags) := .inr (.inl ⟨rfl, rfl, _, fun s => (exec_smbusFlags s).trans (by unfold execSmbusFlags smbTransfer; rfl)⟩)
theorem gate_smbusCoreMv : Gated (.smbusCoreMv) := .inr (.inl ⟨rfl, rfl, _, fun s => (exec_smbusCoreMv s).trans (by unfold execSmbusCoreMv smbTransfer; rfl)⟩)
theorem gate_smbusEom : Gated (.smbusEom) := .inr (.inl ⟨rfl, rfl, _, fun s => (exec_smbusEom s).trans (by unfold execSmbusEom smbTransfer; rfl)⟩)
theorem gate_smbusSensors : Gated (.smbusSensors) := .inr (.inl ⟨rfl, rfl, _, fun s => (exec_smbusSensors s).trans (by unfold execSmbusSensors smbTransfer; rfl)⟩)
theorem gate_smbusAlertResponse : Gated (.smbusAlertResponse) := .inr (.inl ⟨rfl, rfl, _, fun s => (exec_smbusAlertResponse s).trans (by unfold execSmbusAlertResponse smbTransfer; rfl)⟩)
theorem gate_smbusWriteNack : Gated (.smbusWriteNack) := .inr (.inl ⟨rfl, rfl, _, fun s => (exec_smbusWriteNack s).trans (by unfold execSmbusWriteNack smbTransfer; rfl)⟩)
theorem gate_jtagInstruction (inst : Jtag) : Gated (.jtagInstruction inst) := .inr (.inl ⟨rfl, rfl, _, fun s => exec_jtagInstruction inst s⟩)
theorem gate_slotShareSet (h : Hdr) (r : SlotShareRec) : Gated (.slotShareSet h r) := .inl ⟨rfl, rfl, _, fun s => exec_slotShareSet h r s⟩
theorem gate_slotStatusGet (h : Hdr) (sleeve : Nat) : Gated (.slotStatusGet h sleeve) := .inl ⟨rfl, rfl, _, fun s => exec_slotStatusGet h sleeve s⟩
theorem gate_ptpPortSet (h : Hdr) (r : PtpPortRec) : Gated (.ptpPortSet h r) := .inl ⟨rfl, rfl, _, fun s => exec_ptpPortSet h r s⟩
theorem gate_timeStatusGet (h : Hdr) : Gated (.timeStatusGet h) := .inl ⟨rfl, rfl, _, fun s => exec_timeStatusGet h s⟩
theorem gate_timeIoSet (h : Hdr) (r : TimeIoRec) : Gated (.timeIoSet h r) := .inl ⟨rfl, rfl, _, fun s => exec_timeIoSet h r s⟩
theorem gate_timeAdjust (h : Hdr) (r : TimeAdjustRec) : Gated (.timeAdjust h r) := .inl ⟨rfl, rfl, _, fun s => exec_timeAdjust h r s⟩
theorem gate_hemCountersGet (h : Hdr) : Gated (.hemCountersGet h) := .inl ⟨rfl, rfl, _, fun s => exec_hemCountersGet h s⟩
theorem gate_cuffAttach (h : Hdr) (r : CuffAttachRec) : Gated (.cuffAttach h r) := .inl ⟨rfl, rfl, _, fun s => exec_cuffAttach h r s⟩
theorem gate_portConfigSet (h : Hdr) (r : PortConfigRec) : Gated (.portConfigSet h r) := .inl ⟨rfl, rfl, _, fun s => exec_portConfigSet h r s⟩
theorem gate_portStatusGet (h : Hdr) (port : Nat) : Gated (.portStatusGet h port) := .inl ⟨rfl, rfl, _, fun s => exec_portStatusGet h port s⟩
theorem gate_macStatsGet (h : Hdr) (port : Nat) : Gated (.macStatsGet h port) := .inl ⟨rfl, rfl, _, fun s => exec_macStatsGet h port s⟩
theorem gate_parsePortSet (h : Hdr) (r : ParsePortRec) : Gated (.parsePortSet h r) := .inl ⟨rfl, rfl, _, fun s => exec_parsePortSet h r s⟩
theorem gate_patternSet (h : Hdr) (r : PatternRec) : Gated (.patternSet h r) := .inl ⟨rfl, rfl, _, fun s => exec_patternSet h r s⟩
theorem gate_patternClear (h : Hdr) (index : Nat) : Gated (.patternClear h index) := .inl ⟨rfl, rfl, _, fun s => exec_patternClear h index s⟩
theorem gate_fragConfigSet (h : Hdr) (r : FragConfigRec) : Gated (.fragConfigSet h r) := .inl ⟨rfl, rfl, _, fun s => exec_fragConfigSet h r s⟩
theorem gate_parseStatsGet (h : Hdr) (kind : Nat) (unit : Nat) (tenancy : Nat) : Gated (.parseStatsGet h kind unit tenancy) := .inl ⟨rfl, rfl, _, fun s => exec_parseStatsGet h kind unit tenancy s⟩
theorem gate_flowProfileSet (h : Hdr) (r : ProfileRec) : Gated (.flowProfileSet h r) := .inl ⟨rfl, rfl, _, fun s => exec_flowProfileSet h r s⟩
theorem gate_flowAdd (h : Hdr) (r : FlowAddRec) : Gated (.flowAdd h r) := .inl ⟨rfl, rfl, _, fun s => exec_flowAdd h r s⟩
theorem gate_flowDel (h : Hdr) (r : FlowDelRec) : Gated (.flowDel h r) := .inl ⟨rfl, rfl, _, fun s => exec_flowDel h r s⟩
theorem gate_flowRead (h : Hdr) : Gated (.flowRead h) := .inl ⟨rfl, rfl, _, fun s => exec_flowRead h s⟩
theorem gate_learnPolicySet (h : Hdr) (r : LearnPolicyRec) : Gated (.learnPolicySet h r) := .inl ⟨rfl, rfl, _, fun s => exec_learnPolicySet h r s⟩
theorem gate_learnQuotaSet (h : Hdr) (r : LearnQuotaRec) : Gated (.learnQuotaSet h r) := .inl ⟨rfl, rfl, _, fun s => exec_learnQuotaSet h r s⟩
theorem gate_learnPortSet (h : Hdr) (r : LearnPortRec) : Gated (.learnPortSet h r) := .inl ⟨rfl, rfl, _, fun s => exec_learnPortSet h r s⟩
theorem gate_learnStaticSet (h : Hdr) (r : LearnStaticRec) : Gated (.learnStaticSet h r) := .inl ⟨rfl, rfl, _, fun s => exec_learnStaticSet h r s⟩
theorem gate_learnFlush (h : Hdr) (r : LearnFlushRec) : Gated (.learnFlush h r) := .inl ⟨rfl, rfl, _, fun s => exec_learnFlush h r s⟩
theorem gate_learnRead (h : Hdr) (sleeve : Nat) : Gated (.learnRead h sleeve) := .inl ⟨rfl, rfl, _, fun s => exec_learnRead h sleeve s⟩
theorem gate_tableStatsGet (h : Hdr) (sleeve : Nat) : Gated (.tableStatsGet h sleeve) := .inl ⟨rfl, rfl, _, fun s => exec_tableStatsGet h sleeve s⟩
theorem gate_tcamProfileSet (h : Hdr) (r : ProfileRec) : Gated (.tcamProfileSet h r) := .inl ⟨rfl, rfl, _, fun s => exec_tcamProfileSet h r s⟩
theorem gate_tcamWrite (h : Hdr) (r : TcamWriteRec) : Gated (.tcamWrite h r) := .inl ⟨rfl, rfl, _, fun s => exec_tcamWrite h r s⟩
theorem gate_tcamClear (h : Hdr) (index : Nat) : Gated (.tcamClear h index) := .inl ⟨rfl, rfl, _, fun s => exec_tcamClear h index s⟩
theorem gate_tcamIterate (h : Hdr) (r : TcamIterateRec) : Gated (.tcamIterate h r) := .inl ⟨rfl, rfl, _, fun s => exec_tcamIterate h r s⟩
theorem gate_tcamThrottleSet (h : Hdr) (r : TcamThrottleRec) : Gated (.tcamThrottleSet h r) := .inl ⟨rfl, rfl, _, fun s => exec_tcamThrottleSet h r s⟩
theorem gate_tcamStatusGet (h : Hdr) (sleeve : Nat) : Gated (.tcamStatusGet h sleeve) := .inl ⟨rfl, rfl, _, fun s => exec_tcamStatusGet h sleeve s⟩
theorem gate_tblCommit (h : Hdr) (deadlineMs : Nat) : Gated (.tblCommit h deadlineMs) := .inl ⟨rfl, rfl, _, fun s => exec_tblCommit h deadlineMs s⟩
theorem gate_tblAbort (h : Hdr) : Gated (.tblAbort h) := .inl ⟨rfl, rfl, _, fun s => exec_tblAbort h s⟩
theorem gate_versionStatusGet (h : Hdr) : Gated (.versionStatusGet h) := .inl ⟨rfl, rfl, _, fun s => exec_versionStatusGet h s⟩
theorem gate_actTenancySet (h : Hdr) (r : ActTenancyRec) : Gated (.actTenancySet h r) := .inl ⟨rfl, rfl, _, fun s => exec_actTenancySet h r s⟩
theorem gate_floodGroupSet (h : Hdr) (r : FloodGroupRec) : Gated (.floodGroupSet h r) := .inl ⟨rfl, rfl, _, fun s => exec_floodGroupSet h r s⟩
theorem gate_mirrorSessionSet (h : Hdr) (r : MirrorSessionRec) : Gated (.mirrorSessionSet h r) := .inl ⟨rfl, rfl, _, fun s => exec_mirrorSessionSet h r s⟩
theorem gate_copyLimitSet (h : Hdr) (r : CopyLimitRec) : Gated (.copyLimitSet h r) := .inl ⟨rfl, rfl, _, fun s => exec_copyLimitSet h r s⟩
theorem gate_actionSet (h : Hdr) (r : ActionRec) : Gated (.actionSet h r) := .inl ⟨rfl, rfl, _, fun s => exec_actionSet h r s⟩
theorem gate_actionClear (h : Hdr) (index : Nat) : Gated (.actionClear h index) := .inl ⟨rfl, rfl, _, fun s => exec_actionClear h index s⟩
theorem gate_actStatsGet (h : Hdr) : Gated (.actStatsGet h) := .inl ⟨rfl, rfl, _, fun s => exec_actStatsGet h s⟩
theorem gate_templateSet (h : Hdr) (r : TemplateRec) : Gated (.templateSet h r) := .inl ⟨rfl, rfl, _, fun s => exec_templateSet h r s⟩
theorem gate_ucodeLoad (h : Hdr) (r : UcodeLoadRec) (img : UcodeImage) : Gated (.ucodeLoad h r img) := .inl ⟨rfl, rfl, _, fun s => exec_ucodeLoad h r img s⟩
theorem gate_ucodeAccept (h : Hdr) (r : UcodeAcceptRec) : Gated (.ucodeAccept h r) := .inl ⟨rfl, rfl, _, fun s => exec_ucodeAccept h r s⟩
theorem gate_ucodeActivate (h : Hdr) (r : UcodeActivateRec) : Gated (.ucodeActivate h r) := .inl ⟨rfl, rfl, _, fun s => exec_ucodeActivate h r s⟩
theorem gate_custMemWrite (h : Hdr) (r : CustMemRec) : Gated (.custMemWrite h r) := .inl ⟨rfl, rfl, _, fun s => exec_custMemWrite h r s⟩
theorem gate_custMemRead (h : Hdr) (r : CustMemRec) : Gated (.custMemRead h r) := .inl ⟨rfl, rfl, _, fun s => exec_custMemRead h r s⟩
theorem gate_ucodeStatusGet (h : Hdr) : Gated (.ucodeStatusGet h) := .inl ⟨rfl, rfl, _, fun s => exec_ucodeStatusGet h s⟩
theorem gate_poolSet (h : Hdr) (r : PoolRec) : Gated (.poolSet h r) := .inl ⟨rfl, rfl, _, fun s => exec_poolSet h r s⟩
theorem gate_queueBufSet (h : Hdr) (r : QueueBufRec) : Gated (.queueBufSet h r) := .inl ⟨rfl, rfl, _, fun s => exec_queueBufSet h r s⟩
theorem gate_bufGlobalSet (h : Hdr) (regionMib : Nat) : Gated (.bufGlobalSet h regionMib) := .inl ⟨rfl, rfl, _, fun s => exec_bufGlobalSet h regionMib s⟩
theorem gate_yokeStatsGet (h : Hdr) : Gated (.yokeStatsGet h) := .inl ⟨rfl, rfl, _, fun s => exec_yokeStatsGet h s⟩
theorem gate_poolStatusGet (h : Hdr) (pool : Nat) (pocket : Nat) : Gated (.poolStatusGet h pool pocket) := .inl ⟨rfl, rfl, _, fun s => exec_poolStatusGet h pool pocket s⟩
theorem gate_meterBind (h : Hdr) (r : MeterBindRec) : Gated (.meterBind h r) := .inl ⟨rfl, rfl, _, fun s => exec_meterBind h r s⟩
theorem gate_meterUnbind (h : Hdr) (index : Nat) : Gated (.meterUnbind h index) := .inl ⟨rfl, rfl, _, fun s => exec_meterUnbind h index s⟩
theorem gate_meterTenancySet (h : Hdr) (r : MeterTenancyRec) : Gated (.meterTenancySet h r) := .inl ⟨rfl, rfl, _, fun s => exec_meterTenancySet h r s⟩
theorem gate_meterStatsGet (h : Hdr) (index : Nat) : Gated (.meterStatsGet h index) := .inl ⟨rfl, rfl, _, fun s => exec_meterStatsGet h index s⟩
theorem gate_schedPortSet (h : Hdr) (r : SchedPortRec) : Gated (.schedPortSet h r) := .inl ⟨rfl, rfl, _, fun s => exec_schedPortSet h r s⟩
theorem gate_schedQueueSet (h : Hdr) (r : SchedQueueRec) : Gated (.schedQueueSet h r) := .inl ⟨rfl, rfl, _, fun s => exec_schedQueueSet h r s⟩
theorem gate_gateConfigSet (h : Hdr) (r : GateConfigRec) : Gated (.gateConfigSet h r) := .inl ⟨rfl, rfl, _, fun s => exec_gateConfigSet h r s⟩
theorem gate_gateEntriesSet (h : Hdr) (r : GateEntriesRec) : Gated (.gateEntriesSet h r) := .inl ⟨rfl, rfl, _, fun s => exec_gateEntriesSet h r s⟩
theorem gate_samplerQuotaSet (h : Hdr) (r : SamplerQuotaRec) : Gated (.samplerQuotaSet h r) := .inl ⟨rfl, rfl, _, fun s => exec_samplerQuotaSet h r s⟩
theorem gate_samplerSet (h : Hdr) (r : SamplerRec) : Gated (.samplerSet h r) := .inl ⟨rfl, rfl, _, fun s => exec_samplerSet h r s⟩
theorem gate_sampleRead (h : Hdr) (maxRecords : Nat) : Gated (.sampleRead h maxRecords) := .inl ⟨rfl, rfl, _, fun s => exec_sampleRead h maxRecords s⟩
theorem gate_schedStatsGet (h : Hdr) (kind : Nat) (unit : Nat) : Gated (.schedStatsGet h kind unit) := .inl ⟨rfl, rfl, _, fun s => exec_schedStatsGet h kind unit s⟩
theorem gate_gateStatusGet (h : Hdr) (port : Nat) : Gated (.gateStatusGet h port) := .inl ⟨rfl, rfl, _, fun s => exec_gateStatusGet h port s⟩
theorem gate_relProfileSet (h : Hdr) (r : RelProfileRec) : Gated (.relProfileSet h r) := .inl ⟨rfl, rfl, _, fun s => exec_relProfileSet h r s⟩
theorem gate_relProfileClear (h : Hdr) (index : Nat) : Gated (.relProfileClear h index) := .inl ⟨rfl, rfl, _, fun s => exec_relProfileClear h index s⟩
theorem gate_relTenancySet (h : Hdr) (flags : Nat) : Gated (.relTenancySet h flags) := .inl ⟨rfl, rfl, _, fun s => exec_relTenancySet h flags s⟩
theorem gate_relPortSet (h : Hdr) (port : Nat) (calLimit : Nat) : Gated (.relPortSet h port calLimit) := .inl ⟨rfl, rfl, _, fun s => exec_relPortSet h port calLimit s⟩
theorem gate_relStatsGet (h : Hdr) (kind : Nat) (unit : Nat) : Gated (.relStatsGet h kind unit) := .inl ⟨rfl, rfl, _, fun s => exec_relStatsGet h kind unit s⟩
theorem gate_relProfileRead (h : Hdr) (index : Nat) : Gated (.relProfileRead h index) := .inl ⟨rfl, rfl, _, fun s => exec_relProfileRead h index s⟩
theorem gate_macsecPortSet (h : Hdr) (r : MacsecPortRec) : Gated (.macsecPortSet h r) := .inl ⟨rfl, rfl, _, fun s => exec_macsecPortSet h r s⟩
theorem gate_macsecScSet (h : Hdr) (r : MacsecScRec) : Gated (.macsecScSet h r) := .inl ⟨rfl, rfl, _, fun s => exec_macsecScSet h r s⟩
theorem gate_macsecTxAnSet (h : Hdr) (sc : Nat) (an : Nat) : Gated (.macsecTxAnSet h sc an) := .inl ⟨rfl, rfl, _, fun s => exec_macsecTxAnSet h sc an s⟩
theorem gate_keyLoad (h : Hdr) (r : KeyLoadRec) : Gated (.keyLoad h r) := .inl ⟨rfl, rfl, _, fun s => exec_keyLoad h r s⟩
theorem gate_keyErase (h : Hdr) (r : KeyEraseRec) : Gated (.keyErase h r) := .inl ⟨rfl, rfl, _, fun s => exec_keyErase h r s⟩
theorem gate_macsecSaStatusGet (h : Hdr) (slot : Nat) : Gated (.macsecSaStatusGet h slot) := .inl ⟨rfl, rfl, _, fun s => exec_macsecSaStatusGet h slot s⟩
theorem gate_bulkOpen (h : Hdr) (r : BulkOpenRec) : Gated (.bulkOpen h r) := .inl ⟨rfl, rfl, _, fun s => exec_bulkOpen h r s⟩
theorem gate_bulkSegment (h : Hdr) (r : BulkSegmentRec) : Gated (.bulkSegment h r) := .inl ⟨rfl, rfl, _, fun s => exec_bulkSegment h r s⟩
theorem gate_bulkClose (h : Hdr) (message : Nat) : Gated (.bulkClose h message) := .inl ⟨rfl, rfl, _, fun s => exec_bulkClose h message s⟩
theorem gate_bulkConfigSet (h : Hdr) (quota : List Nat) : Gated (.bulkConfigSet h quota) := .inl ⟨rfl, rfl, _, fun s => exec_bulkConfigSet h quota s⟩
theorem gate_macsecStatsGet (h : Hdr) (port : Nat) : Gated (.macsecStatsGet h port) := .inl ⟨rfl, rfl, _, fun s => exec_macsecStatsGet h port s⟩
theorem gate_bulkStatsGet (h : Hdr) : Gated (.bulkStatsGet h) := .inl ⟨rfl, rfl, _, fun s => exec_bulkStatsGet h s⟩
theorem gate_dramConfigSet (h : Hdr) (r : DramConfigRec) : Gated (.dramConfigSet h r) := .inl ⟨rfl, rfl, _, fun s => exec_dramConfigSet h r s⟩
theorem gate_dramChannelSet (h : Hdr) (r : DramChannelRec) : Gated (.dramChannelSet h r) := .inl ⟨rfl, rfl, _, fun s => exec_dramChannelSet h r s⟩
theorem gate_dramStatusGet (h : Hdr) : Gated (.dramStatusGet h) := .inl ⟨rfl, rfl, _, fun s => exec_dramStatusGet h s⟩
theorem gate_recStoreSet (h : Hdr) (r : RecStoreRec) : Gated (.recStoreSet h r) := .inl ⟨rfl, rfl, _, fun s => exec_recStoreSet h r s⟩
theorem gate_recArm (h : Hdr) (r : RecArmRec) : Gated (.recArm h r) := .inl ⟨rfl, rfl, _, fun s => exec_recArm h r s⟩
theorem gate_recTrigger (h : Hdr) : Gated (.recTrigger h) := .inl ⟨rfl, rfl, _, fun s => exec_recTrigger h s⟩
theorem gate_recStop (h : Hdr) : Gated (.recStop h) := .inl ⟨rfl, rfl, _, fun s => exec_recStop h s⟩
theorem gate_recClear (h : Hdr) : Gated (.recClear h) := .inl ⟨rfl, rfl, _, fun s => exec_recClear h s⟩
theorem gate_recExport (h : Hdr) (r : RecExportRec) : Gated (.recExport h r) := .inl ⟨rfl, rfl, _, fun s => exec_recExport h r s⟩
theorem gate_recStatusGet (h : Hdr) : Gated (.recStatusGet h) := .inl ⟨rfl, rfl, _, fun s => exec_recStatusGet h s⟩
theorem gate_replayRun (h : Hdr) (r : ReplayRunRec) : Gated (.replayRun h r) := .inl ⟨rfl, rfl, _, fun s => exec_replayRun h r s⟩
theorem gate_replayAbort (h : Hdr) (sleeve : Nat) : Gated (.replayAbort h sleeve) := .inl ⟨rfl, rfl, _, fun s => exec_replayAbort h sleeve s⟩
theorem gate_replayReportRead (h : Hdr) (maxEntries : Nat) : Gated (.replayReportRead h maxEntries) := .inl ⟨rfl, rfl, _, fun s => exec_replayReportRead h maxEntries s⟩
theorem gate_portTenancySet (h : Hdr) (r : PortTenancyRec) : Gated (.portTenancySet h r) := .inl ⟨rfl, rfl, _, fun s => exec_portTenancySet h r s⟩
theorem gate_resAssign (h : Hdr) (r : ResAssignRec) : Gated (.resAssign h r) := .inl ⟨rfl, rfl, _, fun s => exec_resAssign h r s⟩
theorem gate_resStatusGet (h : Hdr) (kind : Nat) : Gated (.resStatusGet h kind) := .inl ⟨rfl, rfl, _, fun s => exec_resStatusGet h kind s⟩
theorem gate_ownerKeySet (h : Hdr) (key : Nat) (sigOk : Bool) : Gated (.ownerKeySet h key sigOk) := .inl ⟨rfl, rfl, _, fun s => exec_ownerKeySet h key sigOk s⟩
theorem gate_tenantEnrol (h : Hdr) (r : TenantEnrolRec) : Gated (.tenantEnrol h r) := .inl ⟨rfl, rfl, _, fun s => exec_tenantEnrol h r s⟩
theorem gate_rollbackAdvance (h : Hdr) (target : Nat) : Gated (.rollbackAdvance h target) := .inl ⟨rfl, rfl, _, fun s => exec_rollbackAdvance h target s⟩
theorem gate_attestGet (h : Hdr) (nonce : Nat) : Gated (.attestGet h nonce) := .inl ⟨rfl, rfl, _, fun s => exec_attestGet h nonce s⟩
theorem gate_debugNonceGet (h : Hdr) : Gated (.debugNonceGet h) := .inl ⟨rfl, rfl, _, fun s => exec_debugNonceGet h s⟩
theorem gate_debugUnlock (h : Hdr) (owner : Sys2Proof.Token) (vendor : Sys2Proof.Token) : Gated (.debugUnlock h owner vendor) := .inl ⟨rfl, rfl, _, fun s => exec_debugUnlock h owner vendor s⟩
theorem gate_sessionHello (h : Hdr) (hostNonce : Nat) : Gated (.sessionHello h hostNonce) := .inl ⟨rfl, rfl, _, fun s => exec_sessionHello h hostNonce s⟩
theorem gate_sessionOpen (h : Hdr) (r : SessionOpenRec) : Gated (.sessionOpen h r) := .inl ⟨rfl, rfl, _, fun s => exec_sessionOpen h r s⟩
theorem gate_sessionClose (h : Hdr) : Gated (.sessionClose h) := .inl ⟨rfl, rfl, _, fun s => exec_sessionClose h s⟩
theorem gate_eventMaskSet (h : Hdr) (mask : Nat) : Gated (.eventMaskSet h mask) := .inl ⟨rfl, rfl, _, fun s => exec_eventMaskSet h mask s⟩
theorem gate_mbxStatsGet (h : Hdr) : Gated (.mbxStatsGet h) := .inl ⟨rfl, rfl, _, fun s => exec_mbxStatsGet h s⟩
theorem gate_hostStatusGet (h : Hdr) : Gated (.hostStatusGet h) := .inl ⟨rfl, rfl, _, fun s => exec_hostStatusGet h s⟩
theorem gate_gusConfigSet (h : Hdr) (r : GusConfigRec) : Gated (.gusConfigSet h r) := .inl ⟨rfl, rfl, _, fun s => exec_gusConfigSet h r s⟩
theorem gate_gusStatusGet (h : Hdr) : Gated (.gusStatusGet h) := .inl ⟨rfl, rfl, _, fun s => exec_gusStatusGet h s⟩
theorem gate_gusHistoryRead (h : Hdr) (first : Nat) (count : Nat) : Gated (.gusHistoryRead h first count) := .inl ⟨rfl, rfl, _, fun s => exec_gusHistoryRead h first count s⟩
theorem gate_gusPostmortemRead (h : Hdr) (slot : Nat) : Gated (.gusPostmortemRead h slot) := .inl ⟨rfl, rfl, _, fun s => exec_gusPostmortemRead h slot s⟩
theorem gate_svcUnitSet (h : Hdr) (r : SvcUnitRec) : Gated (.svcUnitSet h r) := .inl ⟨rfl, rfl, _, fun s => exec_svcUnitSet h r s⟩
theorem gate_svcTest (h : Hdr) (r : SvcTestRec) : Gated (.svcTest h r) := .inl ⟨rfl, rfl, _, fun s => exec_svcTest h r s⟩
theorem gate_svcStatusGet (h : Hdr) : Gated (.svcStatusGet h) := .inl ⟨rfl, rfl, _, fun s => exec_svcStatusGet h s⟩
theorem gate_fwStore (h : Hdr) (r : FwStoreRec) : Gated (.fwStore h r) := .inl ⟨rfl, rfl, _, fun s => exec_fwStore h r s⟩
theorem gate_fwSwitch (h : Hdr) (digest : Nat) : Gated (.fwSwitch h digest) := .inl ⟨rfl, rfl, _, fun s => exec_fwSwitch h digest s⟩
theorem gate_fwCommit (h : Hdr) (digest : Nat) : Gated (.fwCommit h digest) := .inl ⟨rfl, rfl, _, fun s => exec_fwCommit h digest s⟩
theorem gate_patchRoll (h : Hdr) (digest : Nat) : Gated (.patchRoll h digest) := .inl ⟨rfl, rfl, _, fun s => exec_patchRoll h digest s⟩
theorem gate_ejectConfigSet (h : Hdr) (r : EjectConfigRec) : Gated (.ejectConfigSet h r) := .inl ⟨rfl, rfl, _, fun s => exec_ejectConfigSet h r s⟩
theorem gate_svcEject (h : Hdr) (op : Nat) : Gated (.svcEject h op) := .inl ⟨rfl, rfl, _, fun s => exec_svcEject h op s⟩
theorem gate_bootInfo (h : Hdr) : Gated (.bootInfo h) := .inl ⟨rfl, rfl, _, fun s => exec_bootInfo h s⟩
theorem gate_bootImageLoad (h : Hdr) (len : Nat) (img : FwImage) : Gated (.bootImageLoad h len img) := .inl ⟨rfl, rfl, _, fun s => exec_bootImageLoad h len img s⟩
theorem gate_ucodeActivateTimeout : Gated (.ucodeActivateTimeout) := .inl ⟨rfl, rfl, _, fun s => exec_ucodeActivateTimeout s⟩
theorem gate_dramChannelTimeout : Gated (.dramChannelTimeout) := .inl ⟨rfl, rfl, _, fun s => exec_dramChannelTimeout s⟩
theorem gate_scrubQueueDiscard (port : Nat) (queue : Nat) : Gated (.scrubQueueDiscard port queue) := .inl ⟨rfl, rfl, _, fun s => exec_scrubQueueDiscard port queue s⟩
theorem gate_ejectFlashAbandon : Gated (.ejectFlashAbandon) := .inl ⟨rfl, rfl, _, fun s => exec_ejectFlashAbandon s⟩

/-- Every command is one function of the device behind one of three gates. -/
theorem exec_gate (c : Instr) : Gated c :=
  match c with
  | .frameRxStart port fid lag bytes => gate_frameRxStart port fid lag bytes
  | .tenancyMapLookup fid => gate_tenancyMapLookup fid
  | .rxNextPocket fid => gate_rxNextPocket fid
  | .sliceOffer fid => gate_sliceOffer fid
  | .frameRxEnd fid fcsOk => gate_frameRxEnd fid fcsOk
  | .macsecRxVerify fid => gate_macsecRxVerify fid
  | .macsecRxDeliver fid => gate_macsecRxDeliver fid
  | .fecCodewordDecode lane result => gate_fecCodewordDecode lane result
  | .slotGrant sleeve work => gate_slotGrant sleeve work
  | .parse fid => gate_parse fid
  | .payloadPatternMatch fid => gate_payloadPatternMatch fid
  | .fragmentLookup fid => gate_fragmentLookup fid
  | .fragmentWriteBack fid => gate_fragmentWriteBack fid
  | .fragSweepVisit sleeve => gate_fragSweepVisit sleeve
  | .flowKeyBuild fid => gate_flowKeyBuild fid
  | .flowLookup fid ecc => gate_flowLookup fid ecc
  | .learnLookup fid ecc => gate_learnLookup fid ecc
  | .tcamSearch fid spurious missed => gate_tcamSearch fid spurious missed
  | .meterAccess fid ecc => gate_meterAccess fid ecc
  | .colourAction fid => gate_colourAction fid
  | .actionSelect fid => gate_actionSelect fid
  | .forwardResolve fid => gate_forwardResolve fid
  | .ttlCopyMirror fid => gate_ttlCopyMirror fid
  | .rewriteCompile fid => gate_rewriteCompile fid
  | .releaseClassify fid => gate_releaseClassify fid
  | .enqueueDecision fid => gate_enqueueDecision fid
  | .egressHandoff fid => gate_egressHandoff fid
  | .seamClaim port => gate_seamClaim port
  | .seamLaunch port => gate_seamLaunch port
  | .enqueue fid => gate_enqueue fid
  | .copyMirrorRead fid served => gate_copyMirrorRead fid served
  | .rxRingCopyWrite fn => gate_rxRingCopyWrite fn
  | .spillWriteDone fid => gate_spillWriteDone fid
  | .spillReturn port queue => gate_spillReturn port queue
  | .spillReturnRetry port queue => gate_spillReturnRetry port queue
  | .calendarRelease port => gate_calendarRelease port
  | .schedulerSelect port => gate_schedulerSelect port
  | .frameTxStart port ecc => gate_frameTxStart port ecc
  | .frameTxEnd port => gate_frameTxEnd port
  | .cachePrefetch unit pool => gate_cachePrefetch unit pool
  | .cacheIdleReturn unit => gate_cacheIdleReturn unit
  | .cacheLowWaterReturn pool => gate_cacheLowWaterReturn pool
  | .sojournCheck port => gate_sojournCheck port
  | .linkDownFlush port => gate_linkDownFlush port
  | .linkHoldExpiry port => gate_linkHoldExpiry port
  | .laneLockAcquire lane kind => gate_laneLockAcquire lane kind
  | .laneLockLoss lane kind => gate_laneLockLoss lane kind
  | .synceResume out => gate_synceResume out
  | .remoteFaultRx port present => gate_remoteFaultRx port present
  | .downHoldExpiry port => gate_downHoldExpiry port
  | .anResolved port mode fec => gate_anResolved port mode fec
  | .trainingComplete port => gate_trainingComplete port
  | .trainingTimeout port => gate_trainingTimeout port
  | .upHoldExpiry port => gate_upHoldExpiry port
  | .cuffFenceDrained cuff => gate_cuffFenceDrained cuff
  | .cuffMoveTimeout cuff => gate_cuffMoveTimeout cuff
  | .portSettingEffect port dir => gate_portSettingEffect port dir
  | .ptpSettingEffect port dir => gate_ptpSettingEffect port dir
  | .macsecSettingEffect port dir => gate_macsecSettingEffect port dir
  | .tenancyLossEffect port dir => gate_tenancyLossEffect port dir
  | .hemTimeAdvance cycles => gate_hemTimeAdvance cycles
  | .servoUpdate offsetNs freqAdj => gate_servoUpdate offsetNs freqAdj
  | .sourceLost source => gate_sourceLost source
  | .sourceValid source => gate_sourceValid source
  | .ppsInEdge => gate_ppsInEdge
  | .ppsInMissing => gate_ppsInMissing
  | .ppsOutEdge => gate_ppsOutEdge
  | .ppsOutPulseEnd => gate_ppsOutPulseEnd
  | .todTx => gate_todTx
  | .todRx bytes => gate_todRx bytes
  | .flowIdleScan tenancy => gate_flowIdleScan tenancy
  | .learnEngineTurn sleeve => gate_learnEngineTurn sleeve
  | .learnScannerVisit sleeve => gate_learnScannerVisit sleeve
  | .generatorReseed => gate_generatorReseed
  | .tcamScrubPassStart sleeve differing => gate_tcamScrubPassStart sleeve differing
  | .tcamBandEval => gate_tcamBandEval
  | .searchWindowBoundary sleeve => gate_searchWindowBoundary sleeve
  | .slotDrainComplete slot => gate_slotDrainComplete slot
  | .preparationStart => gate_preparationStart
  | .preparationComplete => gate_preparationComplete
  | .commitSlotReady => gate_commitSlotReady
  | .commitDeadline commit => gate_commitDeadline commit
  | .journalWriteDone ok => gate_journalWriteDone ok
  | .commitCycle => gate_commitCycle
  | .overlayDrain sleeve stage => gate_overlayDrain sleeve stage
  | .csScrubRead sleeve stage ecc => gate_csScrubRead sleeve stage ecc
  | .csWordRepair sleeve stage addr => gate_csWordRepair sleeve stage addr
  | .hookGenDrained => gate_hookGenDrained
  | .gateEntryAdvance port => gate_gateEntryAdvance port
  | .gateCycleBoundary port => gate_gateCycleBoundary port
  | .gateConfigChange port => gate_gateConfigChange port
  | .samplerTick port tenancy => gate_samplerTick port tenancy
  | .keyTakeEffect slot => gate_keyTakeEffect slot
  | .keyEraseComplete slot => gate_keyEraseComplete slot
  | .bulkJobStart => gate_bulkJobStart
  | .bulkJobComplete engine => gate_bulkJobComplete engine
  | .bulkKeyChange slot => gate_bulkKeyChange slot
  | .bootEpochAdvance readback => gate_bootEpochAdvance readback
  | .bootEpochRetry readback => gate_bootEpochRetry readback
  | .dramCommandIssue channel => gate_dramCommandIssue channel
  | .dramReadComplete channel ecc => gate_dramReadComplete channel ecc
  | .dramSpareTakeover => gate_dramSpareTakeover
  | .journalRecopyDone => gate_journalRecopyDone
  | .dramRefreshIntervalBoundary => gate_dramRefreshIntervalBoundary
  | .dramRefreshSlot channel => gate_dramRefreshSlot channel
  | .dramMr4Poll temps => gate_dramMr4Poll temps
  | .dramIdleSrEntry channel => gate_dramIdleSrEntry channel
  | .dramSrExit channel => gate_dramSrExit channel
  | .dramRateChannelDone channel => gate_dramRateChannelDone channel
  | .dramMigrationComplete => gate_dramMigrationComplete
  | .dramSweepDone channel windows => gate_dramSweepDone channel windows
  | .dramSystemScrub channel errors => gate_dramSystemScrub channel errors
  | .dramTrainingDone passed => gate_dramTrainingDone passed
  | .liningRecordWrite tenancy served => gate_liningRecordWrite tenancy served
  | .liningRingDrain => gate_liningRingDrain
  | .snapshotSweepDone tenancy => gate_snapshotSweepDone tenancy
  | .replayEpochSwitch sleeve => gate_replayEpochSwitch sleeve
  | .replayStreamEnd sleeve => gate_replayStreamEnd sleeve
  | .replayRestoreDone sleeve => gate_replayRestoreDone sleeve
  | .resScrubCommit res => gate_resScrubCommit res
  | .resDrainDone res => gate_resDrainDone res
  | .resUnitScrubDone res => gate_resUnitScrubDone res
  | .resEpochIssue res => gate_resEpochIssue res
  | .assignCounterTurn => gate_assignCounterTurn
  | .maintSessionExpiry fn session => gate_maintSessionExpiry fn session
  | .maintNotAfterCheck => gate_maintNotAfterCheck
  | .debugNonceExpiry => gate_debugNonceExpiry
  | .rollbackFuseBlow => gate_rollbackFuseBlow
  | .claspHealthTestFail => gate_claspHealthTestFail
  | .drawTimeout => gate_drawTimeout
  | .helloExpiry fn => gate_helloExpiry fn
  | .watchdogExpiry core => gate_watchdogExpiry core
  | .coreTakeover => gate_coreTakeover
  | .heartbeatExpiry fn => gate_heartbeatExpiry fn
  | .irqCoalesceTimeout fn ring => gate_irqCoalesceTimeout fn ring
  | .reqRingEnableWrite fn on => gate_reqRingEnableWrite fn on
  | .rspRingEnableWrite fn on => gate_rspRingEnableWrite fn on
  | .rxRingEnableWrite fn on => gate_rxRingEnableWrite fn on
  | .reqDoorbell fn tail unknown => gate_reqDoorbell fn tail unknown
  | .rspHeadWrite fn index => gate_rspHeadWrite fn index
  | .rxHeadWrite fn index => gate_rxHeadWrite fn index
  | .heartbeatKick fn => gate_heartbeatKick fn
  | .bootGo fn => gate_bootGo fn
  | .bootDoneClear fn => gate_bootDoneClear fn
  | .hostLostClear fn => gate_hostLostClear fn
  | .irqStatusClear fn mask => gate_irqStatusClear fn mask
  | .registerWrite fn reg value => gate_registerWrite fn reg value
  | .drcSetSwap channel => gate_drcSetSwap channel
  | .drcModeRegisterAccess channel ok => gate_drcModeRegisterAccess channel ok
  | .drcTrainingRowAccess channel write => gate_drcTrainingRowAccess channel write
  | .drcReadCompare channel errors => gate_drcReadCompare channel errors
  | .barMisalignedAccess fn write => gate_barMisalignedAccess fn write
  | .pcieLinkUp speed width => gate_pcieLinkUp speed width
  | .pcieLinkDown => gate_pcieLinkDown
  | .hotReset => gate_hotReset
  | .functionLevelReset fn => gate_functionLevelReset fn
  | .busMasterClear fn => gate_busMasterClear fn
  | .busMasterSet fn => gate_busMasterSet fn
  | .d3hotEntry fn => gate_d3hotEntry fn
  | .d0Return fn => gate_d0Return fn
  | .vfEnableSet numVfs => gate_vfEnableSet numVfs
  | .vfEnableClear => gate_vfEnableClear
  | .configRequest fn write ctoValue => gate_configRequest fn write ctoValue
  | .dmaCompletionArrival tag status => gate_dmaCompletionArrival tag status
  | .completionTimeout tag => gate_completionTimeout tag
  | .tagQuarantineEnd tag => gate_tagQuarantineEnd tag
  | .reqRingFetchRetry fn => gate_reqRingFetchRetry fn
  | .teardownFinish fn => gate_teardownFinish fn
  | .gussetVoltageEval => gate_gussetVoltageEval
  | .pmbusReadback mv acked => gate_pmbusReadback mv acked
  | .pmbusHoldoffEnd => gate_pmbusHoldoffEnd
  | .pmbusAlert => gate_pmbusAlert
  | .thermalSample temps => gate_thermalSample temps
  | .ringOscSample site ratio slack => gate_ringOscSample site ratio slack
  | .sramVminTest mv => gate_sramVminTest mv
  | .serdesAdaptStep lane eye => gate_serdesAdaptStep lane eye
  | .dramWindowCheck channel windows centre => gate_dramWindowCheck channel windows centre
  | .tcamMarginTest sleeve bank steps => gate_tcamMarginTest sleeve bank steps
  | .flashOpCheck code => gate_flashOpCheck code
  | .flashDeferRecheck code => gate_flashDeferRecheck code
  | .flashOpComplete => gate_flashOpComplete
  | .flashWriteDeadline => gate_flashWriteDeadline
  | .powerFailAssert code => gate_powerFailAssert code
  | .powerFailDeassert => gate_powerFailDeassert
  | .postmortemBufferRefresh => gate_postmortemBufferRefresh
  | .historyAppend kind => gate_historyAppend kind
  | .islandPowerOnReset => gate_islandPowerOnReset
  | .perstRelease fusesOk => gate_perstRelease fusesOk
  | .perstAssert => gate_perstAssert
  | .railFault => gate_railFault
  | .romImageSelect flashOk => gate_romImageSelect flashOk
  | .firmwareStart => gate_firmwareStart
  | .firmwareReady => gate_firmwareReady
  | .sleevesEnable => gate_sleevesEnable
  | .ejectRequest => gate_ejectRequest
  | .ejectCancel => gate_ejectCancel
  | .ejectGraceExpiry => gate_ejectGraceExpiry
  | .ejectReady => gate_ejectReady
  | .fwStoreComplete ok => gate_fwStoreComplete ok
  | .fwSwitchLoaded => gate_fwSwitchLoaded
  | .fwSwitchResume => gate_fwSwitchResume
  | .fwSwitchTimeout => gate_fwSwitchTimeout
  | .patchRollSleeveDone passed => gate_patchRollSleeveDone passed
  | .svcOutOfServiceDone => gate_svcOutOfServiceDone
  | .svcDeadline => gate_svcDeadline
  | .svcTestDone passed => gate_svcTestDone passed
  | .coreHandoverDone => gate_coreHandoverDone
  | .refclkStop => gate_refclkStop
  | .srdRefclkLoss bank => gate_srdRefclkLoss bank
  | .smbusSampleUpdate => gate_smbusSampleUpdate
  | .smbusTj => gate_smbusTj
  | .smbusStage => gate_smbusStage
  | .smbusFlags => gate_smbusFlags
  | .smbusCoreMv => gate_smbusCoreMv
  | .smbusEom => gate_smbusEom
  | .smbusSensors => gate_smbusSensors
  | .smbusAlertResponse => gate_smbusAlertResponse
  | .smbusWriteNack => gate_smbusWriteNack
  | .jtagInstruction inst => gate_jtagInstruction inst
  | .slotShareSet h r => gate_slotShareSet h r
  | .slotStatusGet h sleeve => gate_slotStatusGet h sleeve
  | .ptpPortSet h r => gate_ptpPortSet h r
  | .timeStatusGet h => gate_timeStatusGet h
  | .timeIoSet h r => gate_timeIoSet h r
  | .timeAdjust h r => gate_timeAdjust h r
  | .hemCountersGet h => gate_hemCountersGet h
  | .cuffAttach h r => gate_cuffAttach h r
  | .portConfigSet h r => gate_portConfigSet h r
  | .portStatusGet h port => gate_portStatusGet h port
  | .macStatsGet h port => gate_macStatsGet h port
  | .parsePortSet h r => gate_parsePortSet h r
  | .patternSet h r => gate_patternSet h r
  | .patternClear h index => gate_patternClear h index
  | .fragConfigSet h r => gate_fragConfigSet h r
  | .parseStatsGet h kind unit tenancy => gate_parseStatsGet h kind unit tenancy
  | .flowProfileSet h r => gate_flowProfileSet h r
  | .flowAdd h r => gate_flowAdd h r
  | .flowDel h r => gate_flowDel h r
  | .flowRead h => gate_flowRead h
  | .learnPolicySet h r => gate_learnPolicySet h r
  | .learnQuotaSet h r => gate_learnQuotaSet h r
  | .learnPortSet h r => gate_learnPortSet h r
  | .learnStaticSet h r => gate_learnStaticSet h r
  | .learnFlush h r => gate_learnFlush h r
  | .learnRead h sleeve => gate_learnRead h sleeve
  | .tableStatsGet h sleeve => gate_tableStatsGet h sleeve
  | .tcamProfileSet h r => gate_tcamProfileSet h r
  | .tcamWrite h r => gate_tcamWrite h r
  | .tcamClear h index => gate_tcamClear h index
  | .tcamIterate h r => gate_tcamIterate h r
  | .tcamThrottleSet h r => gate_tcamThrottleSet h r
  | .tcamStatusGet h sleeve => gate_tcamStatusGet h sleeve
  | .tblCommit h deadlineMs => gate_tblCommit h deadlineMs
  | .tblAbort h => gate_tblAbort h
  | .versionStatusGet h => gate_versionStatusGet h
  | .actTenancySet h r => gate_actTenancySet h r
  | .floodGroupSet h r => gate_floodGroupSet h r
  | .mirrorSessionSet h r => gate_mirrorSessionSet h r
  | .copyLimitSet h r => gate_copyLimitSet h r
  | .actionSet h r => gate_actionSet h r
  | .actionClear h index => gate_actionClear h index
  | .actStatsGet h => gate_actStatsGet h
  | .templateSet h r => gate_templateSet h r
  | .ucodeLoad h r img => gate_ucodeLoad h r img
  | .ucodeAccept h r => gate_ucodeAccept h r
  | .ucodeActivate h r => gate_ucodeActivate h r
  | .custMemWrite h r => gate_custMemWrite h r
  | .custMemRead h r => gate_custMemRead h r
  | .ucodeStatusGet h => gate_ucodeStatusGet h
  | .poolSet h r => gate_poolSet h r
  | .queueBufSet h r => gate_queueBufSet h r
  | .bufGlobalSet h regionMib => gate_bufGlobalSet h regionMib
  | .yokeStatsGet h => gate_yokeStatsGet h
  | .poolStatusGet h pool pocket => gate_poolStatusGet h pool pocket
  | .meterBind h r => gate_meterBind h r
  | .meterUnbind h index => gate_meterUnbind h index
  | .meterTenancySet h r => gate_meterTenancySet h r
  | .meterStatsGet h index => gate_meterStatsGet h index
  | .schedPortSet h r => gate_schedPortSet h r
  | .schedQueueSet h r => gate_schedQueueSet h r
  | .gateConfigSet h r => gate_gateConfigSet h r
  | .gateEntriesSet h r => gate_gateEntriesSet h r
  | .samplerQuotaSet h r => gate_samplerQuotaSet h r
  | .samplerSet h r => gate_samplerSet h r
  | .sampleRead h maxRecords => gate_sampleRead h maxRecords
  | .schedStatsGet h kind unit => gate_schedStatsGet h kind unit
  | .gateStatusGet h port => gate_gateStatusGet h port
  | .relProfileSet h r => gate_relProfileSet h r
  | .relProfileClear h index => gate_relProfileClear h index
  | .relTenancySet h flags => gate_relTenancySet h flags
  | .relPortSet h port calLimit => gate_relPortSet h port calLimit
  | .relStatsGet h kind unit => gate_relStatsGet h kind unit
  | .relProfileRead h index => gate_relProfileRead h index
  | .macsecPortSet h r => gate_macsecPortSet h r
  | .macsecScSet h r => gate_macsecScSet h r
  | .macsecTxAnSet h sc an => gate_macsecTxAnSet h sc an
  | .keyLoad h r => gate_keyLoad h r
  | .keyErase h r => gate_keyErase h r
  | .macsecSaStatusGet h slot => gate_macsecSaStatusGet h slot
  | .bulkOpen h r => gate_bulkOpen h r
  | .bulkSegment h r => gate_bulkSegment h r
  | .bulkClose h message => gate_bulkClose h message
  | .bulkConfigSet h quota => gate_bulkConfigSet h quota
  | .macsecStatsGet h port => gate_macsecStatsGet h port
  | .bulkStatsGet h => gate_bulkStatsGet h
  | .dramConfigSet h r => gate_dramConfigSet h r
  | .dramChannelSet h r => gate_dramChannelSet h r
  | .dramStatusGet h => gate_dramStatusGet h
  | .recStoreSet h r => gate_recStoreSet h r
  | .recArm h r => gate_recArm h r
  | .recTrigger h => gate_recTrigger h
  | .recStop h => gate_recStop h
  | .recClear h => gate_recClear h
  | .recExport h r => gate_recExport h r
  | .recStatusGet h => gate_recStatusGet h
  | .replayRun h r => gate_replayRun h r
  | .replayAbort h sleeve => gate_replayAbort h sleeve
  | .replayReportRead h maxEntries => gate_replayReportRead h maxEntries
  | .portTenancySet h r => gate_portTenancySet h r
  | .resAssign h r => gate_resAssign h r
  | .resStatusGet h kind => gate_resStatusGet h kind
  | .ownerKeySet h key sigOk => gate_ownerKeySet h key sigOk
  | .tenantEnrol h r => gate_tenantEnrol h r
  | .rollbackAdvance h target => gate_rollbackAdvance h target
  | .attestGet h nonce => gate_attestGet h nonce
  | .debugNonceGet h => gate_debugNonceGet h
  | .debugUnlock h owner vendor => gate_debugUnlock h owner vendor
  | .sessionHello h hostNonce => gate_sessionHello h hostNonce
  | .sessionOpen h r => gate_sessionOpen h r
  | .sessionClose h => gate_sessionClose h
  | .eventMaskSet h mask => gate_eventMaskSet h mask
  | .mbxStatsGet h => gate_mbxStatsGet h
  | .hostStatusGet h => gate_hostStatusGet h
  | .gusConfigSet h r => gate_gusConfigSet h r
  | .gusStatusGet h => gate_gusStatusGet h
  | .gusHistoryRead h first count => gate_gusHistoryRead h first count
  | .gusPostmortemRead h slot => gate_gusPostmortemRead h slot
  | .svcUnitSet h r => gate_svcUnitSet h r
  | .svcTest h r => gate_svcTest h r
  | .svcStatusGet h => gate_svcStatusGet h
  | .fwStore h r => gate_fwStore h r
  | .fwSwitch h digest => gate_fwSwitch h digest
  | .fwCommit h digest => gate_fwCommit h digest
  | .patchRoll h digest => gate_patchRoll h digest
  | .ejectConfigSet h r => gate_ejectConfigSet h r
  | .svcEject h op => gate_svcEject h op
  | .bootInfo h => gate_bootInfo h
  | .bootImageLoad h len img => gate_bootImageLoad h len img
  | .ucodeActivateTimeout => gate_ucodeActivateTimeout
  | .dramChannelTimeout => gate_dramChannelTimeout
  | .scrubQueueDiscard port queue => gate_scrubQueueDiscard port queue
  | .ejectFlashAbandon => gate_ejectFlashAbandon

end Sys2Proof.Machine
end

