-- ==== Sys2Proof/Laws/State.lean ====
section
/-! SUPPORT. Small lemmas about the state: tables, and one lemma for each field that a replacement leaves alone and for
each entry that it sets, so that no later proof unfolds a record update. -/

namespace Sys2Proof.Machine

@[simp] theorem reset_pending : State.reset.pending = [] := rfl

/-! ### Tables -/

theorem lookup_filter_ne {β : Type} (l : List (Nat × β)) (k j : Nat) (h : j ≠ k) :
    (l.filter fun c => c.1 != k).lookup j = l.lookup j := by
  induction l with
  | nil => rfl
  | cons c l ih =>
    have hj : c.1 = k → (j == c.1) = false := fun e => by simp [e, h]
    by_cases hc : c.1 = k
    · simp [hc] at hj ⊢
      obtain ⟨a, b⟩ := c
      simp only at hc
      subst hc
      rw [ih]
      have hk : (j == a) = false := by simp [h]
      simp only [List.lookup, hk]
    · simp [hc]
      obtain ⟨a, b⟩ := c
      simp only [List.lookup]
      split
      · rfl
      · exact ih

@[simp] theorem Tab.get?_set_self {α : Type} (t : Tab α) (v : α) (k : Nat) : (t.set k v).get? k = some v := by
  simp [Tab.get?, Tab.set]

theorem Tab.get?_set_ne {α : Type} (t : Tab α) (v : α) (k j : Nat) (h : j ≠ k) : (t.set k v).get? j = t.get? j := by
  have hj : (j == k) = false := by simp [h]
  simp only [Tab.get?, Tab.set, List.lookup, hj]
  exact lookup_filter_ne t.cells k j h

theorem Tab.get_eq_get? {α : Type} (t : Tab α) (d : α) (k : Nat) : t.get d k = (t.get? k).getD d := by
  unfold Tab.get Tab.get?
  split <;> simp [*]

@[simp] theorem Tab.get_set_self {α : Type} (t : Tab α) (d v : α) (k : Nat) : (t.set k v).get d k = v := by
  simp [Tab.get_eq_get?]

theorem Tab.get_set_ne {α : Type} (t : Tab α) (d v : α) (k j : Nat) (h : j ≠ k) :
    (t.set k v).get d j = t.get d j := by
  simp [Tab.get_eq_get?, Tab.get?_set_ne t v k j h]

/-! ### What a replacement leaves alone -/

@[simp] theorem power_setCtr (d : Dev) (c : Ctr) (a b n : Nat) : (d.setCtr c a b n).power = d.power := rfl
@[simp] theorem now_setCtr (d : Dev) (c : Ctr) (a b n : Nat) : (d.setCtr c a b n).now = d.now := rfl
@[simp] theorem rnd_setCtr (d : Dev) (c : Ctr) (a b n : Nat) : (d.setCtr c a b n).rnd = d.rnd := rfl
@[simp] theorem outbox_setCtr (d : Dev) (c : Ctr) (a b n : Nat) : (d.setCtr c a b n).outbox = d.outbox := rfl
@[simp] theorem lastSeen_setCtr (d : Dev) (c : Ctr) (a b n : Nat) : (d.setCtr c a b n).lastSeen = d.lastSeen := rfl
@[simp] theorem arch_setCtr (d : Dev) (c : Ctr) (a b n : Nat) : (d.setCtr c a b n).arch = d.arch := rfl
@[simp] theorem hem_setCtr (d : Dev) (c : Ctr) (a b n : Nat) : (d.setCtr c a b n).hem = d.hem := rfl
@[simp] theorem ports_setCtr (d : Dev) (c : Ctr) (a b n : Nat) : (d.setCtr c a b n).ports = d.ports := rfl
@[simp] theorem parse_setCtr (d : Dev) (c : Ctr) (a b n : Nat) : (d.setCtr c a b n).parse = d.parse := rfl
@[simp] theorem tables_setCtr (d : Dev) (c : Ctr) (a b n : Nat) : (d.setCtr c a b n).tables = d.tables := rfl
@[simp] theorem tcam_setCtr (d : Dev) (c : Ctr) (a b n : Nat) : (d.setCtr c a b n).tcam = d.tcam := rfl
@[simp] theorem vers_setCtr (d : Dev) (c : Ctr) (a b n : Nat) : (d.setCtr c a b n).vers = d.vers := rfl
@[simp] theorem micro_setCtr (d : Dev) (c : Ctr) (a b n : Nat) : (d.setCtr c a b n).micro = d.micro := rfl
@[simp] theorem yoke_setCtr (d : Dev) (c : Ctr) (a b n : Nat) : (d.setCtr c a b n).yoke = d.yoke := rfl
@[simp] theorem meter_setCtr (d : Dev) (c : Ctr) (a b n : Nat) : (d.setCtr c a b n).meter = d.meter := rfl
@[simp] theorem queues_setCtr (d : Dev) (c : Ctr) (a b n : Nat) : (d.setCtr c a b n).queues = d.queues := rfl
@[simp] theorem rel_setCtr (d : Dev) (c : Ctr) (a b n : Nat) : (d.setCtr c a b n).rel = d.rel := rfl
@[simp] theorem cipher_setCtr (d : Dev) (c : Ctr) (a b n : Nat) : (d.setCtr c a b n).cipher = d.cipher := rfl
@[simp] theorem dram_setCtr (d : Dev) (c : Ctr) (a b n : Nat) : (d.setCtr c a b n).dram = d.dram := rfl
@[simp] theorem lining_setCtr (d : Dev) (c : Ctr) (a b n : Nat) : (d.setCtr c a b n).lining = d.lining := rfl
@[simp] theorem ten_setCtr (d : Dev) (c : Ctr) (a b n : Nat) : (d.setCtr c a b n).ten = d.ten := rfl
@[simp] theorem mbx_setCtr (d : Dev) (c : Ctr) (a b n : Nat) : (d.setCtr c a b n).mbx = d.mbx := rfl
@[simp] theorem host_setCtr (d : Dev) (c : Ctr) (a b n : Nat) : (d.setCtr c a b n).host = d.host := rfl
@[simp] theorem gus_setCtr (d : Dev) (c : Ctr) (a b n : Nat) : (d.setCtr c a b n).gus = d.gus := rfl
@[simp] theorem island_setCtr (d : Dev) (c : Ctr) (a b n : Nat) : (d.setCtr c a b n).island = d.island := rfl
@[simp] theorem boot_setCtr (d : Dev) (c : Ctr) (a b n : Nat) : (d.setCtr c a b n).boot = d.boot := rfl
@[simp] theorem board_setCtr (d : Dev) (c : Ctr) (a b n : Nat) : (d.setCtr c a b n).board = d.board := rfl
@[simp] theorem power_bump (d : Dev) (c : Ctr) (a b n : Nat) : (d.bump c a b n).power = d.power := rfl
@[simp] theorem now_bump (d : Dev) (c : Ctr) (a b n : Nat) : (d.bump c a b n).now = d.now := rfl
@[simp] theorem rnd_bump (d : Dev) (c : Ctr) (a b n : Nat) : (d.bump c a b n).rnd = d.rnd := rfl
@[simp] theorem outbox_bump (d : Dev) (c : Ctr) (a b n : Nat) : (d.bump c a b n).outbox = d.outbox := rfl
@[simp] theorem lastSeen_bump (d : Dev) (c : Ctr) (a b n : Nat) : (d.bump c a b n).lastSeen = d.lastSeen := rfl
@[simp] theorem arch_bump (d : Dev) (c : Ctr) (a b n : Nat) : (d.bump c a b n).arch = d.arch := rfl
@[simp] theorem hem_bump (d : Dev) (c : Ctr) (a b n : Nat) : (d.bump c a b n).hem = d.hem := rfl
@[simp] theorem ports_bump (d : Dev) (c : Ctr) (a b n : Nat) : (d.bump c a b n).ports = d.ports := rfl
@[simp] theorem parse_bump (d : Dev) (c : Ctr) (a b n : Nat) : (d.bump c a b n).parse = d.parse := rfl
@[simp] theorem tables_bump (d : Dev) (c : Ctr) (a b n : Nat) : (d.bump c a b n).tables = d.tables := rfl
@[simp] theorem tcam_bump (d : Dev) (c : Ctr) (a b n : Nat) : (d.bump c a b n).tcam = d.tcam := rfl
@[simp] theorem vers_bump (d : Dev) (c : Ctr) (a b n : Nat) : (d.bump c a b n).vers = d.vers := rfl
@[simp] theorem micro_bump (d : Dev) (c : Ctr) (a b n : Nat) : (d.bump c a b n).micro = d.micro := rfl
@[simp] theorem yoke_bump (d : Dev) (c : Ctr) (a b n : Nat) : (d.bump c a b n).yoke = d.yoke := rfl
@[simp] theorem meter_bump (d : Dev) (c : Ctr) (a b n : Nat) : (d.bump c a b n).meter = d.meter := rfl
@[simp] theorem queues_bump (d : Dev) (c : Ctr) (a b n : Nat) : (d.bump c a b n).queues = d.queues := rfl
@[simp] theorem rel_bump (d : Dev) (c : Ctr) (a b n : Nat) : (d.bump c a b n).rel = d.rel := rfl
@[simp] theorem cipher_bump (d : Dev) (c : Ctr) (a b n : Nat) : (d.bump c a b n).cipher = d.cipher := rfl
@[simp] theorem dram_bump (d : Dev) (c : Ctr) (a b n : Nat) : (d.bump c a b n).dram = d.dram := rfl
@[simp] theorem lining_bump (d : Dev) (c : Ctr) (a b n : Nat) : (d.bump c a b n).lining = d.lining := rfl
@[simp] theorem ten_bump (d : Dev) (c : Ctr) (a b n : Nat) : (d.bump c a b n).ten = d.ten := rfl
@[simp] theorem mbx_bump (d : Dev) (c : Ctr) (a b n : Nat) : (d.bump c a b n).mbx = d.mbx := rfl
@[simp] theorem host_bump (d : Dev) (c : Ctr) (a b n : Nat) : (d.bump c a b n).host = d.host := rfl
@[simp] theorem gus_bump (d : Dev) (c : Ctr) (a b n : Nat) : (d.bump c a b n).gus = d.gus := rfl
@[simp] theorem island_bump (d : Dev) (c : Ctr) (a b n : Nat) : (d.bump c a b n).island = d.island := rfl
@[simp] theorem boot_bump (d : Dev) (c : Ctr) (a b n : Nat) : (d.bump c a b n).boot = d.boot := rfl
@[simp] theorem board_bump (d : Dev) (c : Ctr) (a b n : Nat) : (d.bump c a b n).board = d.board := rfl
@[simp] theorem power_inc (d : Dev) (c : Ctr) (a b : Nat) : (d.inc c a b).power = d.power := rfl
@[simp] theorem now_inc (d : Dev) (c : Ctr) (a b : Nat) : (d.inc c a b).now = d.now := rfl
@[simp] theorem rnd_inc (d : Dev) (c : Ctr) (a b : Nat) : (d.inc c a b).rnd = d.rnd := rfl
@[simp] theorem outbox_inc (d : Dev) (c : Ctr) (a b : Nat) : (d.inc c a b).outbox = d.outbox := rfl
@[simp] theorem lastSeen_inc (d : Dev) (c : Ctr) (a b : Nat) : (d.inc c a b).lastSeen = d.lastSeen := rfl
@[simp] theorem arch_inc (d : Dev) (c : Ctr) (a b : Nat) : (d.inc c a b).arch = d.arch := rfl
@[simp] theorem hem_inc (d : Dev) (c : Ctr) (a b : Nat) : (d.inc c a b).hem = d.hem := rfl
@[simp] theorem ports_inc (d : Dev) (c : Ctr) (a b : Nat) : (d.inc c a b).ports = d.ports := rfl
@[simp] theorem parse_inc (d : Dev) (c : Ctr) (a b : Nat) : (d.inc c a b).parse = d.parse := rfl
@[simp] theorem tables_inc (d : Dev) (c : Ctr) (a b : Nat) : (d.inc c a b).tables = d.tables := rfl
@[simp] theorem tcam_inc (d : Dev) (c : Ctr) (a b : Nat) : (d.inc c a b).tcam = d.tcam := rfl
@[simp] theorem vers_inc (d : Dev) (c : Ctr) (a b : Nat) : (d.inc c a b).vers = d.vers := rfl
@[simp] theorem micro_inc (d : Dev) (c : Ctr) (a b : Nat) : (d.inc c a b).micro = d.micro := rfl
@[simp] theorem yoke_inc (d : Dev) (c : Ctr) (a b : Nat) : (d.inc c a b).yoke = d.yoke := rfl
@[simp] theorem meter_inc (d : Dev) (c : Ctr) (a b : Nat) : (d.inc c a b).meter = d.meter := rfl
@[simp] theorem queues_inc (d : Dev) (c : Ctr) (a b : Nat) : (d.inc c a b).queues = d.queues := rfl
@[simp] theorem rel_inc (d : Dev) (c : Ctr) (a b : Nat) : (d.inc c a b).rel = d.rel := rfl
@[simp] theorem cipher_inc (d : Dev) (c : Ctr) (a b : Nat) : (d.inc c a b).cipher = d.cipher := rfl
@[simp] theorem dram_inc (d : Dev) (c : Ctr) (a b : Nat) : (d.inc c a b).dram = d.dram := rfl
@[simp] theorem lining_inc (d : Dev) (c : Ctr) (a b : Nat) : (d.inc c a b).lining = d.lining := rfl
@[simp] theorem ten_inc (d : Dev) (c : Ctr) (a b : Nat) : (d.inc c a b).ten = d.ten := rfl
@[simp] theorem mbx_inc (d : Dev) (c : Ctr) (a b : Nat) : (d.inc c a b).mbx = d.mbx := rfl
@[simp] theorem host_inc (d : Dev) (c : Ctr) (a b : Nat) : (d.inc c a b).host = d.host := rfl
@[simp] theorem gus_inc (d : Dev) (c : Ctr) (a b : Nat) : (d.inc c a b).gus = d.gus := rfl
@[simp] theorem island_inc (d : Dev) (c : Ctr) (a b : Nat) : (d.inc c a b).island = d.island := rfl
@[simp] theorem boot_inc (d : Dev) (c : Ctr) (a b : Nat) : (d.inc c a b).boot = d.boot := rfl
@[simp] theorem board_inc (d : Dev) (c : Ctr) (a b : Nat) : (d.inc c a b).board = d.board := rfl
@[simp] theorem power_zeroCtrs (d : Dev) (p : CtrKey → Bool) : (d.zeroCtrs p).power = d.power := rfl
@[simp] theorem now_zeroCtrs (d : Dev) (p : CtrKey → Bool) : (d.zeroCtrs p).now = d.now := rfl
@[simp] theorem rnd_zeroCtrs (d : Dev) (p : CtrKey → Bool) : (d.zeroCtrs p).rnd = d.rnd := rfl
@[simp] theorem outbox_zeroCtrs (d : Dev) (p : CtrKey → Bool) : (d.zeroCtrs p).outbox = d.outbox := rfl
@[simp] theorem lastSeen_zeroCtrs (d : Dev) (p : CtrKey → Bool) : (d.zeroCtrs p).lastSeen = d.lastSeen := rfl
@[simp] theorem arch_zeroCtrs (d : Dev) (p : CtrKey → Bool) : (d.zeroCtrs p).arch = d.arch := rfl
@[simp] theorem hem_zeroCtrs (d : Dev) (p : CtrKey → Bool) : (d.zeroCtrs p).hem = d.hem := rfl
@[simp] theorem ports_zeroCtrs (d : Dev) (p : CtrKey → Bool) : (d.zeroCtrs p).ports = d.ports := rfl
@[simp] theorem parse_zeroCtrs (d : Dev) (p : CtrKey → Bool) : (d.zeroCtrs p).parse = d.parse := rfl
@[simp] theorem tables_zeroCtrs (d : Dev) (p : CtrKey → Bool) : (d.zeroCtrs p).tables = d.tables := rfl
@[simp] theorem tcam_zeroCtrs (d : Dev) (p : CtrKey → Bool) : (d.zeroCtrs p).tcam = d.tcam := rfl
@[simp] theorem vers_zeroCtrs (d : Dev) (p : CtrKey → Bool) : (d.zeroCtrs p).vers = d.vers := rfl
@[simp] theorem micro_zeroCtrs (d : Dev) (p : CtrKey → Bool) : (d.zeroCtrs p).micro = d.micro := rfl
@[simp] theorem yoke_zeroCtrs (d : Dev) (p : CtrKey → Bool) : (d.zeroCtrs p).yoke = d.yoke := rfl
@[simp] theorem meter_zeroCtrs (d : Dev) (p : CtrKey → Bool) : (d.zeroCtrs p).meter = d.meter := rfl
@[simp] theorem queues_zeroCtrs (d : Dev) (p : CtrKey → Bool) : (d.zeroCtrs p).queues = d.queues := rfl
@[simp] theorem rel_zeroCtrs (d : Dev) (p : CtrKey → Bool) : (d.zeroCtrs p).rel = d.rel := rfl
@[simp] theorem cipher_zeroCtrs (d : Dev) (p : CtrKey → Bool) : (d.zeroCtrs p).cipher = d.cipher := rfl
@[simp] theorem dram_zeroCtrs (d : Dev) (p : CtrKey → Bool) : (d.zeroCtrs p).dram = d.dram := rfl
@[simp] theorem lining_zeroCtrs (d : Dev) (p : CtrKey → Bool) : (d.zeroCtrs p).lining = d.lining := rfl
@[simp] theorem ten_zeroCtrs (d : Dev) (p : CtrKey → Bool) : (d.zeroCtrs p).ten = d.ten := rfl
@[simp] theorem mbx_zeroCtrs (d : Dev) (p : CtrKey → Bool) : (d.zeroCtrs p).mbx = d.mbx := rfl
@[simp] theorem host_zeroCtrs (d : Dev) (p : CtrKey → Bool) : (d.zeroCtrs p).host = d.host := rfl
@[simp] theorem gus_zeroCtrs (d : Dev) (p : CtrKey → Bool) : (d.zeroCtrs p).gus = d.gus := rfl
@[simp] theorem island_zeroCtrs (d : Dev) (p : CtrKey → Bool) : (d.zeroCtrs p).island = d.island := rfl
@[simp] theorem boot_zeroCtrs (d : Dev) (p : CtrKey → Bool) : (d.zeroCtrs p).boot = d.boot := rfl
@[simp] theorem board_zeroCtrs (d : Dev) (p : CtrKey → Bool) : (d.zeroCtrs p).board = d.board := rfl
@[simp] theorem power_setMbox (d : Dev) (f : Nat) (m : Mailbox) : (d.setMbox f m).power = d.power := rfl
@[simp] theorem now_setMbox (d : Dev) (f : Nat) (m : Mailbox) : (d.setMbox f m).now = d.now := rfl
@[simp] theorem rnd_setMbox (d : Dev) (f : Nat) (m : Mailbox) : (d.setMbox f m).rnd = d.rnd := rfl
@[simp] theorem outbox_setMbox (d : Dev) (f : Nat) (m : Mailbox) : (d.setMbox f m).outbox = d.outbox := rfl
@[simp] theorem lastSeen_setMbox (d : Dev) (f : Nat) (m : Mailbox) : (d.setMbox f m).lastSeen = d.lastSeen := rfl
@[simp] theorem counters_setMbox (d : Dev) (f : Nat) (m : Mailbox) : (d.setMbox f m).counters = d.counters := rfl
@[simp] theorem arch_setMbox (d : Dev) (f : Nat) (m : Mailbox) : (d.setMbox f m).arch = d.arch := rfl
@[simp] theorem hem_setMbox (d : Dev) (f : Nat) (m : Mailbox) : (d.setMbox f m).hem = d.hem := rfl
@[simp] theorem ports_setMbox (d : Dev) (f : Nat) (m : Mailbox) : (d.setMbox f m).ports = d.ports := rfl
@[simp] theorem parse_setMbox (d : Dev) (f : Nat) (m : Mailbox) : (d.setMbox f m).parse = d.parse := rfl
@[simp] theorem tables_setMbox (d : Dev) (f : Nat) (m : Mailbox) : (d.setMbox f m).tables = d.tables := rfl
@[simp] theorem tcam_setMbox (d : Dev) (f : Nat) (m : Mailbox) : (d.setMbox f m).tcam = d.tcam := rfl
@[simp] theorem vers_setMbox (d : Dev) (f : Nat) (m : Mailbox) : (d.setMbox f m).vers = d.vers := rfl
@[simp] theorem micro_setMbox (d : Dev) (f : Nat) (m : Mailbox) : (d.setMbox f m).micro = d.micro := rfl
@[simp] theorem yoke_setMbox (d : Dev) (f : Nat) (m : Mailbox) : (d.setMbox f m).yoke = d.yoke := rfl
@[simp] theorem meter_setMbox (d : Dev) (f : Nat) (m : Mailbox) : (d.setMbox f m).meter = d.meter := rfl
@[simp] theorem queues_setMbox (d : Dev) (f : Nat) (m : Mailbox) : (d.setMbox f m).queues = d.queues := rfl
@[simp] theorem rel_setMbox (d : Dev) (f : Nat) (m : Mailbox) : (d.setMbox f m).rel = d.rel := rfl
@[simp] theorem cipher_setMbox (d : Dev) (f : Nat) (m : Mailbox) : (d.setMbox f m).cipher = d.cipher := rfl
@[simp] theorem dram_setMbox (d : Dev) (f : Nat) (m : Mailbox) : (d.setMbox f m).dram = d.dram := rfl
@[simp] theorem lining_setMbox (d : Dev) (f : Nat) (m : Mailbox) : (d.setMbox f m).lining = d.lining := rfl
@[simp] theorem ten_setMbox (d : Dev) (f : Nat) (m : Mailbox) : (d.setMbox f m).ten = d.ten := rfl
@[simp] theorem host_setMbox (d : Dev) (f : Nat) (m : Mailbox) : (d.setMbox f m).host = d.host := rfl
@[simp] theorem gus_setMbox (d : Dev) (f : Nat) (m : Mailbox) : (d.setMbox f m).gus = d.gus := rfl
@[simp] theorem island_setMbox (d : Dev) (f : Nat) (m : Mailbox) : (d.setMbox f m).island = d.island := rfl
@[simp] theorem boot_setMbox (d : Dev) (f : Nat) (m : Mailbox) : (d.setMbox f m).boot = d.boot := rfl
@[simp] theorem board_setMbox (d : Dev) (f : Nat) (m : Mailbox) : (d.setMbox f m).board = d.board := rfl
@[simp] theorem power_setFend (d : Dev) (f : Nat) (e : EndFn) : (d.setFend f e).power = d.power := rfl
@[simp] theorem now_setFend (d : Dev) (f : Nat) (e : EndFn) : (d.setFend f e).now = d.now := rfl
@[simp] theorem rnd_setFend (d : Dev) (f : Nat) (e : EndFn) : (d.setFend f e).rnd = d.rnd := rfl
@[simp] theorem outbox_setFend (d : Dev) (f : Nat) (e : EndFn) : (d.setFend f e).outbox = d.outbox := rfl
@[simp] theorem lastSeen_setFend (d : Dev) (f : Nat) (e : EndFn) : (d.setFend f e).lastSeen = d.lastSeen := rfl
@[simp] theorem counters_setFend (d : Dev) (f : Nat) (e : EndFn) : (d.setFend f e).counters = d.counters := rfl
@[simp] theorem arch_setFend (d : Dev) (f : Nat) (e : EndFn) : (d.setFend f e).arch = d.arch := rfl
@[simp] theorem hem_setFend (d : Dev) (f : Nat) (e : EndFn) : (d.setFend f e).hem = d.hem := rfl
@[simp] theorem ports_setFend (d : Dev) (f : Nat) (e : EndFn) : (d.setFend f e).ports = d.ports := rfl
@[simp] theorem parse_setFend (d : Dev) (f : Nat) (e : EndFn) : (d.setFend f e).parse = d.parse := rfl
@[simp] theorem tables_setFend (d : Dev) (f : Nat) (e : EndFn) : (d.setFend f e).tables = d.tables := rfl
@[simp] theorem tcam_setFend (d : Dev) (f : Nat) (e : EndFn) : (d.setFend f e).tcam = d.tcam := rfl
@[simp] theorem vers_setFend (d : Dev) (f : Nat) (e : EndFn) : (d.setFend f e).vers = d.vers := rfl
@[simp] theorem micro_setFend (d : Dev) (f : Nat) (e : EndFn) : (d.setFend f e).micro = d.micro := rfl
@[simp] theorem yoke_setFend (d : Dev) (f : Nat) (e : EndFn) : (d.setFend f e).yoke = d.yoke := rfl
@[simp] theorem meter_setFend (d : Dev) (f : Nat) (e : EndFn) : (d.setFend f e).meter = d.meter := rfl
@[simp] theorem queues_setFend (d : Dev) (f : Nat) (e : EndFn) : (d.setFend f e).queues = d.queues := rfl
@[simp] theorem rel_setFend (d : Dev) (f : Nat) (e : EndFn) : (d.setFend f e).rel = d.rel := rfl
@[simp] theorem cipher_setFend (d : Dev) (f : Nat) (e : EndFn) : (d.setFend f e).cipher = d.cipher := rfl
@[simp] theorem dram_setFend (d : Dev) (f : Nat) (e : EndFn) : (d.setFend f e).dram = d.dram := rfl
@[simp] theorem lining_setFend (d : Dev) (f : Nat) (e : EndFn) : (d.setFend f e).lining = d.lining := rfl
@[simp] theorem ten_setFend (d : Dev) (f : Nat) (e : EndFn) : (d.setFend f e).ten = d.ten := rfl
@[simp] theorem mbx_setFend (d : Dev) (f : Nat) (e : EndFn) : (d.setFend f e).mbx = d.mbx := rfl
@[simp] theorem gus_setFend (d : Dev) (f : Nat) (e : EndFn) : (d.setFend f e).gus = d.gus := rfl
@[simp] theorem island_setFend (d : Dev) (f : Nat) (e : EndFn) : (d.setFend f e).island = d.island := rfl
@[simp] theorem boot_setFend (d : Dev) (f : Nat) (e : EndFn) : (d.setFend f e).boot = d.boot := rfl
@[simp] theorem board_setFend (d : Dev) (f : Nat) (e : EndFn) : (d.setFend f e).board = d.board := rfl
@[simp] theorem power_setPort (d : Dev) (p : Nat) (x : Port) : (d.setPort p x).power = d.power := rfl
@[simp] theorem now_setPort (d : Dev) (p : Nat) (x : Port) : (d.setPort p x).now = d.now := rfl
@[simp] theorem rnd_setPort (d : Dev) (p : Nat) (x : Port) : (d.setPort p x).rnd = d.rnd := rfl
@[simp] theorem outbox_setPort (d : Dev) (p : Nat) (x : Port) : (d.setPort p x).outbox = d.outbox := rfl
@[simp] theorem lastSeen_setPort (d : Dev) (p : Nat) (x : Port) : (d.setPort p x).lastSeen = d.lastSeen := rfl
@[simp] theorem counters_setPort (d : Dev) (p : Nat) (x : Port) : (d.setPort p x).counters = d.counters := rfl
@[simp] theorem arch_setPort (d : Dev) (p : Nat) (x : Port) : (d.setPort p x).arch = d.arch := rfl
@[simp] theorem hem_setPort (d : Dev) (p : Nat) (x : Port) : (d.setPort p x).hem = d.hem := rfl
@[simp] theorem parse_setPort (d : Dev) (p : Nat) (x : Port) : (d.setPort p x).parse = d.parse := rfl
@[simp] theorem tables_setPort (d : Dev) (p : Nat) (x : Port) : (d.setPort p x).tables = d.tables := rfl
@[simp] theorem tcam_setPort (d : Dev) (p : Nat) (x : Port) : (d.setPort p x).tcam = d.tcam := rfl
@[simp] theorem vers_setPort (d : Dev) (p : Nat) (x : Port) : (d.setPort p x).vers = d.vers := rfl
@[simp] theorem micro_setPort (d : Dev) (p : Nat) (x : Port) : (d.setPort p x).micro = d.micro := rfl
@[simp] theorem yoke_setPort (d : Dev) (p : Nat) (x : Port) : (d.setPort p x).yoke = d.yoke := rfl
@[simp] theorem meter_setPort (d : Dev) (p : Nat) (x : Port) : (d.setPort p x).meter = d.meter := rfl
@[simp] theorem queues_setPort (d : Dev) (p : Nat) (x : Port) : (d.setPort p x).queues = d.queues := rfl
@[simp] theorem rel_setPort (d : Dev) (p : Nat) (x : Port) : (d.setPort p x).rel = d.rel := rfl
@[simp] theorem cipher_setPort (d : Dev) (p : Nat) (x : Port) : (d.setPort p x).cipher = d.cipher := rfl
@[simp] theorem dram_setPort (d : Dev) (p : Nat) (x : Port) : (d.setPort p x).dram = d.dram := rfl
@[simp] theorem lining_setPort (d : Dev) (p : Nat) (x : Port) : (d.setPort p x).lining = d.lining := rfl
@[simp] theorem ten_setPort (d : Dev) (p : Nat) (x : Port) : (d.setPort p x).ten = d.ten := rfl
@[simp] theorem mbx_setPort (d : Dev) (p : Nat) (x : Port) : (d.setPort p x).mbx = d.mbx := rfl
@[simp] theorem host_setPort (d : Dev) (p : Nat) (x : Port) : (d.setPort p x).host = d.host := rfl
@[simp] theorem gus_setPort (d : Dev) (p : Nat) (x : Port) : (d.setPort p x).gus = d.gus := rfl
@[simp] theorem island_setPort (d : Dev) (p : Nat) (x : Port) : (d.setPort p x).island = d.island := rfl
@[simp] theorem boot_setPort (d : Dev) (p : Nat) (x : Port) : (d.setPort p x).boot = d.boot := rfl
@[simp] theorem board_setPort (d : Dev) (p : Nat) (x : Port) : (d.setPort p x).board = d.board := rfl
@[simp] theorem power_setCuff (d : Dev) (c : Nat) (x : Cuff) : (d.setCuff c x).power = d.power := rfl
@[simp] theorem now_setCuff (d : Dev) (c : Nat) (x : Cuff) : (d.setCuff c x).now = d.now := rfl
@[simp] theorem rnd_setCuff (d : Dev) (c : Nat) (x : Cuff) : (d.setCuff c x).rnd = d.rnd := rfl
@[simp] theorem outbox_setCuff (d : Dev) (c : Nat) (x : Cuff) : (d.setCuff c x).outbox = d.outbox := rfl
@[simp] theorem lastSeen_setCuff (d : Dev) (c : Nat) (x : Cuff) : (d.setCuff c x).lastSeen = d.lastSeen := rfl
@[simp] theorem counters_setCuff (d : Dev) (c : Nat) (x : Cuff) : (d.setCuff c x).counters = d.counters := rfl
@[simp] theorem arch_setCuff (d : Dev) (c : Nat) (x : Cuff) : (d.setCuff c x).arch = d.arch := rfl
@[simp] theorem hem_setCuff (d : Dev) (c : Nat) (x : Cuff) : (d.setCuff c x).hem = d.hem := rfl
@[simp] theorem parse_setCuff (d : Dev) (c : Nat) (x : Cuff) : (d.setCuff c x).parse = d.parse := rfl
@[simp] theorem tables_setCuff (d : Dev) (c : Nat) (x : Cuff) : (d.setCuff c x).tables = d.tables := rfl
@[simp] theorem tcam_setCuff (d : Dev) (c : Nat) (x : Cuff) : (d.setCuff c x).tcam = d.tcam := rfl
@[simp] theorem vers_setCuff (d : Dev) (c : Nat) (x : Cuff) : (d.setCuff c x).vers = d.vers := rfl
@[simp] theorem micro_setCuff (d : Dev) (c : Nat) (x : Cuff) : (d.setCuff c x).micro = d.micro := rfl
@[simp] theorem yoke_setCuff (d : Dev) (c : Nat) (x : Cuff) : (d.setCuff c x).yoke = d.yoke := rfl
@[simp] theorem meter_setCuff (d : Dev) (c : Nat) (x : Cuff) : (d.setCuff c x).meter = d.meter := rfl
@[simp] theorem queues_setCuff (d : Dev) (c : Nat) (x : Cuff) : (d.setCuff c x).queues = d.queues := rfl
@[simp] theorem rel_setCuff (d : Dev) (c : Nat) (x : Cuff) : (d.setCuff c x).rel = d.rel := rfl
@[simp] theorem cipher_setCuff (d : Dev) (c : Nat) (x : Cuff) : (d.setCuff c x).cipher = d.cipher := rfl
@[simp] theorem dram_setCuff (d : Dev) (c : Nat) (x : Cuff) : (d.setCuff c x).dram = d.dram := rfl
@[simp] theorem lining_setCuff (d : Dev) (c : Nat) (x : Cuff) : (d.setCuff c x).lining = d.lining := rfl
@[simp] theorem ten_setCuff (d : Dev) (c : Nat) (x : Cuff) : (d.setCuff c x).ten = d.ten := rfl
@[simp] theorem mbx_setCuff (d : Dev) (c : Nat) (x : Cuff) : (d.setCuff c x).mbx = d.mbx := rfl
@[simp] theorem host_setCuff (d : Dev) (c : Nat) (x : Cuff) : (d.setCuff c x).host = d.host := rfl
@[simp] theorem gus_setCuff (d : Dev) (c : Nat) (x : Cuff) : (d.setCuff c x).gus = d.gus := rfl
@[simp] theorem island_setCuff (d : Dev) (c : Nat) (x : Cuff) : (d.setCuff c x).island = d.island := rfl
@[simp] theorem boot_setCuff (d : Dev) (c : Nat) (x : Cuff) : (d.setCuff c x).boot = d.boot := rfl
@[simp] theorem board_setCuff (d : Dev) (c : Nat) (x : Cuff) : (d.setCuff c x).board = d.board := rfl
@[simp] theorem power_setSleeve (d : Dev) (s : Nat) (x : SleeveState) : (d.setSleeve s x).power = d.power := rfl
@[simp] theorem now_setSleeve (d : Dev) (s : Nat) (x : SleeveState) : (d.setSleeve s x).now = d.now := rfl
@[simp] theorem rnd_setSleeve (d : Dev) (s : Nat) (x : SleeveState) : (d.setSleeve s x).rnd = d.rnd := rfl
@[simp] theorem outbox_setSleeve (d : Dev) (s : Nat) (x : SleeveState) : (d.setSleeve s x).outbox = d.outbox := rfl
@[simp] theorem lastSeen_setSleeve (d : Dev) (s : Nat) (x : SleeveState) : (d.setSleeve s x).lastSeen = d.lastSeen := rfl
@[simp] theorem counters_setSleeve (d : Dev) (s : Nat) (x : SleeveState) : (d.setSleeve s x).counters = d.counters := rfl
@[simp] theorem hem_setSleeve (d : Dev) (s : Nat) (x : SleeveState) : (d.setSleeve s x).hem = d.hem := rfl
@[simp] theorem ports_setSleeve (d : Dev) (s : Nat) (x : SleeveState) : (d.setSleeve s x).ports = d.ports := rfl
@[simp] theorem parse_setSleeve (d : Dev) (s : Nat) (x : SleeveState) : (d.setSleeve s x).parse = d.parse := rfl
@[simp] theorem tables_setSleeve (d : Dev) (s : Nat) (x : SleeveState) : (d.setSleeve s x).tables = d.tables := rfl
@[simp] theorem tcam_setSleeve (d : Dev) (s : Nat) (x : SleeveState) : (d.setSleeve s x).tcam = d.tcam := rfl
@[simp] theorem vers_setSleeve (d : Dev) (s : Nat) (x : SleeveState) : (d.setSleeve s x).vers = d.vers := rfl
@[simp] theorem micro_setSleeve (d : Dev) (s : Nat) (x : SleeveState) : (d.setSleeve s x).micro = d.micro := rfl
@[simp] theorem yoke_setSleeve (d : Dev) (s : Nat) (x : SleeveState) : (d.setSleeve s x).yoke = d.yoke := rfl
@[simp] theorem meter_setSleeve (d : Dev) (s : Nat) (x : SleeveState) : (d.setSleeve s x).meter = d.meter := rfl
@[simp] theorem queues_setSleeve (d : Dev) (s : Nat) (x : SleeveState) : (d.setSleeve s x).queues = d.queues := rfl
@[simp] theorem rel_setSleeve (d : Dev) (s : Nat) (x : SleeveState) : (d.setSleeve s x).rel = d.rel := rfl
@[simp] theorem cipher_setSleeve (d : Dev) (s : Nat) (x : SleeveState) : (d.setSleeve s x).cipher = d.cipher := rfl
@[simp] theorem dram_setSleeve (d : Dev) (s : Nat) (x : SleeveState) : (d.setSleeve s x).dram = d.dram := rfl
@[simp] theorem lining_setSleeve (d : Dev) (s : Nat) (x : SleeveState) : (d.setSleeve s x).lining = d.lining := rfl
@[simp] theorem ten_setSleeve (d : Dev) (s : Nat) (x : SleeveState) : (d.setSleeve s x).ten = d.ten := rfl
@[simp] theorem mbx_setSleeve (d : Dev) (s : Nat) (x : SleeveState) : (d.setSleeve s x).mbx = d.mbx := rfl
@[simp] theorem host_setSleeve (d : Dev) (s : Nat) (x : SleeveState) : (d.setSleeve s x).host = d.host := rfl
@[simp] theorem gus_setSleeve (d : Dev) (s : Nat) (x : SleeveState) : (d.setSleeve s x).gus = d.gus := rfl
@[simp] theorem island_setSleeve (d : Dev) (s : Nat) (x : SleeveState) : (d.setSleeve s x).island = d.island := rfl
@[simp] theorem boot_setSleeve (d : Dev) (s : Nat) (x : SleeveState) : (d.setSleeve s x).boot = d.boot := rfl
@[simp] theorem board_setSleeve (d : Dev) (s : Nat) (x : SleeveState) : (d.setSleeve s x).board = d.board := rfl
@[simp] theorem power_setFrame (d : Dev) (fid : Nat) (f : Frame) : (d.setFrame fid f).power = d.power := rfl
@[simp] theorem now_setFrame (d : Dev) (fid : Nat) (f : Frame) : (d.setFrame fid f).now = d.now := rfl
@[simp] theorem rnd_setFrame (d : Dev) (fid : Nat) (f : Frame) : (d.setFrame fid f).rnd = d.rnd := rfl
@[simp] theorem outbox_setFrame (d : Dev) (fid : Nat) (f : Frame) : (d.setFrame fid f).outbox = d.outbox := rfl
@[simp] theorem lastSeen_setFrame (d : Dev) (fid : Nat) (f : Frame) : (d.setFrame fid f).lastSeen = d.lastSeen := rfl
@[simp] theorem counters_setFrame (d : Dev) (fid : Nat) (f : Frame) : (d.setFrame fid f).counters = d.counters := rfl
@[simp] theorem arch_setFrame (d : Dev) (fid : Nat) (f : Frame) : (d.setFrame fid f).arch = d.arch := rfl
@[simp] theorem hem_setFrame (d : Dev) (fid : Nat) (f : Frame) : (d.setFrame fid f).hem = d.hem := rfl
@[simp] theorem parse_setFrame (d : Dev) (fid : Nat) (f : Frame) : (d.setFrame fid f).parse = d.parse := rfl
@[simp] theorem tables_setFrame (d : Dev) (fid : Nat) (f : Frame) : (d.setFrame fid f).tables = d.tables := rfl
@[simp] theorem tcam_setFrame (d : Dev) (fid : Nat) (f : Frame) : (d.setFrame fid f).tcam = d.tcam := rfl
@[simp] theorem vers_setFrame (d : Dev) (fid : Nat) (f : Frame) : (d.setFrame fid f).vers = d.vers := rfl
@[simp] theorem micro_setFrame (d : Dev) (fid : Nat) (f : Frame) : (d.setFrame fid f).micro = d.micro := rfl
@[simp] theorem yoke_setFrame (d : Dev) (fid : Nat) (f : Frame) : (d.setFrame fid f).yoke = d.yoke := rfl
@[simp] theorem meter_setFrame (d : Dev) (fid : Nat) (f : Frame) : (d.setFrame fid f).meter = d.meter := rfl
@[simp] theorem queues_setFrame (d : Dev) (fid : Nat) (f : Frame) : (d.setFrame fid f).queues = d.queues := rfl
@[simp] theorem rel_setFrame (d : Dev) (fid : Nat) (f : Frame) : (d.setFrame fid f).rel = d.rel := rfl
@[simp] theorem cipher_setFrame (d : Dev) (fid : Nat) (f : Frame) : (d.setFrame fid f).cipher = d.cipher := rfl
@[simp] theorem dram_setFrame (d : Dev) (fid : Nat) (f : Frame) : (d.setFrame fid f).dram = d.dram := rfl
@[simp] theorem lining_setFrame (d : Dev) (fid : Nat) (f : Frame) : (d.setFrame fid f).lining = d.lining := rfl
@[simp] theorem ten_setFrame (d : Dev) (fid : Nat) (f : Frame) : (d.setFrame fid f).ten = d.ten := rfl
@[simp] theorem mbx_setFrame (d : Dev) (fid : Nat) (f : Frame) : (d.setFrame fid f).mbx = d.mbx := rfl
@[simp] theorem host_setFrame (d : Dev) (fid : Nat) (f : Frame) : (d.setFrame fid f).host = d.host := rfl
@[simp] theorem gus_setFrame (d : Dev) (fid : Nat) (f : Frame) : (d.setFrame fid f).gus = d.gus := rfl
@[simp] theorem island_setFrame (d : Dev) (fid : Nat) (f : Frame) : (d.setFrame fid f).island = d.island := rfl
@[simp] theorem boot_setFrame (d : Dev) (fid : Nat) (f : Frame) : (d.setFrame fid f).boot = d.boot := rfl
@[simp] theorem board_setFrame (d : Dev) (fid : Nat) (f : Frame) : (d.setFrame fid f).board = d.board := rfl
@[simp] theorem power_setLane (d : Dev) (l : Nat) (x : Lane) : (d.setLane l x).power = d.power := rfl
@[simp] theorem now_setLane (d : Dev) (l : Nat) (x : Lane) : (d.setLane l x).now = d.now := rfl
@[simp] theorem rnd_setLane (d : Dev) (l : Nat) (x : Lane) : (d.setLane l x).rnd = d.rnd := rfl
@[simp] theorem outbox_setLane (d : Dev) (l : Nat) (x : Lane) : (d.setLane l x).outbox = d.outbox := rfl
@[simp] theorem lastSeen_setLane (d : Dev) (l : Nat) (x : Lane) : (d.setLane l x).lastSeen = d.lastSeen := rfl
@[simp] theorem counters_setLane (d : Dev) (l : Nat) (x : Lane) : (d.setLane l x).counters = d.counters := rfl
@[simp] theorem arch_setLane (d : Dev) (l : Nat) (x : Lane) : (d.setLane l x).arch = d.arch := rfl
@[simp] theorem hem_setLane (d : Dev) (l : Nat) (x : Lane) : (d.setLane l x).hem = d.hem := rfl
@[simp] theorem parse_setLane (d : Dev) (l : Nat) (x : Lane) : (d.setLane l x).parse = d.parse := rfl
@[simp] theorem tables_setLane (d : Dev) (l : Nat) (x : Lane) : (d.setLane l x).tables = d.tables := rfl
@[simp] theorem tcam_setLane (d : Dev) (l : Nat) (x : Lane) : (d.setLane l x).tcam = d.tcam := rfl
@[simp] theorem vers_setLane (d : Dev) (l : Nat) (x : Lane) : (d.setLane l x).vers = d.vers := rfl
@[simp] theorem micro_setLane (d : Dev) (l : Nat) (x : Lane) : (d.setLane l x).micro = d.micro := rfl
@[simp] theorem yoke_setLane (d : Dev) (l : Nat) (x : Lane) : (d.setLane l x).yoke = d.yoke := rfl
@[simp] theorem meter_setLane (d : Dev) (l : Nat) (x : Lane) : (d.setLane l x).meter = d.meter := rfl
@[simp] theorem queues_setLane (d : Dev) (l : Nat) (x : Lane) : (d.setLane l x).queues = d.queues := rfl
@[simp] theorem rel_setLane (d : Dev) (l : Nat) (x : Lane) : (d.setLane l x).rel = d.rel := rfl
@[simp] theorem cipher_setLane (d : Dev) (l : Nat) (x : Lane) : (d.setLane l x).cipher = d.cipher := rfl
@[simp] theorem dram_setLane (d : Dev) (l : Nat) (x : Lane) : (d.setLane l x).dram = d.dram := rfl
@[simp] theorem lining_setLane (d : Dev) (l : Nat) (x : Lane) : (d.setLane l x).lining = d.lining := rfl
@[simp] theorem ten_setLane (d : Dev) (l : Nat) (x : Lane) : (d.setLane l x).ten = d.ten := rfl
@[simp] theorem mbx_setLane (d : Dev) (l : Nat) (x : Lane) : (d.setLane l x).mbx = d.mbx := rfl
@[simp] theorem host_setLane (d : Dev) (l : Nat) (x : Lane) : (d.setLane l x).host = d.host := rfl
@[simp] theorem gus_setLane (d : Dev) (l : Nat) (x : Lane) : (d.setLane l x).gus = d.gus := rfl
@[simp] theorem island_setLane (d : Dev) (l : Nat) (x : Lane) : (d.setLane l x).island = d.island := rfl
@[simp] theorem boot_setLane (d : Dev) (l : Nat) (x : Lane) : (d.setLane l x).boot = d.boot := rfl
@[simp] theorem board_setLane (d : Dev) (l : Nat) (x : Lane) : (d.setLane l x).board = d.board := rfl
@[simp] theorem power_setLink (d : Dev) (p : Nat) (st : LinkState) : (d.setLink p st).power = d.power := rfl
@[simp] theorem now_setLink (d : Dev) (p : Nat) (st : LinkState) : (d.setLink p st).now = d.now := rfl
@[simp] theorem rnd_setLink (d : Dev) (p : Nat) (st : LinkState) : (d.setLink p st).rnd = d.rnd := rfl
@[simp] theorem outbox_setLink (d : Dev) (p : Nat) (st : LinkState) : (d.setLink p st).outbox = d.outbox := rfl
@[simp] theorem lastSeen_setLink (d : Dev) (p : Nat) (st : LinkState) : (d.setLink p st).lastSeen = d.lastSeen := rfl
@[simp] theorem counters_setLink (d : Dev) (p : Nat) (st : LinkState) : (d.setLink p st).counters = d.counters := rfl
@[simp] theorem arch_setLink (d : Dev) (p : Nat) (st : LinkState) : (d.setLink p st).arch = d.arch := rfl
@[simp] theorem hem_setLink (d : Dev) (p : Nat) (st : LinkState) : (d.setLink p st).hem = d.hem := rfl
@[simp] theorem parse_setLink (d : Dev) (p : Nat) (st : LinkState) : (d.setLink p st).parse = d.parse := rfl
@[simp] theorem tables_setLink (d : Dev) (p : Nat) (st : LinkState) : (d.setLink p st).tables = d.tables := rfl
@[simp] theorem tcam_setLink (d : Dev) (p : Nat) (st : LinkState) : (d.setLink p st).tcam = d.tcam := rfl
@[simp] theorem vers_setLink (d : Dev) (p : Nat) (st : LinkState) : (d.setLink p st).vers = d.vers := rfl
@[simp] theorem micro_setLink (d : Dev) (p : Nat) (st : LinkState) : (d.setLink p st).micro = d.micro := rfl
@[simp] theorem yoke_setLink (d : Dev) (p : Nat) (st : LinkState) : (d.setLink p st).yoke = d.yoke := rfl
@[simp] theorem meter_setLink (d : Dev) (p : Nat) (st : LinkState) : (d.setLink p st).meter = d.meter := rfl
@[simp] theorem queues_setLink (d : Dev) (p : Nat) (st : LinkState) : (d.setLink p st).queues = d.queues := rfl
@[simp] theorem rel_setLink (d : Dev) (p : Nat) (st : LinkState) : (d.setLink p st).rel = d.rel := rfl
@[simp] theorem cipher_setLink (d : Dev) (p : Nat) (st : LinkState) : (d.setLink p st).cipher = d.cipher := rfl
@[simp] theorem dram_setLink (d : Dev) (p : Nat) (st : LinkState) : (d.setLink p st).dram = d.dram := rfl
@[simp] theorem lining_setLink (d : Dev) (p : Nat) (st : LinkState) : (d.setLink p st).lining = d.lining := rfl
@[simp] theorem ten_setLink (d : Dev) (p : Nat) (st : LinkState) : (d.setLink p st).ten = d.ten := rfl
@[simp] theorem mbx_setLink (d : Dev) (p : Nat) (st : LinkState) : (d.setLink p st).mbx = d.mbx := rfl
@[simp] theorem host_setLink (d : Dev) (p : Nat) (st : LinkState) : (d.setLink p st).host = d.host := rfl
@[simp] theorem gus_setLink (d : Dev) (p : Nat) (st : LinkState) : (d.setLink p st).gus = d.gus := rfl
@[simp] theorem island_setLink (d : Dev) (p : Nat) (st : LinkState) : (d.setLink p st).island = d.island := rfl
@[simp] theorem boot_setLink (d : Dev) (p : Nat) (st : LinkState) : (d.setLink p st).boot = d.boot := rfl
@[simp] theorem board_setLink (d : Dev) (p : Nat) (st : LinkState) : (d.setLink p st).board = d.board := rfl
@[simp] theorem power_setChan (d : Dev) (p : Nat) (c : DramChannel) : (d.setChan p c).power = d.power := rfl
@[simp] theorem now_setChan (d : Dev) (p : Nat) (c : DramChannel) : (d.setChan p c).now = d.now := rfl
@[simp] theorem rnd_setChan (d : Dev) (p : Nat) (c : DramChannel) : (d.setChan p c).rnd = d.rnd := rfl
@[simp] theorem outbox_setChan (d : Dev) (p : Nat) (c : DramChannel) : (d.setChan p c).outbox = d.outbox := rfl
@[simp] theorem lastSeen_setChan (d : Dev) (p : Nat) (c : DramChannel) : (d.setChan p c).lastSeen = d.lastSeen := rfl
@[simp] theorem counters_setChan (d : Dev) (p : Nat) (c : DramChannel) : (d.setChan p c).counters = d.counters := rfl
@[simp] theorem arch_setChan (d : Dev) (p : Nat) (c : DramChannel) : (d.setChan p c).arch = d.arch := rfl
@[simp] theorem hem_setChan (d : Dev) (p : Nat) (c : DramChannel) : (d.setChan p c).hem = d.hem := rfl
@[simp] theorem ports_setChan (d : Dev) (p : Nat) (c : DramChannel) : (d.setChan p c).ports = d.ports := rfl
@[simp] theorem parse_setChan (d : Dev) (p : Nat) (c : DramChannel) : (d.setChan p c).parse = d.parse := rfl
@[simp] theorem tables_setChan (d : Dev) (p : Nat) (c : DramChannel) : (d.setChan p c).tables = d.tables := rfl
@[simp] theorem tcam_setChan (d : Dev) (p : Nat) (c : DramChannel) : (d.setChan p c).tcam = d.tcam := rfl
@[simp] theorem vers_setChan (d : Dev) (p : Nat) (c : DramChannel) : (d.setChan p c).vers = d.vers := rfl
@[simp] theorem micro_setChan (d : Dev) (p : Nat) (c : DramChannel) : (d.setChan p c).micro = d.micro := rfl
@[simp] theorem yoke_setChan (d : Dev) (p : Nat) (c : DramChannel) : (d.setChan p c).yoke = d.yoke := rfl
@[simp] theorem meter_setChan (d : Dev) (p : Nat) (c : DramChannel) : (d.setChan p c).meter = d.meter := rfl
@[simp] theorem queues_setChan (d : Dev) (p : Nat) (c : DramChannel) : (d.setChan p c).queues = d.queues := rfl
@[simp] theorem rel_setChan (d : Dev) (p : Nat) (c : DramChannel) : (d.setChan p c).rel = d.rel := rfl
@[simp] theorem cipher_setChan (d : Dev) (p : Nat) (c : DramChannel) : (d.setChan p c).cipher = d.cipher := rfl
@[simp] theorem lining_setChan (d : Dev) (p : Nat) (c : DramChannel) : (d.setChan p c).lining = d.lining := rfl
@[simp] theorem ten_setChan (d : Dev) (p : Nat) (c : DramChannel) : (d.setChan p c).ten = d.ten := rfl
@[simp] theorem mbx_setChan (d : Dev) (p : Nat) (c : DramChannel) : (d.setChan p c).mbx = d.mbx := rfl
@[simp] theorem host_setChan (d : Dev) (p : Nat) (c : DramChannel) : (d.setChan p c).host = d.host := rfl
@[simp] theorem gus_setChan (d : Dev) (p : Nat) (c : DramChannel) : (d.setChan p c).gus = d.gus := rfl
@[simp] theorem island_setChan (d : Dev) (p : Nat) (c : DramChannel) : (d.setChan p c).island = d.island := rfl
@[simp] theorem boot_setChan (d : Dev) (p : Nat) (c : DramChannel) : (d.setChan p c).boot = d.boot := rfl
@[simp] theorem board_setChan (d : Dev) (p : Nat) (c : DramChannel) : (d.setChan p c).board = d.board := rfl
@[simp] theorem power_setSc (d : Dev) (i : Nat) (x : Sc) : (d.setSc i x).power = d.power := rfl
@[simp] theorem now_setSc (d : Dev) (i : Nat) (x : Sc) : (d.setSc i x).now = d.now := rfl
@[simp] theorem rnd_setSc (d : Dev) (i : Nat) (x : Sc) : (d.setSc i x).rnd = d.rnd := rfl
@[simp] theorem outbox_setSc (d : Dev) (i : Nat) (x : Sc) : (d.setSc i x).outbox = d.outbox := rfl
@[simp] theorem lastSeen_setSc (d : Dev) (i : Nat) (x : Sc) : (d.setSc i x).lastSeen = d.lastSeen := rfl
@[simp] theorem counters_setSc (d : Dev) (i : Nat) (x : Sc) : (d.setSc i x).counters = d.counters := rfl
@[simp] theorem arch_setSc (d : Dev) (i : Nat) (x : Sc) : (d.setSc i x).arch = d.arch := rfl
@[simp] theorem hem_setSc (d : Dev) (i : Nat) (x : Sc) : (d.setSc i x).hem = d.hem := rfl
@[simp] theorem ports_setSc (d : Dev) (i : Nat) (x : Sc) : (d.setSc i x).ports = d.ports := rfl
@[simp] theorem parse_setSc (d : Dev) (i : Nat) (x : Sc) : (d.setSc i x).parse = d.parse := rfl
@[simp] theorem tables_setSc (d : Dev) (i : Nat) (x : Sc) : (d.setSc i x).tables = d.tables := rfl
@[simp] theorem tcam_setSc (d : Dev) (i : Nat) (x : Sc) : (d.setSc i x).tcam = d.tcam := rfl
@[simp] theorem vers_setSc (d : Dev) (i : Nat) (x : Sc) : (d.setSc i x).vers = d.vers := rfl
@[simp] theorem micro_setSc (d : Dev) (i : Nat) (x : Sc) : (d.setSc i x).micro = d.micro := rfl
@[simp] theorem yoke_setSc (d : Dev) (i : Nat) (x : Sc) : (d.setSc i x).yoke = d.yoke := rfl
@[simp] theorem meter_setSc (d : Dev) (i : Nat) (x : Sc) : (d.setSc i x).meter = d.meter := rfl
@[simp] theorem queues_setSc (d : Dev) (i : Nat) (x : Sc) : (d.setSc i x).queues = d.queues := rfl
@[simp] theorem rel_setSc (d : Dev) (i : Nat) (x : Sc) : (d.setSc i x).rel = d.rel := rfl
@[simp] theorem dram_setSc (d : Dev) (i : Nat) (x : Sc) : (d.setSc i x).dram = d.dram := rfl
@[simp] theorem lining_setSc (d : Dev) (i : Nat) (x : Sc) : (d.setSc i x).lining = d.lining := rfl
@[simp] theorem ten_setSc (d : Dev) (i : Nat) (x : Sc) : (d.setSc i x).ten = d.ten := rfl
@[simp] theorem mbx_setSc (d : Dev) (i : Nat) (x : Sc) : (d.setSc i x).mbx = d.mbx := rfl
@[simp] theorem host_setSc (d : Dev) (i : Nat) (x : Sc) : (d.setSc i x).host = d.host := rfl
@[simp] theorem gus_setSc (d : Dev) (i : Nat) (x : Sc) : (d.setSc i x).gus = d.gus := rfl
@[simp] theorem island_setSc (d : Dev) (i : Nat) (x : Sc) : (d.setSc i x).island = d.island := rfl
@[simp] theorem boot_setSc (d : Dev) (i : Nat) (x : Sc) : (d.setSc i x).boot = d.boot := rfl
@[simp] theorem board_setSc (d : Dev) (i : Nat) (x : Sc) : (d.setSc i x).board = d.board := rfl
@[simp] theorem power_setSaKey (d : Dev) (i : Nat) (x : SaKey) : (d.setSaKey i x).power = d.power := rfl
@[simp] theorem now_setSaKey (d : Dev) (i : Nat) (x : SaKey) : (d.setSaKey i x).now = d.now := rfl
@[simp] theorem rnd_setSaKey (d : Dev) (i : Nat) (x : SaKey) : (d.setSaKey i x).rnd = d.rnd := rfl
@[simp] theorem outbox_setSaKey (d : Dev) (i : Nat) (x : SaKey) : (d.setSaKey i x).outbox = d.outbox := rfl
@[simp] theorem lastSeen_setSaKey (d : Dev) (i : Nat) (x : SaKey) : (d.setSaKey i x).lastSeen = d.lastSeen := rfl
@[simp] theorem counters_setSaKey (d : Dev) (i : Nat) (x : SaKey) : (d.setSaKey i x).counters = d.counters := rfl
@[simp] theorem arch_setSaKey (d : Dev) (i : Nat) (x : SaKey) : (d.setSaKey i x).arch = d.arch := rfl
@[simp] theorem hem_setSaKey (d : Dev) (i : Nat) (x : SaKey) : (d.setSaKey i x).hem = d.hem := rfl
@[simp] theorem ports_setSaKey (d : Dev) (i : Nat) (x : SaKey) : (d.setSaKey i x).ports = d.ports := rfl
@[simp] theorem parse_setSaKey (d : Dev) (i : Nat) (x : SaKey) : (d.setSaKey i x).parse = d.parse := rfl
@[simp] theorem tables_setSaKey (d : Dev) (i : Nat) (x : SaKey) : (d.setSaKey i x).tables = d.tables := rfl
@[simp] theorem tcam_setSaKey (d : Dev) (i : Nat) (x : SaKey) : (d.setSaKey i x).tcam = d.tcam := rfl
@[simp] theorem vers_setSaKey (d : Dev) (i : Nat) (x : SaKey) : (d.setSaKey i x).vers = d.vers := rfl
@[simp] theorem micro_setSaKey (d : Dev) (i : Nat) (x : SaKey) : (d.setSaKey i x).micro = d.micro := rfl
@[simp] theorem yoke_setSaKey (d : Dev) (i : Nat) (x : SaKey) : (d.setSaKey i x).yoke = d.yoke := rfl
@[simp] theorem meter_setSaKey (d : Dev) (i : Nat) (x : SaKey) : (d.setSaKey i x).meter = d.meter := rfl
@[simp] theorem queues_setSaKey (d : Dev) (i : Nat) (x : SaKey) : (d.setSaKey i x).queues = d.queues := rfl
@[simp] theorem rel_setSaKey (d : Dev) (i : Nat) (x : SaKey) : (d.setSaKey i x).rel = d.rel := rfl
@[simp] theorem dram_setSaKey (d : Dev) (i : Nat) (x : SaKey) : (d.setSaKey i x).dram = d.dram := rfl
@[simp] theorem lining_setSaKey (d : Dev) (i : Nat) (x : SaKey) : (d.setSaKey i x).lining = d.lining := rfl
@[simp] theorem ten_setSaKey (d : Dev) (i : Nat) (x : SaKey) : (d.setSaKey i x).ten = d.ten := rfl
@[simp] theorem mbx_setSaKey (d : Dev) (i : Nat) (x : SaKey) : (d.setSaKey i x).mbx = d.mbx := rfl
@[simp] theorem host_setSaKey (d : Dev) (i : Nat) (x : SaKey) : (d.setSaKey i x).host = d.host := rfl
@[simp] theorem gus_setSaKey (d : Dev) (i : Nat) (x : SaKey) : (d.setSaKey i x).gus = d.gus := rfl
@[simp] theorem island_setSaKey (d : Dev) (i : Nat) (x : SaKey) : (d.setSaKey i x).island = d.island := rfl
@[simp] theorem boot_setSaKey (d : Dev) (i : Nat) (x : SaKey) : (d.setSaKey i x).boot = d.boot := rfl
@[simp] theorem board_setSaKey (d : Dev) (i : Nat) (x : SaKey) : (d.setSaKey i x).board = d.board := rfl
@[simp] theorem power_setBulkKey (d : Dev) (i : Nat) (k : BulkKey) : (d.setBulkKey i k).power = d.power := rfl
@[simp] theorem now_setBulkKey (d : Dev) (i : Nat) (k : BulkKey) : (d.setBulkKey i k).now = d.now := rfl
@[simp] theorem rnd_setBulkKey (d : Dev) (i : Nat) (k : BulkKey) : (d.setBulkKey i k).rnd = d.rnd := rfl
@[simp] theorem outbox_setBulkKey (d : Dev) (i : Nat) (k : BulkKey) : (d.setBulkKey i k).outbox = d.outbox := rfl
@[simp] theorem lastSeen_setBulkKey (d : Dev) (i : Nat) (k : BulkKey) : (d.setBulkKey i k).lastSeen = d.lastSeen := rfl
@[simp] theorem counters_setBulkKey (d : Dev) (i : Nat) (k : BulkKey) : (d.setBulkKey i k).counters = d.counters := rfl
@[simp] theorem arch_setBulkKey (d : Dev) (i : Nat) (k : BulkKey) : (d.setBulkKey i k).arch = d.arch := rfl
@[simp] theorem hem_setBulkKey (d : Dev) (i : Nat) (k : BulkKey) : (d.setBulkKey i k).hem = d.hem := rfl
@[simp] theorem ports_setBulkKey (d : Dev) (i : Nat) (k : BulkKey) : (d.setBulkKey i k).ports = d.ports := rfl
@[simp] theorem parse_setBulkKey (d : Dev) (i : Nat) (k : BulkKey) : (d.setBulkKey i k).parse = d.parse := rfl
@[simp] theorem tables_setBulkKey (d : Dev) (i : Nat) (k : BulkKey) : (d.setBulkKey i k).tables = d.tables := rfl
@[simp] theorem tcam_setBulkKey (d : Dev) (i : Nat) (k : BulkKey) : (d.setBulkKey i k).tcam = d.tcam := rfl
@[simp] theorem vers_setBulkKey (d : Dev) (i : Nat) (k : BulkKey) : (d.setBulkKey i k).vers = d.vers := rfl
@[simp] theorem micro_setBulkKey (d : Dev) (i : Nat) (k : BulkKey) : (d.setBulkKey i k).micro = d.micro := rfl
@[simp] theorem yoke_setBulkKey (d : Dev) (i : Nat) (k : BulkKey) : (d.setBulkKey i k).yoke = d.yoke := rfl
@[simp] theorem meter_setBulkKey (d : Dev) (i : Nat) (k : BulkKey) : (d.setBulkKey i k).meter = d.meter := rfl
@[simp] theorem queues_setBulkKey (d : Dev) (i : Nat) (k : BulkKey) : (d.setBulkKey i k).queues = d.queues := rfl
@[simp] theorem rel_setBulkKey (d : Dev) (i : Nat) (k : BulkKey) : (d.setBulkKey i k).rel = d.rel := rfl
@[simp] theorem dram_setBulkKey (d : Dev) (i : Nat) (k : BulkKey) : (d.setBulkKey i k).dram = d.dram := rfl
@[simp] theorem lining_setBulkKey (d : Dev) (i : Nat) (k : BulkKey) : (d.setBulkKey i k).lining = d.lining := rfl
@[simp] theorem ten_setBulkKey (d : Dev) (i : Nat) (k : BulkKey) : (d.setBulkKey i k).ten = d.ten := rfl
@[simp] theorem mbx_setBulkKey (d : Dev) (i : Nat) (k : BulkKey) : (d.setBulkKey i k).mbx = d.mbx := rfl
@[simp] theorem host_setBulkKey (d : Dev) (i : Nat) (k : BulkKey) : (d.setBulkKey i k).host = d.host := rfl
@[simp] theorem gus_setBulkKey (d : Dev) (i : Nat) (k : BulkKey) : (d.setBulkKey i k).gus = d.gus := rfl
@[simp] theorem island_setBulkKey (d : Dev) (i : Nat) (k : BulkKey) : (d.setBulkKey i k).island = d.island := rfl
@[simp] theorem boot_setBulkKey (d : Dev) (i : Nat) (k : BulkKey) : (d.setBulkKey i k).boot = d.boot := rfl
@[simp] theorem board_setBulkKey (d : Dev) (i : Nat) (k : BulkKey) : (d.setBulkKey i k).board = d.board := rfl
@[simp] theorem power_setCapture (d : Dev) (t : Nat) (c : Capture) : (d.setCapture t c).power = d.power := rfl
@[simp] theorem now_setCapture (d : Dev) (t : Nat) (c : Capture) : (d.setCapture t c).now = d.now := rfl
@[simp] theorem rnd_setCapture (d : Dev) (t : Nat) (c : Capture) : (d.setCapture t c).rnd = d.rnd := rfl
@[simp] theorem outbox_setCapture (d : Dev) (t : Nat) (c : Capture) : (d.setCapture t c).outbox = d.outbox := rfl
@[simp] theorem lastSeen_setCapture (d : Dev) (t : Nat) (c : Capture) : (d.setCapture t c).lastSeen = d.lastSeen := rfl
@[simp] theorem counters_setCapture (d : Dev) (t : Nat) (c : Capture) : (d.setCapture t c).counters = d.counters := rfl
@[simp] theorem arch_setCapture (d : Dev) (t : Nat) (c : Capture) : (d.setCapture t c).arch = d.arch := rfl
@[simp] theorem hem_setCapture (d : Dev) (t : Nat) (c : Capture) : (d.setCapture t c).hem = d.hem := rfl
@[simp] theorem ports_setCapture (d : Dev) (t : Nat) (c : Capture) : (d.setCapture t c).ports = d.ports := rfl
@[simp] theorem parse_setCapture (d : Dev) (t : Nat) (c : Capture) : (d.setCapture t c).parse = d.parse := rfl
@[simp] theorem tables_setCapture (d : Dev) (t : Nat) (c : Capture) : (d.setCapture t c).tables = d.tables := rfl
@[simp] theorem tcam_setCapture (d : Dev) (t : Nat) (c : Capture) : (d.setCapture t c).tcam = d.tcam := rfl
@[simp] theorem vers_setCapture (d : Dev) (t : Nat) (c : Capture) : (d.setCapture t c).vers = d.vers := rfl
@[simp] theorem micro_setCapture (d : Dev) (t : Nat) (c : Capture) : (d.setCapture t c).micro = d.micro := rfl
@[simp] theorem yoke_setCapture (d : Dev) (t : Nat) (c : Capture) : (d.setCapture t c).yoke = d.yoke := rfl
@[simp] theorem meter_setCapture (d : Dev) (t : Nat) (c : Capture) : (d.setCapture t c).meter = d.meter := rfl
@[simp] theorem queues_setCapture (d : Dev) (t : Nat) (c : Capture) : (d.setCapture t c).queues = d.queues := rfl
@[simp] theorem rel_setCapture (d : Dev) (t : Nat) (c : Capture) : (d.setCapture t c).rel = d.rel := rfl
@[simp] theorem cipher_setCapture (d : Dev) (t : Nat) (c : Capture) : (d.setCapture t c).cipher = d.cipher := rfl
@[simp] theorem dram_setCapture (d : Dev) (t : Nat) (c : Capture) : (d.setCapture t c).dram = d.dram := rfl
@[simp] theorem ten_setCapture (d : Dev) (t : Nat) (c : Capture) : (d.setCapture t c).ten = d.ten := rfl
@[simp] theorem mbx_setCapture (d : Dev) (t : Nat) (c : Capture) : (d.setCapture t c).mbx = d.mbx := rfl
@[simp] theorem host_setCapture (d : Dev) (t : Nat) (c : Capture) : (d.setCapture t c).host = d.host := rfl
@[simp] theorem gus_setCapture (d : Dev) (t : Nat) (c : Capture) : (d.setCapture t c).gus = d.gus := rfl
@[simp] theorem island_setCapture (d : Dev) (t : Nat) (c : Capture) : (d.setCapture t c).island = d.island := rfl
@[simp] theorem boot_setCapture (d : Dev) (t : Nat) (c : Capture) : (d.setCapture t c).boot = d.boot := rfl
@[simp] theorem board_setCapture (d : Dev) (t : Nat) (c : Capture) : (d.setCapture t c).board = d.board := rfl
@[simp] theorem power_setReplay (d : Dev) (s : Nat) (r : Replay) : (d.setReplay s r).power = d.power := rfl
@[simp] theorem now_setReplay (d : Dev) (s : Nat) (r : Replay) : (d.setReplay s r).now = d.now := rfl
@[simp] theorem rnd_setReplay (d : Dev) (s : Nat) (r : Replay) : (d.setReplay s r).rnd = d.rnd := rfl
@[simp] theorem outbox_setReplay (d : Dev) (s : Nat) (r : Replay) : (d.setReplay s r).outbox = d.outbox := rfl
@[simp] theorem lastSeen_setReplay (d : Dev) (s : Nat) (r : Replay) : (d.setReplay s r).lastSeen = d.lastSeen := rfl
@[simp] theorem counters_setReplay (d : Dev) (s : Nat) (r : Replay) : (d.setReplay s r).counters = d.counters := rfl
@[simp] theorem arch_setReplay (d : Dev) (s : Nat) (r : Replay) : (d.setReplay s r).arch = d.arch := rfl
@[simp] theorem hem_setReplay (d : Dev) (s : Nat) (r : Replay) : (d.setReplay s r).hem = d.hem := rfl
@[simp] theorem ports_setReplay (d : Dev) (s : Nat) (r : Replay) : (d.setReplay s r).ports = d.ports := rfl
@[simp] theorem parse_setReplay (d : Dev) (s : Nat) (r : Replay) : (d.setReplay s r).parse = d.parse := rfl
@[simp] theorem tables_setReplay (d : Dev) (s : Nat) (r : Replay) : (d.setReplay s r).tables = d.tables := rfl
@[simp] theorem tcam_setReplay (d : Dev) (s : Nat) (r : Replay) : (d.setReplay s r).tcam = d.tcam := rfl
@[simp] theorem vers_setReplay (d : Dev) (s : Nat) (r : Replay) : (d.setReplay s r).vers = d.vers := rfl
@[simp] theorem micro_setReplay (d : Dev) (s : Nat) (r : Replay) : (d.setReplay s r).micro = d.micro := rfl
@[simp] theorem yoke_setReplay (d : Dev) (s : Nat) (r : Replay) : (d.setReplay s r).yoke = d.yoke := rfl
@[simp] theorem meter_setReplay (d : Dev) (s : Nat) (r : Replay) : (d.setReplay s r).meter = d.meter := rfl
@[simp] theorem queues_setReplay (d : Dev) (s : Nat) (r : Replay) : (d.setReplay s r).queues = d.queues := rfl
@[simp] theorem rel_setReplay (d : Dev) (s : Nat) (r : Replay) : (d.setReplay s r).rel = d.rel := rfl
@[simp] theorem cipher_setReplay (d : Dev) (s : Nat) (r : Replay) : (d.setReplay s r).cipher = d.cipher := rfl
@[simp] theorem dram_setReplay (d : Dev) (s : Nat) (r : Replay) : (d.setReplay s r).dram = d.dram := rfl
@[simp] theorem ten_setReplay (d : Dev) (s : Nat) (r : Replay) : (d.setReplay s r).ten = d.ten := rfl
@[simp] theorem mbx_setReplay (d : Dev) (s : Nat) (r : Replay) : (d.setReplay s r).mbx = d.mbx := rfl
@[simp] theorem host_setReplay (d : Dev) (s : Nat) (r : Replay) : (d.setReplay s r).host = d.host := rfl
@[simp] theorem gus_setReplay (d : Dev) (s : Nat) (r : Replay) : (d.setReplay s r).gus = d.gus := rfl
@[simp] theorem island_setReplay (d : Dev) (s : Nat) (r : Replay) : (d.setReplay s r).island = d.island := rfl
@[simp] theorem boot_setReplay (d : Dev) (s : Nat) (r : Replay) : (d.setReplay s r).boot = d.boot := rfl
@[simp] theorem board_setReplay (d : Dev) (s : Nat) (r : Replay) : (d.setReplay s r).board = d.board := rfl
@[simp] theorem power_setLearner (d : Dev) (s : Nat) (x : LearnSleeve) : (d.setLearner s x).power = d.power := rfl
@[simp] theorem now_setLearner (d : Dev) (s : Nat) (x : LearnSleeve) : (d.setLearner s x).now = d.now := rfl
@[simp] theorem rnd_setLearner (d : Dev) (s : Nat) (x : LearnSleeve) : (d.setLearner s x).rnd = d.rnd := rfl
@[simp] theorem outbox_setLearner (d : Dev) (s : Nat) (x : LearnSleeve) : (d.setLearner s x).outbox = d.outbox := rfl
@[simp] theorem lastSeen_setLearner (d : Dev) (s : Nat) (x : LearnSleeve) : (d.setLearner s x).lastSeen = d.lastSeen := rfl
@[simp] theorem counters_setLearner (d : Dev) (s : Nat) (x : LearnSleeve) : (d.setLearner s x).counters = d.counters := rfl
@[simp] theorem arch_setLearner (d : Dev) (s : Nat) (x : LearnSleeve) : (d.setLearner s x).arch = d.arch := rfl
@[simp] theorem hem_setLearner (d : Dev) (s : Nat) (x : LearnSleeve) : (d.setLearner s x).hem = d.hem := rfl
@[simp] theorem ports_setLearner (d : Dev) (s : Nat) (x : LearnSleeve) : (d.setLearner s x).ports = d.ports := rfl
@[simp] theorem parse_setLearner (d : Dev) (s : Nat) (x : LearnSleeve) : (d.setLearner s x).parse = d.parse := rfl
@[simp] theorem tcam_setLearner (d : Dev) (s : Nat) (x : LearnSleeve) : (d.setLearner s x).tcam = d.tcam := rfl
@[simp] theorem vers_setLearner (d : Dev) (s : Nat) (x : LearnSleeve) : (d.setLearner s x).vers = d.vers := rfl
@[simp] theorem micro_setLearner (d : Dev) (s : Nat) (x : LearnSleeve) : (d.setLearner s x).micro = d.micro := rfl
@[simp] theorem yoke_setLearner (d : Dev) (s : Nat) (x : LearnSleeve) : (d.setLearner s x).yoke = d.yoke := rfl
@[simp] theorem meter_setLearner (d : Dev) (s : Nat) (x : LearnSleeve) : (d.setLearner s x).meter = d.meter := rfl
@[simp] theorem queues_setLearner (d : Dev) (s : Nat) (x : LearnSleeve) : (d.setLearner s x).queues = d.queues := rfl
@[simp] theorem rel_setLearner (d : Dev) (s : Nat) (x : LearnSleeve) : (d.setLearner s x).rel = d.rel := rfl
@[simp] theorem cipher_setLearner (d : Dev) (s : Nat) (x : LearnSleeve) : (d.setLearner s x).cipher = d.cipher := rfl
@[simp] theorem dram_setLearner (d : Dev) (s : Nat) (x : LearnSleeve) : (d.setLearner s x).dram = d.dram := rfl
@[simp] theorem lining_setLearner (d : Dev) (s : Nat) (x : LearnSleeve) : (d.setLearner s x).lining = d.lining := rfl
@[simp] theorem ten_setLearner (d : Dev) (s : Nat) (x : LearnSleeve) : (d.setLearner s x).ten = d.ten := rfl
@[simp] theorem mbx_setLearner (d : Dev) (s : Nat) (x : LearnSleeve) : (d.setLearner s x).mbx = d.mbx := rfl
@[simp] theorem host_setLearner (d : Dev) (s : Nat) (x : LearnSleeve) : (d.setLearner s x).host = d.host := rfl
@[simp] theorem gus_setLearner (d : Dev) (s : Nat) (x : LearnSleeve) : (d.setLearner s x).gus = d.gus := rfl
@[simp] theorem island_setLearner (d : Dev) (s : Nat) (x : LearnSleeve) : (d.setLearner s x).island = d.island := rfl
@[simp] theorem boot_setLearner (d : Dev) (s : Nat) (x : LearnSleeve) : (d.setLearner s x).boot = d.boot := rfl
@[simp] theorem board_setLearner (d : Dev) (s : Nat) (x : LearnSleeve) : (d.setLearner s x).board = d.board := rfl
@[simp] theorem power_setEngine (d : Dev) (s st : Nat) (x : StageEngine) : (d.setEngine s st x).power = d.power := rfl
@[simp] theorem now_setEngine (d : Dev) (s st : Nat) (x : StageEngine) : (d.setEngine s st x).now = d.now := rfl
@[simp] theorem rnd_setEngine (d : Dev) (s st : Nat) (x : StageEngine) : (d.setEngine s st x).rnd = d.rnd := rfl
@[simp] theorem outbox_setEngine (d : Dev) (s st : Nat) (x : StageEngine) : (d.setEngine s st x).outbox = d.outbox := rfl
@[simp] theorem lastSeen_setEngine (d : Dev) (s st : Nat) (x : StageEngine) : (d.setEngine s st x).lastSeen = d.lastSeen := rfl
@[simp] theorem counters_setEngine (d : Dev) (s st : Nat) (x : StageEngine) : (d.setEngine s st x).counters = d.counters := rfl
@[simp] theorem arch_setEngine (d : Dev) (s st : Nat) (x : StageEngine) : (d.setEngine s st x).arch = d.arch := rfl
@[simp] theorem hem_setEngine (d : Dev) (s st : Nat) (x : StageEngine) : (d.setEngine s st x).hem = d.hem := rfl
@[simp] theorem ports_setEngine (d : Dev) (s st : Nat) (x : StageEngine) : (d.setEngine s st x).ports = d.ports := rfl
@[simp] theorem parse_setEngine (d : Dev) (s st : Nat) (x : StageEngine) : (d.setEngine s st x).parse = d.parse := rfl
@[simp] theorem tables_setEngine (d : Dev) (s st : Nat) (x : StageEngine) : (d.setEngine s st x).tables = d.tables := rfl
@[simp] theorem tcam_setEngine (d : Dev) (s st : Nat) (x : StageEngine) : (d.setEngine s st x).tcam = d.tcam := rfl
@[simp] theorem vers_setEngine (d : Dev) (s st : Nat) (x : StageEngine) : (d.setEngine s st x).vers = d.vers := rfl
@[simp] theorem yoke_setEngine (d : Dev) (s st : Nat) (x : StageEngine) : (d.setEngine s st x).yoke = d.yoke := rfl
@[simp] theorem meter_setEngine (d : Dev) (s st : Nat) (x : StageEngine) : (d.setEngine s st x).meter = d.meter := rfl
@[simp] theorem queues_setEngine (d : Dev) (s st : Nat) (x : StageEngine) : (d.setEngine s st x).queues = d.queues := rfl
@[simp] theorem rel_setEngine (d : Dev) (s st : Nat) (x : StageEngine) : (d.setEngine s st x).rel = d.rel := rfl
@[simp] theorem cipher_setEngine (d : Dev) (s st : Nat) (x : StageEngine) : (d.setEngine s st x).cipher = d.cipher := rfl
@[simp] theorem dram_setEngine (d : Dev) (s st : Nat) (x : StageEngine) : (d.setEngine s st x).dram = d.dram := rfl
@[simp] theorem lining_setEngine (d : Dev) (s st : Nat) (x : StageEngine) : (d.setEngine s st x).lining = d.lining := rfl
@[simp] theorem ten_setEngine (d : Dev) (s st : Nat) (x : StageEngine) : (d.setEngine s st x).ten = d.ten := rfl
@[simp] theorem mbx_setEngine (d : Dev) (s st : Nat) (x : StageEngine) : (d.setEngine s st x).mbx = d.mbx := rfl
@[simp] theorem host_setEngine (d : Dev) (s st : Nat) (x : StageEngine) : (d.setEngine s st x).host = d.host := rfl
@[simp] theorem gus_setEngine (d : Dev) (s st : Nat) (x : StageEngine) : (d.setEngine s st x).gus = d.gus := rfl
@[simp] theorem island_setEngine (d : Dev) (s st : Nat) (x : StageEngine) : (d.setEngine s st x).island = d.island := rfl
@[simp] theorem boot_setEngine (d : Dev) (s st : Nat) (x : StageEngine) : (d.setEngine s st x).boot = d.boot := rfl
@[simp] theorem board_setEngine (d : Dev) (s st : Nat) (x : StageEngine) : (d.setEngine s st x).board = d.board := rfl
@[simp] theorem power_setMeterCell (d : Dev) (s a : Nat) (m : MeterCell) : (d.setMeterCell s a m).power = d.power := rfl
@[simp] theorem now_setMeterCell (d : Dev) (s a : Nat) (m : MeterCell) : (d.setMeterCell s a m).now = d.now := rfl
@[simp] theorem rnd_setMeterCell (d : Dev) (s a : Nat) (m : MeterCell) : (d.setMeterCell s a m).rnd = d.rnd := rfl
@[simp] theorem outbox_setMeterCell (d : Dev) (s a : Nat) (m : MeterCell) : (d.setMeterCell s a m).outbox = d.outbox := rfl
@[simp] theorem lastSeen_setMeterCell (d : Dev) (s a : Nat) (m : MeterCell) : (d.setMeterCell s a m).lastSeen = d.lastSeen := rfl
@[simp] theorem counters_setMeterCell (d : Dev) (s a : Nat) (m : MeterCell) : (d.setMeterCell s a m).counters = d.counters := rfl
@[simp] theorem arch_setMeterCell (d : Dev) (s a : Nat) (m : MeterCell) : (d.setMeterCell s a m).arch = d.arch := rfl
@[simp] theorem hem_setMeterCell (d : Dev) (s a : Nat) (m : MeterCell) : (d.setMeterCell s a m).hem = d.hem := rfl
@[simp] theorem ports_setMeterCell (d : Dev) (s a : Nat) (m : MeterCell) : (d.setMeterCell s a m).ports = d.ports := rfl
@[simp] theorem parse_setMeterCell (d : Dev) (s a : Nat) (m : MeterCell) : (d.setMeterCell s a m).parse = d.parse := rfl
@[simp] theorem tables_setMeterCell (d : Dev) (s a : Nat) (m : MeterCell) : (d.setMeterCell s a m).tables = d.tables := rfl
@[simp] theorem tcam_setMeterCell (d : Dev) (s a : Nat) (m : MeterCell) : (d.setMeterCell s a m).tcam = d.tcam := rfl
@[simp] theorem vers_setMeterCell (d : Dev) (s a : Nat) (m : MeterCell) : (d.setMeterCell s a m).vers = d.vers := rfl
@[simp] theorem micro_setMeterCell (d : Dev) (s a : Nat) (m : MeterCell) : (d.setMeterCell s a m).micro = d.micro := rfl
@[simp] theorem yoke_setMeterCell (d : Dev) (s a : Nat) (m : MeterCell) : (d.setMeterCell s a m).yoke = d.yoke := rfl
@[simp] theorem queues_setMeterCell (d : Dev) (s a : Nat) (m : MeterCell) : (d.setMeterCell s a m).queues = d.queues := rfl
@[simp] theorem rel_setMeterCell (d : Dev) (s a : Nat) (m : MeterCell) : (d.setMeterCell s a m).rel = d.rel := rfl
@[simp] theorem cipher_setMeterCell (d : Dev) (s a : Nat) (m : MeterCell) : (d.setMeterCell s a m).cipher = d.cipher := rfl
@[simp] theorem dram_setMeterCell (d : Dev) (s a : Nat) (m : MeterCell) : (d.setMeterCell s a m).dram = d.dram := rfl
@[simp] theorem lining_setMeterCell (d : Dev) (s a : Nat) (m : MeterCell) : (d.setMeterCell s a m).lining = d.lining := rfl
@[simp] theorem ten_setMeterCell (d : Dev) (s a : Nat) (m : MeterCell) : (d.setMeterCell s a m).ten = d.ten := rfl
@[simp] theorem mbx_setMeterCell (d : Dev) (s a : Nat) (m : MeterCell) : (d.setMeterCell s a m).mbx = d.mbx := rfl
@[simp] theorem host_setMeterCell (d : Dev) (s a : Nat) (m : MeterCell) : (d.setMeterCell s a m).host = d.host := rfl
@[simp] theorem gus_setMeterCell (d : Dev) (s a : Nat) (m : MeterCell) : (d.setMeterCell s a m).gus = d.gus := rfl
@[simp] theorem island_setMeterCell (d : Dev) (s a : Nat) (m : MeterCell) : (d.setMeterCell s a m).island = d.island := rfl
@[simp] theorem boot_setMeterCell (d : Dev) (s a : Nat) (m : MeterCell) : (d.setMeterCell s a m).boot = d.boot := rfl
@[simp] theorem board_setMeterCell (d : Dev) (s a : Nat) (m : MeterCell) : (d.setMeterCell s a m).board = d.board := rfl
@[simp] theorem power_setSchedQueue (d : Dev) (p q : Nat) (x : SchedQueue) : (d.setSchedQueue p q x).power = d.power := rfl
@[simp] theorem now_setSchedQueue (d : Dev) (p q : Nat) (x : SchedQueue) : (d.setSchedQueue p q x).now = d.now := rfl
@[simp] theorem rnd_setSchedQueue (d : Dev) (p q : Nat) (x : SchedQueue) : (d.setSchedQueue p q x).rnd = d.rnd := rfl
@[simp] theorem outbox_setSchedQueue (d : Dev) (p q : Nat) (x : SchedQueue) : (d.setSchedQueue p q x).outbox = d.outbox := rfl
@[simp] theorem lastSeen_setSchedQueue (d : Dev) (p q : Nat) (x : SchedQueue) : (d.setSchedQueue p q x).lastSeen = d.lastSeen := rfl
@[simp] theorem counters_setSchedQueue (d : Dev) (p q : Nat) (x : SchedQueue) : (d.setSchedQueue p q x).counters = d.counters := rfl
@[simp] theorem arch_setSchedQueue (d : Dev) (p q : Nat) (x : SchedQueue) : (d.setSchedQueue p q x).arch = d.arch := rfl
@[simp] theorem hem_setSchedQueue (d : Dev) (p q : Nat) (x : SchedQueue) : (d.setSchedQueue p q x).hem = d.hem := rfl
@[simp] theorem ports_setSchedQueue (d : Dev) (p q : Nat) (x : SchedQueue) : (d.setSchedQueue p q x).ports = d.ports := rfl
@[simp] theorem parse_setSchedQueue (d : Dev) (p q : Nat) (x : SchedQueue) : (d.setSchedQueue p q x).parse = d.parse := rfl
@[simp] theorem tables_setSchedQueue (d : Dev) (p q : Nat) (x : SchedQueue) : (d.setSchedQueue p q x).tables = d.tables := rfl
@[simp] theorem tcam_setSchedQueue (d : Dev) (p q : Nat) (x : SchedQueue) : (d.setSchedQueue p q x).tcam = d.tcam := rfl
@[simp] theorem vers_setSchedQueue (d : Dev) (p q : Nat) (x : SchedQueue) : (d.setSchedQueue p q x).vers = d.vers := rfl
@[simp] theorem micro_setSchedQueue (d : Dev) (p q : Nat) (x : SchedQueue) : (d.setSchedQueue p q x).micro = d.micro := rfl
@[simp] theorem yoke_setSchedQueue (d : Dev) (p q : Nat) (x : SchedQueue) : (d.setSchedQueue p q x).yoke = d.yoke := rfl
@[simp] theorem meter_setSchedQueue (d : Dev) (p q : Nat) (x : SchedQueue) : (d.setSchedQueue p q x).meter = d.meter := rfl
@[simp] theorem rel_setSchedQueue (d : Dev) (p q : Nat) (x : SchedQueue) : (d.setSchedQueue p q x).rel = d.rel := rfl
@[simp] theorem cipher_setSchedQueue (d : Dev) (p q : Nat) (x : SchedQueue) : (d.setSchedQueue p q x).cipher = d.cipher := rfl
@[simp] theorem dram_setSchedQueue (d : Dev) (p q : Nat) (x : SchedQueue) : (d.setSchedQueue p q x).dram = d.dram := rfl
@[simp] theorem lining_setSchedQueue (d : Dev) (p q : Nat) (x : SchedQueue) : (d.setSchedQueue p q x).lining = d.lining := rfl
@[simp] theorem ten_setSchedQueue (d : Dev) (p q : Nat) (x : SchedQueue) : (d.setSchedQueue p q x).ten = d.ten := rfl
@[simp] theorem mbx_setSchedQueue (d : Dev) (p q : Nat) (x : SchedQueue) : (d.setSchedQueue p q x).mbx = d.mbx := rfl
@[simp] theorem host_setSchedQueue (d : Dev) (p q : Nat) (x : SchedQueue) : (d.setSchedQueue p q x).host = d.host := rfl
@[simp] theorem gus_setSchedQueue (d : Dev) (p q : Nat) (x : SchedQueue) : (d.setSchedQueue p q x).gus = d.gus := rfl
@[simp] theorem island_setSchedQueue (d : Dev) (p q : Nat) (x : SchedQueue) : (d.setSchedQueue p q x).island = d.island := rfl
@[simp] theorem boot_setSchedQueue (d : Dev) (p q : Nat) (x : SchedQueue) : (d.setSchedQueue p q x).boot = d.boot := rfl
@[simp] theorem board_setSchedQueue (d : Dev) (p q : Nat) (x : SchedQueue) : (d.setSchedQueue p q x).board = d.board := rfl
@[simp] theorem power_setGatePort (d : Dev) (p : Nat) (x : GatePort) : (d.setGatePort p x).power = d.power := rfl
@[simp] theorem now_setGatePort (d : Dev) (p : Nat) (x : GatePort) : (d.setGatePort p x).now = d.now := rfl
@[simp] theorem rnd_setGatePort (d : Dev) (p : Nat) (x : GatePort) : (d.setGatePort p x).rnd = d.rnd := rfl
@[simp] theorem outbox_setGatePort (d : Dev) (p : Nat) (x : GatePort) : (d.setGatePort p x).outbox = d.outbox := rfl
@[simp] theorem lastSeen_setGatePort (d : Dev) (p : Nat) (x : GatePort) : (d.setGatePort p x).lastSeen = d.lastSeen := rfl
@[simp] theorem counters_setGatePort (d : Dev) (p : Nat) (x : GatePort) : (d.setGatePort p x).counters = d.counters := rfl
@[simp] theorem arch_setGatePort (d : Dev) (p : Nat) (x : GatePort) : (d.setGatePort p x).arch = d.arch := rfl
@[simp] theorem hem_setGatePort (d : Dev) (p : Nat) (x : GatePort) : (d.setGatePort p x).hem = d.hem := rfl
@[simp] theorem ports_setGatePort (d : Dev) (p : Nat) (x : GatePort) : (d.setGatePort p x).ports = d.ports := rfl
@[simp] theorem parse_setGatePort (d : Dev) (p : Nat) (x : GatePort) : (d.setGatePort p x).parse = d.parse := rfl
@[simp] theorem tables_setGatePort (d : Dev) (p : Nat) (x : GatePort) : (d.setGatePort p x).tables = d.tables := rfl
@[simp] theorem tcam_setGatePort (d : Dev) (p : Nat) (x : GatePort) : (d.setGatePort p x).tcam = d.tcam := rfl
@[simp] theorem vers_setGatePort (d : Dev) (p : Nat) (x : GatePort) : (d.setGatePort p x).vers = d.vers := rfl
@[simp] theorem micro_setGatePort (d : Dev) (p : Nat) (x : GatePort) : (d.setGatePort p x).micro = d.micro := rfl
@[simp] theorem yoke_setGatePort (d : Dev) (p : Nat) (x : GatePort) : (d.setGatePort p x).yoke = d.yoke := rfl
@[simp] theorem meter_setGatePort (d : Dev) (p : Nat) (x : GatePort) : (d.setGatePort p x).meter = d.meter := rfl
@[simp] theorem rel_setGatePort (d : Dev) (p : Nat) (x : GatePort) : (d.setGatePort p x).rel = d.rel := rfl
@[simp] theorem cipher_setGatePort (d : Dev) (p : Nat) (x : GatePort) : (d.setGatePort p x).cipher = d.cipher := rfl
@[simp] theorem dram_setGatePort (d : Dev) (p : Nat) (x : GatePort) : (d.setGatePort p x).dram = d.dram := rfl
@[simp] theorem lining_setGatePort (d : Dev) (p : Nat) (x : GatePort) : (d.setGatePort p x).lining = d.lining := rfl
@[simp] theorem ten_setGatePort (d : Dev) (p : Nat) (x : GatePort) : (d.setGatePort p x).ten = d.ten := rfl
@[simp] theorem mbx_setGatePort (d : Dev) (p : Nat) (x : GatePort) : (d.setGatePort p x).mbx = d.mbx := rfl
@[simp] theorem host_setGatePort (d : Dev) (p : Nat) (x : GatePort) : (d.setGatePort p x).host = d.host := rfl
@[simp] theorem gus_setGatePort (d : Dev) (p : Nat) (x : GatePort) : (d.setGatePort p x).gus = d.gus := rfl
@[simp] theorem island_setGatePort (d : Dev) (p : Nat) (x : GatePort) : (d.setGatePort p x).island = d.island := rfl
@[simp] theorem boot_setGatePort (d : Dev) (p : Nat) (x : GatePort) : (d.setGatePort p x).boot = d.boot := rfl
@[simp] theorem board_setGatePort (d : Dev) (p : Nat) (x : GatePort) : (d.setGatePort p x).board = d.board := rfl
@[simp] theorem power_setLearn (d : Dev) (s i : Nat) (e : Option LearnEntry) : (d.setLearn s i e).power = d.power := rfl
@[simp] theorem now_setLearn (d : Dev) (s i : Nat) (e : Option LearnEntry) : (d.setLearn s i e).now = d.now := rfl
@[simp] theorem rnd_setLearn (d : Dev) (s i : Nat) (e : Option LearnEntry) : (d.setLearn s i e).rnd = d.rnd := rfl
@[simp] theorem outbox_setLearn (d : Dev) (s i : Nat) (e : Option LearnEntry) : (d.setLearn s i e).outbox = d.outbox := rfl
@[simp] theorem lastSeen_setLearn (d : Dev) (s i : Nat) (e : Option LearnEntry) : (d.setLearn s i e).lastSeen = d.lastSeen := rfl
@[simp] theorem counters_setLearn (d : Dev) (s i : Nat) (e : Option LearnEntry) : (d.setLearn s i e).counters = d.counters := rfl
@[simp] theorem arch_setLearn (d : Dev) (s i : Nat) (e : Option LearnEntry) : (d.setLearn s i e).arch = d.arch := rfl
@[simp] theorem hem_setLearn (d : Dev) (s i : Nat) (e : Option LearnEntry) : (d.setLearn s i e).hem = d.hem := rfl
@[simp] theorem ports_setLearn (d : Dev) (s i : Nat) (e : Option LearnEntry) : (d.setLearn s i e).ports = d.ports := rfl
@[simp] theorem parse_setLearn (d : Dev) (s i : Nat) (e : Option LearnEntry) : (d.setLearn s i e).parse = d.parse := rfl
@[simp] theorem tcam_setLearn (d : Dev) (s i : Nat) (e : Option LearnEntry) : (d.setLearn s i e).tcam = d.tcam := rfl
@[simp] theorem vers_setLearn (d : Dev) (s i : Nat) (e : Option LearnEntry) : (d.setLearn s i e).vers = d.vers := rfl
@[simp] theorem micro_setLearn (d : Dev) (s i : Nat) (e : Option LearnEntry) : (d.setLearn s i e).micro = d.micro := rfl
@[simp] theorem yoke_setLearn (d : Dev) (s i : Nat) (e : Option LearnEntry) : (d.setLearn s i e).yoke = d.yoke := rfl
@[simp] theorem meter_setLearn (d : Dev) (s i : Nat) (e : Option LearnEntry) : (d.setLearn s i e).meter = d.meter := rfl
@[simp] theorem queues_setLearn (d : Dev) (s i : Nat) (e : Option LearnEntry) : (d.setLearn s i e).queues = d.queues := rfl
@[simp] theorem rel_setLearn (d : Dev) (s i : Nat) (e : Option LearnEntry) : (d.setLearn s i e).rel = d.rel := rfl
@[simp] theorem cipher_setLearn (d : Dev) (s i : Nat) (e : Option LearnEntry) : (d.setLearn s i e).cipher = d.cipher := rfl
@[simp] theorem dram_setLearn (d : Dev) (s i : Nat) (e : Option LearnEntry) : (d.setLearn s i e).dram = d.dram := rfl
@[simp] theorem lining_setLearn (d : Dev) (s i : Nat) (e : Option LearnEntry) : (d.setLearn s i e).lining = d.lining := rfl
@[simp] theorem ten_setLearn (d : Dev) (s i : Nat) (e : Option LearnEntry) : (d.setLearn s i e).ten = d.ten := rfl
@[simp] theorem mbx_setLearn (d : Dev) (s i : Nat) (e : Option LearnEntry) : (d.setLearn s i e).mbx = d.mbx := rfl
@[simp] theorem host_setLearn (d : Dev) (s i : Nat) (e : Option LearnEntry) : (d.setLearn s i e).host = d.host := rfl
@[simp] theorem gus_setLearn (d : Dev) (s i : Nat) (e : Option LearnEntry) : (d.setLearn s i e).gus = d.gus := rfl
@[simp] theorem island_setLearn (d : Dev) (s i : Nat) (e : Option LearnEntry) : (d.setLearn s i e).island = d.island := rfl
@[simp] theorem boot_setLearn (d : Dev) (s i : Nat) (e : Option LearnEntry) : (d.setLearn s i e).boot = d.boot := rfl
@[simp] theorem board_setLearn (d : Dev) (s i : Nat) (e : Option LearnEntry) : (d.setLearn s i e).board = d.board := rfl
@[simp] theorem power_setVslot (d : Dev) (v : Nat) (x : VersionSlot) : (d.setVslot v x).power = d.power := rfl
@[simp] theorem now_setVslot (d : Dev) (v : Nat) (x : VersionSlot) : (d.setVslot v x).now = d.now := rfl
@[simp] theorem rnd_setVslot (d : Dev) (v : Nat) (x : VersionSlot) : (d.setVslot v x).rnd = d.rnd := rfl
@[simp] theorem outbox_setVslot (d : Dev) (v : Nat) (x : VersionSlot) : (d.setVslot v x).outbox = d.outbox := rfl
@[simp] theorem lastSeen_setVslot (d : Dev) (v : Nat) (x : VersionSlot) : (d.setVslot v x).lastSeen = d.lastSeen := rfl
@[simp] theorem counters_setVslot (d : Dev) (v : Nat) (x : VersionSlot) : (d.setVslot v x).counters = d.counters := rfl
@[simp] theorem arch_setVslot (d : Dev) (v : Nat) (x : VersionSlot) : (d.setVslot v x).arch = d.arch := rfl
@[simp] theorem hem_setVslot (d : Dev) (v : Nat) (x : VersionSlot) : (d.setVslot v x).hem = d.hem := rfl
@[simp] theorem ports_setVslot (d : Dev) (v : Nat) (x : VersionSlot) : (d.setVslot v x).ports = d.ports := rfl
@[simp] theorem parse_setVslot (d : Dev) (v : Nat) (x : VersionSlot) : (d.setVslot v x).parse = d.parse := rfl
@[simp] theorem tables_setVslot (d : Dev) (v : Nat) (x : VersionSlot) : (d.setVslot v x).tables = d.tables := rfl
@[simp] theorem tcam_setVslot (d : Dev) (v : Nat) (x : VersionSlot) : (d.setVslot v x).tcam = d.tcam := rfl
@[simp] theorem micro_setVslot (d : Dev) (v : Nat) (x : VersionSlot) : (d.setVslot v x).micro = d.micro := rfl
@[simp] theorem yoke_setVslot (d : Dev) (v : Nat) (x : VersionSlot) : (d.setVslot v x).yoke = d.yoke := rfl
@[simp] theorem meter_setVslot (d : Dev) (v : Nat) (x : VersionSlot) : (d.setVslot v x).meter = d.meter := rfl
@[simp] theorem queues_setVslot (d : Dev) (v : Nat) (x : VersionSlot) : (d.setVslot v x).queues = d.queues := rfl
@[simp] theorem rel_setVslot (d : Dev) (v : Nat) (x : VersionSlot) : (d.setVslot v x).rel = d.rel := rfl
@[simp] theorem cipher_setVslot (d : Dev) (v : Nat) (x : VersionSlot) : (d.setVslot v x).cipher = d.cipher := rfl
@[simp] theorem dram_setVslot (d : Dev) (v : Nat) (x : VersionSlot) : (d.setVslot v x).dram = d.dram := rfl
@[simp] theorem lining_setVslot (d : Dev) (v : Nat) (x : VersionSlot) : (d.setVslot v x).lining = d.lining := rfl
@[simp] theorem ten_setVslot (d : Dev) (v : Nat) (x : VersionSlot) : (d.setVslot v x).ten = d.ten := rfl
@[simp] theorem mbx_setVslot (d : Dev) (v : Nat) (x : VersionSlot) : (d.setVslot v x).mbx = d.mbx := rfl
@[simp] theorem host_setVslot (d : Dev) (v : Nat) (x : VersionSlot) : (d.setVslot v x).host = d.host := rfl
@[simp] theorem gus_setVslot (d : Dev) (v : Nat) (x : VersionSlot) : (d.setVslot v x).gus = d.gus := rfl
@[simp] theorem island_setVslot (d : Dev) (v : Nat) (x : VersionSlot) : (d.setVslot v x).island = d.island := rfl
@[simp] theorem boot_setVslot (d : Dev) (v : Nat) (x : VersionSlot) : (d.setVslot v x).boot = d.boot := rfl
@[simp] theorem board_setVslot (d : Dev) (v : Nat) (x : VersionSlot) : (d.setVslot v x).board = d.board := rfl
@[simp] theorem power_setFrag (d : Dev) (s i : Nat) (e : Option FragEntry) : (d.setFrag s i e).power = d.power := rfl
@[simp] theorem now_setFrag (d : Dev) (s i : Nat) (e : Option FragEntry) : (d.setFrag s i e).now = d.now := rfl
@[simp] theorem rnd_setFrag (d : Dev) (s i : Nat) (e : Option FragEntry) : (d.setFrag s i e).rnd = d.rnd := rfl
@[simp] theorem outbox_setFrag (d : Dev) (s i : Nat) (e : Option FragEntry) : (d.setFrag s i e).outbox = d.outbox := rfl
@[simp] theorem lastSeen_setFrag (d : Dev) (s i : Nat) (e : Option FragEntry) : (d.setFrag s i e).lastSeen = d.lastSeen := rfl
@[simp] theorem counters_setFrag (d : Dev) (s i : Nat) (e : Option FragEntry) : (d.setFrag s i e).counters = d.counters := rfl
@[simp] theorem arch_setFrag (d : Dev) (s i : Nat) (e : Option FragEntry) : (d.setFrag s i e).arch = d.arch := rfl
@[simp] theorem hem_setFrag (d : Dev) (s i : Nat) (e : Option FragEntry) : (d.setFrag s i e).hem = d.hem := rfl
@[simp] theorem ports_setFrag (d : Dev) (s i : Nat) (e : Option FragEntry) : (d.setFrag s i e).ports = d.ports := rfl
@[simp] theorem tables_setFrag (d : Dev) (s i : Nat) (e : Option FragEntry) : (d.setFrag s i e).tables = d.tables := rfl
@[simp] theorem tcam_setFrag (d : Dev) (s i : Nat) (e : Option FragEntry) : (d.setFrag s i e).tcam = d.tcam := rfl
@[simp] theorem vers_setFrag (d : Dev) (s i : Nat) (e : Option FragEntry) : (d.setFrag s i e).vers = d.vers := rfl
@[simp] theorem micro_setFrag (d : Dev) (s i : Nat) (e : Option FragEntry) : (d.setFrag s i e).micro = d.micro := rfl
@[simp] theorem yoke_setFrag (d : Dev) (s i : Nat) (e : Option FragEntry) : (d.setFrag s i e).yoke = d.yoke := rfl
@[simp] theorem meter_setFrag (d : Dev) (s i : Nat) (e : Option FragEntry) : (d.setFrag s i e).meter = d.meter := rfl
@[simp] theorem queues_setFrag (d : Dev) (s i : Nat) (e : Option FragEntry) : (d.setFrag s i e).queues = d.queues := rfl
@[simp] theorem rel_setFrag (d : Dev) (s i : Nat) (e : Option FragEntry) : (d.setFrag s i e).rel = d.rel := rfl
@[simp] theorem cipher_setFrag (d : Dev) (s i : Nat) (e : Option FragEntry) : (d.setFrag s i e).cipher = d.cipher := rfl
@[simp] theorem dram_setFrag (d : Dev) (s i : Nat) (e : Option FragEntry) : (d.setFrag s i e).dram = d.dram := rfl
@[simp] theorem lining_setFrag (d : Dev) (s i : Nat) (e : Option FragEntry) : (d.setFrag s i e).lining = d.lining := rfl
@[simp] theorem ten_setFrag (d : Dev) (s i : Nat) (e : Option FragEntry) : (d.setFrag s i e).ten = d.ten := rfl
@[simp] theorem mbx_setFrag (d : Dev) (s i : Nat) (e : Option FragEntry) : (d.setFrag s i e).mbx = d.mbx := rfl
@[simp] theorem host_setFrag (d : Dev) (s i : Nat) (e : Option FragEntry) : (d.setFrag s i e).host = d.host := rfl
@[simp] theorem gus_setFrag (d : Dev) (s i : Nat) (e : Option FragEntry) : (d.setFrag s i e).gus = d.gus := rfl
@[simp] theorem island_setFrag (d : Dev) (s i : Nat) (e : Option FragEntry) : (d.setFrag s i e).island = d.island := rfl
@[simp] theorem boot_setFrag (d : Dev) (s i : Nat) (e : Option FragEntry) : (d.setFrag s i e).boot = d.boot := rfl
@[simp] theorem board_setFrag (d : Dev) (s i : Nat) (e : Option FragEntry) : (d.setFrag s i e).board = d.board := rfl
@[simp] theorem power_setTcamSleeve (d : Dev) (s : Nat) (x : TcamSleeve) : (d.setTcamSleeve s x).power = d.power := rfl
@[simp] theorem now_setTcamSleeve (d : Dev) (s : Nat) (x : TcamSleeve) : (d.setTcamSleeve s x).now = d.now := rfl
@[simp] theorem rnd_setTcamSleeve (d : Dev) (s : Nat) (x : TcamSleeve) : (d.setTcamSleeve s x).rnd = d.rnd := rfl
@[simp] theorem outbox_setTcamSleeve (d : Dev) (s : Nat) (x : TcamSleeve) : (d.setTcamSleeve s x).outbox = d.outbox := rfl
@[simp] theorem lastSeen_setTcamSleeve (d : Dev) (s : Nat) (x : TcamSleeve) : (d.setTcamSleeve s x).lastSeen = d.lastSeen := rfl
@[simp] theorem counters_setTcamSleeve (d : Dev) (s : Nat) (x : TcamSleeve) : (d.setTcamSleeve s x).counters = d.counters := rfl
@[simp] theorem arch_setTcamSleeve (d : Dev) (s : Nat) (x : TcamSleeve) : (d.setTcamSleeve s x).arch = d.arch := rfl
@[simp] theorem hem_setTcamSleeve (d : Dev) (s : Nat) (x : TcamSleeve) : (d.setTcamSleeve s x).hem = d.hem := rfl
@[simp] theorem ports_setTcamSleeve (d : Dev) (s : Nat) (x : TcamSleeve) : (d.setTcamSleeve s x).ports = d.ports := rfl
@[simp] theorem parse_setTcamSleeve (d : Dev) (s : Nat) (x : TcamSleeve) : (d.setTcamSleeve s x).parse = d.parse := rfl
@[simp] theorem tables_setTcamSleeve (d : Dev) (s : Nat) (x : TcamSleeve) : (d.setTcamSleeve s x).tables = d.tables := rfl
@[simp] theorem vers_setTcamSleeve (d : Dev) (s : Nat) (x : TcamSleeve) : (d.setTcamSleeve s x).vers = d.vers := rfl
@[simp] theorem micro_setTcamSleeve (d : Dev) (s : Nat) (x : TcamSleeve) : (d.setTcamSleeve s x).micro = d.micro := rfl
@[simp] theorem yoke_setTcamSleeve (d : Dev) (s : Nat) (x : TcamSleeve) : (d.setTcamSleeve s x).yoke = d.yoke := rfl
@[simp] theorem meter_setTcamSleeve (d : Dev) (s : Nat) (x : TcamSleeve) : (d.setTcamSleeve s x).meter = d.meter := rfl
@[simp] theorem queues_setTcamSleeve (d : Dev) (s : Nat) (x : TcamSleeve) : (d.setTcamSleeve s x).queues = d.queues := rfl
@[simp] theorem rel_setTcamSleeve (d : Dev) (s : Nat) (x : TcamSleeve) : (d.setTcamSleeve s x).rel = d.rel := rfl
@[simp] theorem cipher_setTcamSleeve (d : Dev) (s : Nat) (x : TcamSleeve) : (d.setTcamSleeve s x).cipher = d.cipher := rfl
@[simp] theorem dram_setTcamSleeve (d : Dev) (s : Nat) (x : TcamSleeve) : (d.setTcamSleeve s x).dram = d.dram := rfl
@[simp] theorem lining_setTcamSleeve (d : Dev) (s : Nat) (x : TcamSleeve) : (d.setTcamSleeve s x).lining = d.lining := rfl
@[simp] theorem ten_setTcamSleeve (d : Dev) (s : Nat) (x : TcamSleeve) : (d.setTcamSleeve s x).ten = d.ten := rfl
@[simp] theorem mbx_setTcamSleeve (d : Dev) (s : Nat) (x : TcamSleeve) : (d.setTcamSleeve s x).mbx = d.mbx := rfl
@[simp] theorem host_setTcamSleeve (d : Dev) (s : Nat) (x : TcamSleeve) : (d.setTcamSleeve s x).host = d.host := rfl
@[simp] theorem gus_setTcamSleeve (d : Dev) (s : Nat) (x : TcamSleeve) : (d.setTcamSleeve s x).gus = d.gus := rfl
@[simp] theorem island_setTcamSleeve (d : Dev) (s : Nat) (x : TcamSleeve) : (d.setTcamSleeve s x).island = d.island := rfl
@[simp] theorem boot_setTcamSleeve (d : Dev) (s : Nat) (x : TcamSleeve) : (d.setTcamSleeve s x).boot = d.boot := rfl
@[simp] theorem board_setTcamSleeve (d : Dev) (s : Nat) (x : TcamSleeve) : (d.setTcamSleeve s x).board = d.board := rfl
@[simp] theorem power_setPool (d : Dev) (k : Nat) (p : Pool) : (d.setPool k p).power = d.power := rfl
@[simp] theorem now_setPool (d : Dev) (k : Nat) (p : Pool) : (d.setPool k p).now = d.now := rfl
@[simp] theorem rnd_setPool (d : Dev) (k : Nat) (p : Pool) : (d.setPool k p).rnd = d.rnd := rfl
@[simp] theorem outbox_setPool (d : Dev) (k : Nat) (p : Pool) : (d.setPool k p).outbox = d.outbox := rfl
@[simp] theorem lastSeen_setPool (d : Dev) (k : Nat) (p : Pool) : (d.setPool k p).lastSeen = d.lastSeen := rfl
@[simp] theorem counters_setPool (d : Dev) (k : Nat) (p : Pool) : (d.setPool k p).counters = d.counters := rfl
@[simp] theorem arch_setPool (d : Dev) (k : Nat) (p : Pool) : (d.setPool k p).arch = d.arch := rfl
@[simp] theorem hem_setPool (d : Dev) (k : Nat) (p : Pool) : (d.setPool k p).hem = d.hem := rfl
@[simp] theorem ports_setPool (d : Dev) (k : Nat) (p : Pool) : (d.setPool k p).ports = d.ports := rfl
@[simp] theorem parse_setPool (d : Dev) (k : Nat) (p : Pool) : (d.setPool k p).parse = d.parse := rfl
@[simp] theorem tables_setPool (d : Dev) (k : Nat) (p : Pool) : (d.setPool k p).tables = d.tables := rfl
@[simp] theorem tcam_setPool (d : Dev) (k : Nat) (p : Pool) : (d.setPool k p).tcam = d.tcam := rfl
@[simp] theorem vers_setPool (d : Dev) (k : Nat) (p : Pool) : (d.setPool k p).vers = d.vers := rfl
@[simp] theorem micro_setPool (d : Dev) (k : Nat) (p : Pool) : (d.setPool k p).micro = d.micro := rfl
@[simp] theorem meter_setPool (d : Dev) (k : Nat) (p : Pool) : (d.setPool k p).meter = d.meter := rfl
@[simp] theorem queues_setPool (d : Dev) (k : Nat) (p : Pool) : (d.setPool k p).queues = d.queues := rfl
@[simp] theorem rel_setPool (d : Dev) (k : Nat) (p : Pool) : (d.setPool k p).rel = d.rel := rfl
@[simp] theorem cipher_setPool (d : Dev) (k : Nat) (p : Pool) : (d.setPool k p).cipher = d.cipher := rfl
@[simp] theorem dram_setPool (d : Dev) (k : Nat) (p : Pool) : (d.setPool k p).dram = d.dram := rfl
@[simp] theorem lining_setPool (d : Dev) (k : Nat) (p : Pool) : (d.setPool k p).lining = d.lining := rfl
@[simp] theorem ten_setPool (d : Dev) (k : Nat) (p : Pool) : (d.setPool k p).ten = d.ten := rfl
@[simp] theorem mbx_setPool (d : Dev) (k : Nat) (p : Pool) : (d.setPool k p).mbx = d.mbx := rfl
@[simp] theorem host_setPool (d : Dev) (k : Nat) (p : Pool) : (d.setPool k p).host = d.host := rfl
@[simp] theorem gus_setPool (d : Dev) (k : Nat) (p : Pool) : (d.setPool k p).gus = d.gus := rfl
@[simp] theorem island_setPool (d : Dev) (k : Nat) (p : Pool) : (d.setPool k p).island = d.island := rfl
@[simp] theorem boot_setPool (d : Dev) (k : Nat) (p : Pool) : (d.setPool k p).boot = d.boot := rfl
@[simp] theorem board_setPool (d : Dev) (k : Nat) (p : Pool) : (d.setPool k p).board = d.board := rfl
@[simp] theorem power_setPocket (d : Dev) (n : Nat) (p : Pocket) : (d.setPocket n p).power = d.power := rfl
@[simp] theorem now_setPocket (d : Dev) (n : Nat) (p : Pocket) : (d.setPocket n p).now = d.now := rfl
@[simp] theorem rnd_setPocket (d : Dev) (n : Nat) (p : Pocket) : (d.setPocket n p).rnd = d.rnd := rfl
@[simp] theorem outbox_setPocket (d : Dev) (n : Nat) (p : Pocket) : (d.setPocket n p).outbox = d.outbox := rfl
@[simp] theorem lastSeen_setPocket (d : Dev) (n : Nat) (p : Pocket) : (d.setPocket n p).lastSeen = d.lastSeen := rfl
@[simp] theorem counters_setPocket (d : Dev) (n : Nat) (p : Pocket) : (d.setPocket n p).counters = d.counters := rfl
@[simp] theorem arch_setPocket (d : Dev) (n : Nat) (p : Pocket) : (d.setPocket n p).arch = d.arch := rfl
@[simp] theorem hem_setPocket (d : Dev) (n : Nat) (p : Pocket) : (d.setPocket n p).hem = d.hem := rfl
@[simp] theorem ports_setPocket (d : Dev) (n : Nat) (p : Pocket) : (d.setPocket n p).ports = d.ports := rfl
@[simp] theorem parse_setPocket (d : Dev) (n : Nat) (p : Pocket) : (d.setPocket n p).parse = d.parse := rfl
@[simp] theorem tables_setPocket (d : Dev) (n : Nat) (p : Pocket) : (d.setPocket n p).tables = d.tables := rfl
@[simp] theorem tcam_setPocket (d : Dev) (n : Nat) (p : Pocket) : (d.setPocket n p).tcam = d.tcam := rfl
@[simp] theorem vers_setPocket (d : Dev) (n : Nat) (p : Pocket) : (d.setPocket n p).vers = d.vers := rfl
@[simp] theorem micro_setPocket (d : Dev) (n : Nat) (p : Pocket) : (d.setPocket n p).micro = d.micro := rfl
@[simp] theorem meter_setPocket (d : Dev) (n : Nat) (p : Pocket) : (d.setPocket n p).meter = d.meter := rfl
@[simp] theorem queues_setPocket (d : Dev) (n : Nat) (p : Pocket) : (d.setPocket n p).queues = d.queues := rfl
@[simp] theorem rel_setPocket (d : Dev) (n : Nat) (p : Pocket) : (d.setPocket n p).rel = d.rel := rfl
@[simp] theorem cipher_setPocket (d : Dev) (n : Nat) (p : Pocket) : (d.setPocket n p).cipher = d.cipher := rfl
@[simp] theorem dram_setPocket (d : Dev) (n : Nat) (p : Pocket) : (d.setPocket n p).dram = d.dram := rfl
@[simp] theorem lining_setPocket (d : Dev) (n : Nat) (p : Pocket) : (d.setPocket n p).lining = d.lining := rfl
@[simp] theorem ten_setPocket (d : Dev) (n : Nat) (p : Pocket) : (d.setPocket n p).ten = d.ten := rfl
@[simp] theorem mbx_setPocket (d : Dev) (n : Nat) (p : Pocket) : (d.setPocket n p).mbx = d.mbx := rfl
@[simp] theorem host_setPocket (d : Dev) (n : Nat) (p : Pocket) : (d.setPocket n p).host = d.host := rfl
@[simp] theorem gus_setPocket (d : Dev) (n : Nat) (p : Pocket) : (d.setPocket n p).gus = d.gus := rfl
@[simp] theorem island_setPocket (d : Dev) (n : Nat) (p : Pocket) : (d.setPocket n p).island = d.island := rfl
@[simp] theorem boot_setPocket (d : Dev) (n : Nat) (p : Pocket) : (d.setPocket n p).boot = d.boot := rfl
@[simp] theorem board_setPocket (d : Dev) (n : Nat) (p : Pocket) : (d.setPocket n p).board = d.board := rfl
@[simp] theorem power_setInflight (d : Dev) (v s n : Nat) : (d.setInflight v s n).power = d.power := rfl
@[simp] theorem now_setInflight (d : Dev) (v s n : Nat) : (d.setInflight v s n).now = d.now := rfl
@[simp] theorem rnd_setInflight (d : Dev) (v s n : Nat) : (d.setInflight v s n).rnd = d.rnd := rfl
@[simp] theorem outbox_setInflight (d : Dev) (v s n : Nat) : (d.setInflight v s n).outbox = d.outbox := rfl
@[simp] theorem lastSeen_setInflight (d : Dev) (v s n : Nat) : (d.setInflight v s n).lastSeen = d.lastSeen := rfl
@[simp] theorem counters_setInflight (d : Dev) (v s n : Nat) : (d.setInflight v s n).counters = d.counters := rfl
@[simp] theorem arch_setInflight (d : Dev) (v s n : Nat) : (d.setInflight v s n).arch = d.arch := rfl
@[simp] theorem hem_setInflight (d : Dev) (v s n : Nat) : (d.setInflight v s n).hem = d.hem := rfl
@[simp] theorem ports_setInflight (d : Dev) (v s n : Nat) : (d.setInflight v s n).ports = d.ports := rfl
@[simp] theorem parse_setInflight (d : Dev) (v s n : Nat) : (d.setInflight v s n).parse = d.parse := rfl
@[simp] theorem tables_setInflight (d : Dev) (v s n : Nat) : (d.setInflight v s n).tables = d.tables := rfl
@[simp] theorem tcam_setInflight (d : Dev) (v s n : Nat) : (d.setInflight v s n).tcam = d.tcam := rfl
@[simp] theorem micro_setInflight (d : Dev) (v s n : Nat) : (d.setInflight v s n).micro = d.micro := rfl
@[simp] theorem yoke_setInflight (d : Dev) (v s n : Nat) : (d.setInflight v s n).yoke = d.yoke := rfl
@[simp] theorem meter_setInflight (d : Dev) (v s n : Nat) : (d.setInflight v s n).meter = d.meter := rfl
@[simp] theorem queues_setInflight (d : Dev) (v s n : Nat) : (d.setInflight v s n).queues = d.queues := rfl
@[simp] theorem rel_setInflight (d : Dev) (v s n : Nat) : (d.setInflight v s n).rel = d.rel := rfl
@[simp] theorem cipher_setInflight (d : Dev) (v s n : Nat) : (d.setInflight v s n).cipher = d.cipher := rfl
@[simp] theorem dram_setInflight (d : Dev) (v s n : Nat) : (d.setInflight v s n).dram = d.dram := rfl
@[simp] theorem lining_setInflight (d : Dev) (v s n : Nat) : (d.setInflight v s n).lining = d.lining := rfl
@[simp] theorem ten_setInflight (d : Dev) (v s n : Nat) : (d.setInflight v s n).ten = d.ten := rfl
@[simp] theorem mbx_setInflight (d : Dev) (v s n : Nat) : (d.setInflight v s n).mbx = d.mbx := rfl
@[simp] theorem host_setInflight (d : Dev) (v s n : Nat) : (d.setInflight v s n).host = d.host := rfl
@[simp] theorem gus_setInflight (d : Dev) (v s n : Nat) : (d.setInflight v s n).gus = d.gus := rfl
@[simp] theorem island_setInflight (d : Dev) (v s n : Nat) : (d.setInflight v s n).island = d.island := rfl
@[simp] theorem boot_setInflight (d : Dev) (v s n : Nat) : (d.setInflight v s n).boot = d.boot := rfl
@[simp] theorem board_setInflight (d : Dev) (v s n : Nat) : (d.setInflight v s n).board = d.board := rfl
@[simp] theorem power_setSvc (d : Dev) (u : Nat) (st : SvcState) : (d.setSvc u st).power = d.power := rfl
@[simp] theorem now_setSvc (d : Dev) (u : Nat) (st : SvcState) : (d.setSvc u st).now = d.now := rfl
@[simp] theorem rnd_setSvc (d : Dev) (u : Nat) (st : SvcState) : (d.setSvc u st).rnd = d.rnd := rfl
@[simp] theorem outbox_setSvc (d : Dev) (u : Nat) (st : SvcState) : (d.setSvc u st).outbox = d.outbox := rfl
@[simp] theorem lastSeen_setSvc (d : Dev) (u : Nat) (st : SvcState) : (d.setSvc u st).lastSeen = d.lastSeen := rfl
@[simp] theorem counters_setSvc (d : Dev) (u : Nat) (st : SvcState) : (d.setSvc u st).counters = d.counters := rfl
@[simp] theorem arch_setSvc (d : Dev) (u : Nat) (st : SvcState) : (d.setSvc u st).arch = d.arch := rfl
@[simp] theorem hem_setSvc (d : Dev) (u : Nat) (st : SvcState) : (d.setSvc u st).hem = d.hem := rfl
@[simp] theorem ports_setSvc (d : Dev) (u : Nat) (st : SvcState) : (d.setSvc u st).ports = d.ports := rfl
@[simp] theorem parse_setSvc (d : Dev) (u : Nat) (st : SvcState) : (d.setSvc u st).parse = d.parse := rfl
@[simp] theorem tables_setSvc (d : Dev) (u : Nat) (st : SvcState) : (d.setSvc u st).tables = d.tables := rfl
@[simp] theorem tcam_setSvc (d : Dev) (u : Nat) (st : SvcState) : (d.setSvc u st).tcam = d.tcam := rfl
@[simp] theorem vers_setSvc (d : Dev) (u : Nat) (st : SvcState) : (d.setSvc u st).vers = d.vers := rfl
@[simp] theorem micro_setSvc (d : Dev) (u : Nat) (st : SvcState) : (d.setSvc u st).micro = d.micro := rfl
@[simp] theorem yoke_setSvc (d : Dev) (u : Nat) (st : SvcState) : (d.setSvc u st).yoke = d.yoke := rfl
@[simp] theorem meter_setSvc (d : Dev) (u : Nat) (st : SvcState) : (d.setSvc u st).meter = d.meter := rfl
@[simp] theorem queues_setSvc (d : Dev) (u : Nat) (st : SvcState) : (d.setSvc u st).queues = d.queues := rfl
@[simp] theorem rel_setSvc (d : Dev) (u : Nat) (st : SvcState) : (d.setSvc u st).rel = d.rel := rfl
@[simp] theorem cipher_setSvc (d : Dev) (u : Nat) (st : SvcState) : (d.setSvc u st).cipher = d.cipher := rfl
@[simp] theorem dram_setSvc (d : Dev) (u : Nat) (st : SvcState) : (d.setSvc u st).dram = d.dram := rfl
@[simp] theorem lining_setSvc (d : Dev) (u : Nat) (st : SvcState) : (d.setSvc u st).lining = d.lining := rfl
@[simp] theorem ten_setSvc (d : Dev) (u : Nat) (st : SvcState) : (d.setSvc u st).ten = d.ten := rfl
@[simp] theorem mbx_setSvc (d : Dev) (u : Nat) (st : SvcState) : (d.setSvc u st).mbx = d.mbx := rfl
@[simp] theorem host_setSvc (d : Dev) (u : Nat) (st : SvcState) : (d.setSvc u st).host = d.host := rfl
@[simp] theorem gus_setSvc (d : Dev) (u : Nat) (st : SvcState) : (d.setSvc u st).gus = d.gus := rfl
@[simp] theorem island_setSvc (d : Dev) (u : Nat) (st : SvcState) : (d.setSvc u st).island = d.island := rfl
@[simp] theorem board_setSvc (d : Dev) (u : Nat) (st : SvcState) : (d.setSvc u st).board = d.board := rfl
@[simp] theorem power_setCommit (d : Dev) (c : Commit) : (d.setCommit c).power = d.power := rfl
@[simp] theorem now_setCommit (d : Dev) (c : Commit) : (d.setCommit c).now = d.now := rfl
@[simp] theorem rnd_setCommit (d : Dev) (c : Commit) : (d.setCommit c).rnd = d.rnd := rfl
@[simp] theorem outbox_setCommit (d : Dev) (c : Commit) : (d.setCommit c).outbox = d.outbox := rfl
@[simp] theorem lastSeen_setCommit (d : Dev) (c : Commit) : (d.setCommit c).lastSeen = d.lastSeen := rfl
@[simp] theorem counters_setCommit (d : Dev) (c : Commit) : (d.setCommit c).counters = d.counters := rfl
@[simp] theorem arch_setCommit (d : Dev) (c : Commit) : (d.setCommit c).arch = d.arch := rfl
@[simp] theorem hem_setCommit (d : Dev) (c : Commit) : (d.setCommit c).hem = d.hem := rfl
@[simp] theorem ports_setCommit (d : Dev) (c : Commit) : (d.setCommit c).ports = d.ports := rfl
@[simp] theorem parse_setCommit (d : Dev) (c : Commit) : (d.setCommit c).parse = d.parse := rfl
@[simp] theorem tables_setCommit (d : Dev) (c : Commit) : (d.setCommit c).tables = d.tables := rfl
@[simp] theorem tcam_setCommit (d : Dev) (c : Commit) : (d.setCommit c).tcam = d.tcam := rfl
@[simp] theorem micro_setCommit (d : Dev) (c : Commit) : (d.setCommit c).micro = d.micro := rfl
@[simp] theorem yoke_setCommit (d : Dev) (c : Commit) : (d.setCommit c).yoke = d.yoke := rfl
@[simp] theorem meter_setCommit (d : Dev) (c : Commit) : (d.setCommit c).meter = d.meter := rfl
@[simp] theorem queues_setCommit (d : Dev) (c : Commit) : (d.setCommit c).queues = d.queues := rfl
@[simp] theorem rel_setCommit (d : Dev) (c : Commit) : (d.setCommit c).rel = d.rel := rfl
@[simp] theorem cipher_setCommit (d : Dev) (c : Commit) : (d.setCommit c).cipher = d.cipher := rfl
@[simp] theorem dram_setCommit (d : Dev) (c : Commit) : (d.setCommit c).dram = d.dram := rfl
@[simp] theorem lining_setCommit (d : Dev) (c : Commit) : (d.setCommit c).lining = d.lining := rfl
@[simp] theorem ten_setCommit (d : Dev) (c : Commit) : (d.setCommit c).ten = d.ten := rfl
@[simp] theorem mbx_setCommit (d : Dev) (c : Commit) : (d.setCommit c).mbx = d.mbx := rfl
@[simp] theorem host_setCommit (d : Dev) (c : Commit) : (d.setCommit c).host = d.host := rfl
@[simp] theorem gus_setCommit (d : Dev) (c : Commit) : (d.setCommit c).gus = d.gus := rfl
@[simp] theorem island_setCommit (d : Dev) (c : Commit) : (d.setCommit c).island = d.island := rfl
@[simp] theorem boot_setCommit (d : Dev) (c : Commit) : (d.setCommit c).boot = d.boot := rfl
@[simp] theorem board_setCommit (d : Dev) (c : Commit) : (d.setCommit c).board = d.board := rfl
@[simp] theorem power_raise (d : Dev) (code : Nat) (aud : List Aud) (args : List Nat) : (d.raise code aud args).power = d.power := rfl
@[simp] theorem now_raise (d : Dev) (code : Nat) (aud : List Aud) (args : List Nat) : (d.raise code aud args).now = d.now := rfl
@[simp] theorem lastSeen_raise (d : Dev) (code : Nat) (aud : List Aud) (args : List Nat) : (d.raise code aud args).lastSeen = d.lastSeen := rfl
@[simp] theorem counters_raise (d : Dev) (code : Nat) (aud : List Aud) (args : List Nat) : (d.raise code aud args).counters = d.counters := rfl
@[simp] theorem arch_raise (d : Dev) (code : Nat) (aud : List Aud) (args : List Nat) : (d.raise code aud args).arch = d.arch := rfl
@[simp] theorem hem_raise (d : Dev) (code : Nat) (aud : List Aud) (args : List Nat) : (d.raise code aud args).hem = d.hem := rfl
@[simp] theorem ports_raise (d : Dev) (code : Nat) (aud : List Aud) (args : List Nat) : (d.raise code aud args).ports = d.ports := rfl
@[simp] theorem parse_raise (d : Dev) (code : Nat) (aud : List Aud) (args : List Nat) : (d.raise code aud args).parse = d.parse := rfl
@[simp] theorem tables_raise (d : Dev) (code : Nat) (aud : List Aud) (args : List Nat) : (d.raise code aud args).tables = d.tables := rfl
@[simp] theorem tcam_raise (d : Dev) (code : Nat) (aud : List Aud) (args : List Nat) : (d.raise code aud args).tcam = d.tcam := rfl
@[simp] theorem vers_raise (d : Dev) (code : Nat) (aud : List Aud) (args : List Nat) : (d.raise code aud args).vers = d.vers := rfl
@[simp] theorem micro_raise (d : Dev) (code : Nat) (aud : List Aud) (args : List Nat) : (d.raise code aud args).micro = d.micro := rfl
@[simp] theorem yoke_raise (d : Dev) (code : Nat) (aud : List Aud) (args : List Nat) : (d.raise code aud args).yoke = d.yoke := rfl
@[simp] theorem meter_raise (d : Dev) (code : Nat) (aud : List Aud) (args : List Nat) : (d.raise code aud args).meter = d.meter := rfl
@[simp] theorem queues_raise (d : Dev) (code : Nat) (aud : List Aud) (args : List Nat) : (d.raise code aud args).queues = d.queues := rfl
@[simp] theorem rel_raise (d : Dev) (code : Nat) (aud : List Aud) (args : List Nat) : (d.raise code aud args).rel = d.rel := rfl
@[simp] theorem cipher_raise (d : Dev) (code : Nat) (aud : List Aud) (args : List Nat) : (d.raise code aud args).cipher = d.cipher := rfl
@[simp] theorem dram_raise (d : Dev) (code : Nat) (aud : List Aud) (args : List Nat) : (d.raise code aud args).dram = d.dram := rfl
@[simp] theorem lining_raise (d : Dev) (code : Nat) (aud : List Aud) (args : List Nat) : (d.raise code aud args).lining = d.lining := rfl
@[simp] theorem ten_raise (d : Dev) (code : Nat) (aud : List Aud) (args : List Nat) : (d.raise code aud args).ten = d.ten := rfl
@[simp] theorem mbx_raise (d : Dev) (code : Nat) (aud : List Aud) (args : List Nat) : (d.raise code aud args).mbx = d.mbx := rfl
@[simp] theorem host_raise (d : Dev) (code : Nat) (aud : List Aud) (args : List Nat) : (d.raise code aud args).host = d.host := rfl
@[simp] theorem island_raise (d : Dev) (code : Nat) (aud : List Aud) (args : List Nat) : (d.raise code aud args).island = d.island := rfl
@[simp] theorem boot_raise (d : Dev) (code : Nat) (aud : List Aud) (args : List Nat) : (d.raise code aud args).boot = d.boot := rfl
@[simp] theorem board_raise (d : Dev) (code : Nat) (aud : List Aud) (args : List Nat) : (d.raise code aud args).board = d.board := rfl

/-! ### What a replacement sets -/

@[simp] theorem mbox_setMbox_self (d : Dev) (f : Nat) (m : Mailbox) : (d.setMbox f m).mbox f = m := by
  simp [Dev.mbox, Dev.setMbox]

theorem mbox_setMbox_ne (d : Dev) (f j : Nat) (m : Mailbox) (h : j ≠ f) : (d.setMbox f m).mbox j = d.mbox j := by
  simp [Dev.mbox, Dev.setMbox, Tab.get_set_ne _ _ _ _ _ h]

@[simp] theorem fend_setFend_self (d : Dev) (f : Nat) (e : EndFn) : (d.setFend f e).fend f = e := by
  simp [Dev.fend, Dev.setFend]

theorem fend_setFend_ne (d : Dev) (f j : Nat) (e : EndFn) (h : j ≠ f) : (d.setFend f e).fend j = d.fend j := by
  simp [Dev.fend, Dev.setFend, Tab.get_set_ne _ _ _ _ _ h]

@[simp] theorem port_setPort_self (d : Dev) (p : Nat) (x : Port) : (d.setPort p x).port p = x := by
  simp [Dev.port, Dev.setPort]

theorem port_setPort_ne (d : Dev) (p j : Nat) (x : Port) (h : j ≠ p) : (d.setPort p x).port j = d.port j := by
  simp [Dev.port, Dev.setPort, Tab.get_set_ne _ _ _ _ _ h]

@[simp] theorem cuff_setCuff_self (d : Dev) (c : Nat) (x : Cuff) : (d.setCuff c x).cuff c = x := by
  simp [Dev.cuff, Dev.setCuff]

theorem cuff_setCuff_ne (d : Dev) (c j : Nat) (x : Cuff) (h : j ≠ c) : (d.setCuff c x).cuff j = d.cuff j := by
  simp [Dev.cuff, Dev.setCuff, Tab.get_set_ne _ _ _ _ _ h]

@[simp] theorem sleeve_setSleeve_self (d : Dev) (k : Nat) (x : SleeveState) : (d.setSleeve k x).sleeve k = x := by
  simp [Dev.sleeve, Dev.setSleeve]

theorem sleeve_setSleeve_ne (d : Dev) (k j : Nat) (x : SleeveState) (h : j ≠ k) : (d.setSleeve k x).sleeve j = d.sleeve j := by
  simp [Dev.sleeve, Dev.setSleeve, Tab.get_set_ne _ _ _ _ _ h]

@[simp] theorem lane_setLane_self (d : Dev) (l : Nat) (x : Lane) : (d.setLane l x).lane l = x := by
  simp [Dev.lane, Dev.setLane]

theorem lane_setLane_ne (d : Dev) (l j : Nat) (x : Lane) (h : j ≠ l) : (d.setLane l x).lane j = d.lane j := by
  simp [Dev.lane, Dev.setLane, Tab.get_set_ne _ _ _ _ _ h]

@[simp] theorem chan_setChan_self (d : Dev) (p : Nat) (c : DramChannel) : (d.setChan p c).chan p = c := by
  simp [Dev.chan, Dev.setChan]

theorem chan_setChan_ne (d : Dev) (p j : Nat) (c : DramChannel) (h : j ≠ p) : (d.setChan p c).chan j = d.chan j := by
  simp [Dev.chan, Dev.setChan, Tab.get_set_ne _ _ _ _ _ h]

@[simp] theorem vslot_setVslot_self (d : Dev) (v : Nat) (x : VersionSlot) : (d.setVslot v x).vslot v = x := by
  simp [Dev.vslot, Dev.setVslot]

theorem vslot_setVslot_ne (d : Dev) (v j : Nat) (x : VersionSlot) (h : j ≠ v) : (d.setVslot v x).vslot j = d.vslot j := by
  simp [Dev.vslot, Dev.setVslot, Tab.get_set_ne _ _ _ _ _ h]

@[simp] theorem pool_setPool_self (d : Dev) (k : Nat) (p : Pool) : (d.setPool k p).pool k = p := by
  simp [Dev.pool, Dev.setPool]

theorem pool_setPool_ne (d : Dev) (k j : Nat) (p : Pool) (h : j ≠ k) : (d.setPool k p).pool j = d.pool j := by
  simp [Dev.pool, Dev.setPool, Tab.get_set_ne _ _ _ _ _ h]

@[simp] theorem pocket_setPocket_self (d : Dev) (n : Nat) (p : Pocket) : (d.setPocket n p).pocket n = p := by
  simp [Dev.pocket, Dev.setPocket]

theorem pocket_setPocket_ne (d : Dev) (n j : Nat) (p : Pocket) (h : j ≠ n) : (d.setPocket n p).pocket j = d.pocket j := by
  simp [Dev.pocket, Dev.setPocket, Tab.get_set_ne _ _ _ _ _ h]

@[simp] theorem gatePort_setGatePort_self (d : Dev) (p : Nat) (x : GatePort) : (d.setGatePort p x).gatePort p = x := by
  simp [Dev.gatePort, Dev.setGatePort]

theorem gatePort_setGatePort_ne (d : Dev) (p j : Nat) (x : GatePort) (h : j ≠ p) : (d.setGatePort p x).gatePort j = d.gatePort j := by
  simp [Dev.gatePort, Dev.setGatePort, Tab.get_set_ne _ _ _ _ _ h]

@[simp] theorem svcUnit_setSvc (d : Dev) (u : Nat) (st : SvcState) : (d.setSvc u st).svcUnit u = { d.svcUnit u with state := st } := by
  simp [Dev.svcUnit, Dev.setSvc]

end Sys2Proof.Machine
end

