-- ==== Sys2Proof/Laws/Messages.lean ====
section
/-! SUPPORT. What the shared path of a message does: a served request runs its opcode's own work on a device that
differs from the one before only in its mailboxes, and the response to it stands in its ring afterwards. -/

namespace Sys2Proof.Machine

/-! ### Sessions -/

theorem setSession_mbox (d : Dev) (f k : Nat) (y : Session) :
    (d.setSession f k y).mbox f =
      if k = 0 then { d.mbox f with zero := y }
      else { d.mbox f with sealed := (d.mbox f).sealed.set k y } := by
  unfold Dev.setSession; split <;> simp

@[simp] theorem setSession_self (d : Dev) (f k : Nat) (y z : Session) (h : d.session f k = some z) :
    (d.setSession f k y).session f k = some y := by
  unfold Dev.session at h ⊢
  simp only [setSession_mbox] at h ⊢
  split
  · rename_i hk; simp [hk] at h ⊢; exact h.1
  · simp

/-! ### The link of a function: whether it can be written, and its sessions -/

@[simp] theorem mbox_of_mbx {d e : Dev} (h : d.mbx = e.mbx) (f : Nat) : d.mbox f = e.mbox f := by
  simp [Dev.mbox, h]

theorem session_of_mbx {d e : Dev} (h : d.mbx = e.mbx) (f k : Nat) : d.session f k = e.session f k := by
  simp only [Dev.session, mbox_of_mbx h f]

/-- Two devices whose functions can issue the same requests. -/
def SameEnds (d e : Dev) : Prop :=
  ∀ f, (d.fend f).busMaster = (e.fend f).busMaster ∧ (d.fend f).d3hot = (e.fend f).d3hot ∧
    (d.fend f).teardown = (e.fend f).teardown

theorem SameEnds.refl (d : Dev) : SameEnds d d := fun _ => ⟨rfl, rfl, rfl⟩

theorem SameEnds.trans {a b c : Dev} (h : SameEnds a b) (g : SameEnds b c) : SameEnds a c := fun f =>
  ⟨(h f).1.trans (g f).1, (h f).2.1.trans (g f).2.1, (h f).2.2.trans (g f).2.2⟩

theorem SameEnds.of_host {d e : Dev} (h : d.host = e.host) : SameEnds d e := fun f => by simp [Dev.fend, h]

theorem SameEnds.canWrite {d e : Dev} (h : SameEnds d e) (f : Nat)
    (he : (d.mbox f).rsp.enabled = (e.mbox f).rsp.enabled) (hl : (d.mbox f).hostLost = (e.mbox f).hostLost) :
    d.canWrite f = e.canWrite f := by
  simp [Dev.canWrite, (h f).1, (h f).2.1, (h f).2.2, he, hl]

theorem setFend_same (d : Dev) (f : Nat) (e : EndFn) (h : e.busMaster = (d.fend f).busMaster)
    (h' : e.d3hot = (d.fend f).d3hot) (h'' : e.teardown = (d.fend f).teardown) : SameEnds (d.setFend f e) d := by
  intro g
  by_cases hg : g = f
  · subst hg; simp [h, h', h'']
  · simp [fend_setFend_ne _ _ _ _ hg]

@[simp] theorem msix_mbx (d : Dev) (f v : Nat) : (d.msix f v).mbx = d.mbx := by
  unfold Dev.msix; simp only; repeat' split
  all_goals rfl

theorem msix_same (d : Dev) (f v : Nat) : SameEnds (d.msix f v) d := by
  unfold Dev.msix; simp only; repeat' split
  · exact SameEnds.refl d
  · exact setFend_same _ _ _ rfl rfl rfl
  · exact fun _ => ⟨rfl, rfl, rfl⟩
  · exact SameEnds.refl d

@[simp] theorem irqBit_mbx (d : Dev) (f i v : Nat) (on : Bool) : (d.irqBit f i v on).mbx = d.mbx := by
  unfold Dev.irqBit; simp only; split <;> simp

theorem irqBit_same (d : Dev) (f i v : Nat) (on : Bool) : SameEnds (d.irqBit f i v on) d := by
  unfold Dev.irqBit; simp only; split
  · exact (msix_same _ _ _).trans (setFend_same _ _ _ rfl rfl rfl)
  · exact setFend_same _ _ _ rfl rfl rfl

@[simp] theorem irqMisc_mbx (d : Dev) (f i : Nat) : (d.irqMisc f i).mbx = d.mbx := by simp [Dev.irqMisc]

theorem irqMisc_same (d : Dev) (f i : Nat) : SameEnds (d.irqMisc f i) d := irqBit_same _ _ _ _ _

/-- What writing an entry does to the mailbox of its function. -/
theorem writeEntry_mbox (d : Dev) (f n : Nat) (e : Entry) :
    (d.writeEntry f n e).mbox f =
      { d.mbox f with
        rsp := { (d.mbox f).rsp with tail := ((d.mbox f).rsp.tail + n) % 2 ^ 32 }
        irqRsp := ((d.mbox f).irqRsp.wrote d.now).2
        entries := (d.mbox f).entries ++
          [{ e with index := (d.mbox f).rsp.tail, slots := n,
                    phase := phaseBit (d.mbox f).rsp.size (d.mbox f).rsp.tail }] } := by
  unfold Dev.writeEntry
  simp only
  split
  · rw [mbox_of_mbx (irqBit_mbx _ _ _ _ _), mbox_of_mbx (mbx_bump _ _ _ _ _), mbox_setMbox_self]
  · rw [mbox_of_mbx (mbx_bump _ _ _ _ _), mbox_setMbox_self]

theorem writeEntry_mbox_ne (d : Dev) (f n g : Nat) (e : Entry) (h : g ≠ f) :
    (d.writeEntry f n e).mbox g = d.mbox g := by
  unfold Dev.writeEntry
  simp only
  split
  · rw [mbox_of_mbx (irqBit_mbx _ _ _ _ _), mbox_of_mbx (mbx_bump _ _ _ _ _), mbox_setMbox_ne _ _ _ _ h]
  · rw [mbox_of_mbx (mbx_bump _ _ _ _ _), mbox_setMbox_ne _ _ _ _ h]

theorem writeEntry_same (d : Dev) (f n : Nat) (e : Entry) : SameEnds (d.writeEntry f n e) d := by
  unfold Dev.writeEntry
  simp only
  split
  · exact (irqBit_same _ _ _ _ _).trans (SameEnds.of_host (by simp))
  · exact SameEnds.of_host (by simp)

/-! ### Entries stay, and so do the sessions' numbers -/

/-- What every later delivery keeps of a function's link: its entries, whether it can be written, and the serial
numbers of its sessions. -/
structure Keeps (d e : Dev) : Prop where
  entries : ∀ f x, x ∈ (d.mbox f).entries → x ∈ (e.mbox f).entries
  write : ∀ f, e.canWrite f = d.canWrite f
  serial : ∀ f k, ((e.session f k).map (·.serial)) = ((d.session f k).map (·.serial))
  absent : e.mbx.absent = d.mbx.absent
  switching : e.boot.switching = d.boot.switching

theorem Keeps.coreUp {d e : Dev} (k : Keeps d e) (n : Nat) : e.coreUp n = d.coreUp n := by
  unfold Dev.coreUp; rw [k.absent, k.switching]

theorem Keeps.refl (d : Dev) : Keeps d d := ⟨fun _ _ h => h, fun _ => rfl, fun _ _ => rfl, rfl, rfl⟩

theorem Keeps.trans {a b c : Dev} (h : Keeps a b) (g : Keeps b c) : Keeps a c :=
  ⟨fun f x hx => g.entries f x (h.entries f x hx), fun f => (g.write f).trans (h.write f),
   fun f k => (g.serial f k).trans (h.serial f k), g.absent.trans h.absent,
   g.switching.trans h.switching⟩

theorem Keeps.of_eq {d e : Dev} (hm : e.mbx = d.mbx) (hs : SameEnds e d)
    (hb : e.boot.switching = d.boot.switching := by rfl) : Keeps d e :=
  ⟨fun f x hx => by rw [mbox_of_mbx hm]; exact hx,
   fun f => hs.canWrite f (by rw [mbox_of_mbx hm]) (by rw [mbox_of_mbx hm]),
   fun f k => by rw [session_of_mbx hm], by rw [hm], hb⟩

theorem Keeps.foldl {α : Type} (f : Dev → α → Dev) (hf : ∀ d a, Keeps d (f d a)) (l : List α) (d : Dev) :
    Keeps d (l.foldl f d) := by
  induction l generalizing d with
  | nil => exact Keeps.refl d
  | cons a l ih => exact (hf d a).trans (ih (f d a))

theorem setMbox_absent (d : Dev) (f : Nat) (m : Mailbox) : (d.setMbox f m).mbx.absent = d.mbx.absent := rfl

/-- A mailbox replaced by one that keeps its entries, its enables and its sessions. -/
theorem Keeps.setMbox (d : Dev) (f : Nat) (m : Mailbox)
    (he : ∀ x, x ∈ (d.mbox f).entries → x ∈ m.entries) (hr : m.rsp.enabled = (d.mbox f).rsp.enabled)
    (hl : m.hostLost = (d.mbox f).hostLost) (hz : m.zeroOpen = (d.mbox f).zeroOpen)
    (h0 : m.zeroOpen = true → m.zero.serial = (d.mbox f).zero.serial)
    (hs : ∀ k, (m.sealed.get? k).map (·.serial) = ((d.mbox f).sealed.get? k).map (·.serial)) :
    Keeps d (d.setMbox f m) := by
  refine ⟨fun g x hx => ?_, fun g => ?_, fun g k => ?_, rfl, rfl⟩
  · by_cases hg : g = f
    · subst hg; rw [mbox_setMbox_self]; exact he x hx
    · rw [mbox_setMbox_ne _ _ _ _ hg]; exact hx
  · refine (SameEnds.of_host (host_setMbox d f m)).canWrite g ?_ ?_ <;>
    · by_cases hg : g = f
      · subst hg; simp [hr, hl]
      · rw [mbox_setMbox_ne _ _ _ _ hg]
  · by_cases hg : g = f
    · subst hg
      simp only [Dev.session, mbox_setMbox_self]
      split
      · rw [← hz]
        split
        · rename_i h1; simp [h0 h1]
        · rfl
      · exact hs k
    · simp [Dev.session, mbox_setMbox_ne _ _ _ _ hg]

theorem Keeps.setSession (d : Dev) (f k : Nat) (y z : Session) (h : d.session f k = some z)
    (hy : y.serial = z.serial) : Keeps d (d.setSession f k y) := by
  unfold Dev.setSession
  simp only
  unfold Dev.session at h
  simp only at h
  split at h
  · rename_i h0
    rw [if_pos h0]
    split at h
    · rename_i h1
      cases h
      exact Keeps.setMbox _ _ _ (fun _ hx => hx) rfl rfl rfl (fun _ => hy) (fun _ => rfl)
    · cases h
  · rename_i h0
    rw [if_neg h0]
    refine Keeps.setMbox _ _ _ (fun _ hx => hx) rfl rfl rfl (fun _ => rfl) (fun j => ?_)
    by_cases hj : j = k
    · subst hj; simp [h, hy]
    · rw [Tab.get?_set_ne _ _ _ _ hj]

theorem Keeps.writeEntry (d : Dev) (f n : Nat) (e : Entry) : Keeps d (d.writeEntry f n e) := by
  refine ⟨fun g x hx => ?_, fun g => ?_, fun g k => ?_, ?_, ?_⟩
  · by_cases hg : g = f
    · subst hg; rw [writeEntry_mbox]; exact List.mem_append_left _ hx
    · rw [writeEntry_mbox_ne _ _ _ _ _ hg]; exact hx
  · refine (writeEntry_same d f n e).canWrite g ?_ ?_ <;>
    · by_cases hg : g = f
      · subst hg; rw [writeEntry_mbox]
      · rw [writeEntry_mbox_ne _ _ _ _ _ hg]
  · by_cases hg : g = f
    · subst hg; simp only [Dev.session, writeEntry_mbox]
    · simp only [Dev.session, writeEntry_mbox_ne _ _ _ _ _ hg]
  · unfold Dev.writeEntry
    simp only
    split <;> simp [setMbox_absent]
  · unfold Dev.writeEntry
    simp only
    split
    · unfold Dev.irqBit Dev.msix
      simp only
      repeat' split
      all_goals rfl
    · rfl

theorem Keeps.bump (d : Dev) (c : Ctr) (a b n : Nat) : Keeps d (d.bump c a b n) :=
  Keeps.of_eq rfl (SameEnds.of_host rfl)

theorem Keeps.inc (d : Dev) (c : Ctr) (a b : Nat) : Keeps d (d.inc c a b) := Keeps.bump d c a b 1

theorem Keeps.nextSeq (d : Dev) (f k : Nat) : Keeps d (d.nextSeq f k).2 := by
  unfold Dev.nextSeq
  split
  · rename_i z h; exact Keeps.setSession d f k _ z h rfl
  · exact Keeps.refl d

theorem Keeps.writeEvent (d : Dev) (f k : Nat) (y : Session) (e : EventMsg) : Keeps d (d.writeEvent f k y e) := by
  unfold Dev.writeEvent
  exact ((Keeps.nextSeq d f k).trans (Keeps.writeEntry _ _ _ _)).trans (Keeps.inc _ _ _ _)

theorem Keeps.deliver (d : Dev) (f k : Nat) (e : EventMsg) : Keeps d (d.deliver f k e) := by
  unfold Dev.deliver
  split
  · exact Keeps.refl d
  · rename_i z h
    repeat' split
    · exact Keeps.refl d
    · exact Keeps.writeEvent _ _ _ _ _
    · exact Keeps.setSession d f k _ z h rfl
    · refine Keeps.trans (Keeps.setSession d f k _ z h ?_) (Keeps.inc _ _ _ _)
      rfl

theorem Keeps.countLost (d : Dev) (aud : List Aud) (o : List (Nat × Nat × Session)) : Keeps d (d.countLost aud o) := by
  unfold Dev.countLost
  refine Keeps.foldl _ (fun d a => ?_) aud d
  simp only
  split
  · split
    · exact Keeps.refl d
    · exact Keeps.inc _ _ _ _
  · exact Keeps.refl d

theorem Keeps.linTrigger (d : Dev) (t source code seq : Nat) : Keeps d (d.linTrigger t source code seq) := by
  unfold Dev.linTrigger
  repeat' split
  all_goals first | exact Keeps.refl d | exact Keeps.of_eq rfl (SameEnds.of_host rfl)

theorem Keeps.eventTrigger (d : Dev) (c : Nat) (l : List (Nat × Nat × Session)) : Keeps d (d.eventTrigger c l) := by
  unfold Dev.eventTrigger
  refine Keeps.foldl _ (fun d t => ?_) _ d
  repeat' split
  · exact Keeps.linTrigger _ _ _ _ _
  · exact Keeps.refl d
  · exact Keeps.refl d

theorem Keeps.deliverAll (d : Dev) (aud : List Aud) (e : EventMsg) : Keeps d (d.deliverAll aud e) := by
  unfold Dev.deliverAll
  exact ((Keeps.countLost d aud _).trans (Keeps.foldl _ (fun d o => Keeps.deliver _ _ _ _) _ _)).trans
    (Keeps.eventTrigger _ _ _)

theorem Keeps.flush (d : Dev) : Keeps d d.flush := by
  unfold Dev.flush
  refine Keeps.foldl _ (fun d _ => ?_) _ d
  unfold Dev.flushOnce
  have h0 : Keeps d { d with outbox := [] } := Keeps.of_eq rfl (SameEnds.of_host rfl)
  exact h0.trans (Keeps.foldl _ (fun d o => Keeps.deliverAll _ _ _) _ _)

/-! ### Responses -/

/-- A response to a request of a ring that can be written stands in it. -/
theorem respond_replied (d : Dev) (tok : Token) (st : Status) (b : Bool) (n : Nat) (body : List Nat) (h : Hdr)
    (hb : tok.boot = false) (hf : tok.fn = h.fn) (hs : tok.session = h.session) (ht : tok.tenancy = h.tenancy)
    (hq : tok.seq = h.seq) (hw : d.canWrite h.fn = true) : (d.respond tok st b n body).Replied h st body := by
  unfold Dev.respond
  simp only [hb, hf, hw]
  simp only [Bool.false_eq_true, ↓reduceIte, Bool.not_true]
  unfold Dev.Replied
  rw [mbox_of_mbx (mbx_inc _ _ _ _), writeEntry_mbox]
  exact ⟨_, List.mem_append_right _ (List.mem_singleton.mpr rfl), hq, hs, ht, rfl, rfl⟩

theorem Replied.keeps {d e : Dev} {h : Hdr} {st : Status} {body : List Nat} (k : Keeps d e)
    (r : d.Replied h st body) : e.Replied h st body := by
  obtain ⟨x, hx, rest⟩ := r
  exact ⟨x, k.entries _ _ hx, rest⟩

@[simp] theorem countReject_mbx (d : Dev) (t : Nat) (st : Status) : (d.countReject t st).mbx = d.mbx := by
  unfold Dev.countReject; repeat' split
  all_goals rfl

@[simp] theorem countReject_boot (d : Dev) (t : Nat) (st : Status) : (d.countReject t st).boot = d.boot := by
  unfold Dev.countReject; repeat' split
  all_goals rfl

@[simp] theorem countReject_host (d : Dev) (t : Nat) (st : Status) : (d.countReject t st).host = d.host := by
  unfold Dev.countReject; repeat' split
  all_goals rfl

/-- The final status of a message whose session is open stands in its ring, and stays there. -/
theorem finish_replied (d : Dev) (tok : Token) (st : Status) (n : Nat) (body : List Nat) (h : Hdr)
    (hb : tok.boot = false) (hf : tok.fn = h.fn) (hs : tok.session = h.session) (ht : tok.tenancy = h.tenancy)
    (hq : tok.seq = h.seq) (hw : d.canWrite h.fn = true) (ha : d.coreUp (h.fn % 4) = true)
    (hl : ∃ y, d.session h.fn h.session = some y ∧ y.serial = tok.serial) :
    (d.finish tok st n body).flush.Replied h st body := by
  refine Replied.keeps (Keeps.flush _) ?_
  unfold Dev.finish
  simp only [Token.core, hb, Bool.false_eq_true, ↓reduceIte]
  rw [hf, ha]
  simp only [Bool.not_true, Bool.false_eq_true, ↓reduceIte]
  unfold Dev.finishNow
  simp only
  generalize hm : ({ d.mbox tok.fn with
    busy := _, asyncs := _, reserved := _ } : Mailbox) = m
  have k : Keeps d ((d.setMbox tok.fn m).countReject tok.tenancy st) := by
    refine Keeps.trans (b := d.setMbox tok.fn m) ?_ (Keeps.of_eq (by simp) (SameEnds.of_host (by simp)) (by simp))
    subst hm
    exact Keeps.setMbox _ _ _ (fun _ hx => hx) rfl rfl rfl (fun _ => rfl) (fun _ => rfl)
  have hany : ((((d.setMbox tok.fn m).countReject tok.tenancy st).session tok.fn tok.session).any
      fun s => decide (s.serial = tok.serial)) = true := by
    obtain ⟨y, hy, he⟩ := hl
    have h2 := k.serial h.fn h.session
    rw [hy] at h2
    rw [hf, hs]
    cases hc : ((d.setMbox tok.fn m).countReject tok.tenancy st).session h.fn h.session with
    | none => rw [hc] at h2; cases h2
    | some z =>
      rw [hc] at h2
      have h3 : z.serial = y.serial := Option.some.inj h2
      rw [hf] at hc
      rw [hc, Option.any_some, h3, he]
      exact decide_eq_true rfl
  rw [hany]
  simp only [Bool.or_true, ↓reduceIte]
  exact respond_replied _ _ _ _ _ _ _ hb hf hs ht hq ((k.write h.fn).trans hw)

/-! ### Counters that the link does not count -/

/-- Two devices whose counters agree but for those of requests, responses and their DMA writes. -/
def SameCtrs (d e : Dev) : Prop :=
  ∀ c a b, c ≠ .requests → c ≠ .responses → c ≠ .dmaWrites → d.ctr c a b = e.ctr c a b

theorem SameCtrs.refl (d : Dev) : SameCtrs d d := fun _ _ _ _ _ _ => rfl

theorem SameCtrs.trans {a b c : Dev} (h : SameCtrs a b) (g : SameCtrs b c) : SameCtrs a c :=
  fun k i j h1 h2 h3 => (h k i j h1 h2 h3).trans (g k i j h1 h2 h3)

theorem SameCtrs.of_eq {d e : Dev} (h : d.counters = e.counters) : SameCtrs d e := fun _ _ _ _ _ _ => by
  simp only [Dev.ctr, h]

theorem lookup_filter_key {α β : Type} [BEq α] [LawfulBEq α] (l : List (α × β)) (k j : α) (h : j ≠ k) :
    (l.filter fun c => c.1 != k).lookup j = l.lookup j := by
  induction l with
  | nil => rfl
  | cons c l ih =>
    obtain ⟨a, b⟩ := c
    by_cases hc : a = k
    · subst hc
      have hk : (j == a) = false := by simp [h]
      simp only [List.lookup, hk]
      simpa using ih
    · simp [hc]
      simp only [List.lookup]
      split
      · rfl
      · exact ih

theorem ctr_setCtr_ne (d : Dev) (c : Ctr) (a b n : Nat) (k : Ctr) (i j : Nat) (h : k ≠ c) :
    (d.setCtr c a b n).ctr k i j = d.ctr k i j := by
  have hk : (⟨k, i, j⟩ : CtrKey) ≠ ⟨c, a, b⟩ := by simp [h]
  have hb : ((⟨k, i, j⟩ : CtrKey) == ⟨c, a, b⟩) = false := by simpa using hk
  unfold Dev.ctr Dev.setCtr
  simp only [List.lookup, hb]
  rw [lookup_filter_key d.counters _ _ hk]

theorem ctr_setCtr_self (d : Dev) (c : Ctr) (a b n : Nat) : (d.setCtr c a b n).ctr c a b = n := by
  unfold Dev.ctr Dev.setCtr
  simp

theorem ctr_bump_self (d : Dev) (c : Ctr) (a b n : Nat) :
    (d.bump c a b n).ctr c a b = c.plus (d.ctr c a b) n := ctr_setCtr_self _ _ _ _ _

theorem ctr_bump_ne (d : Dev) (c : Ctr) (a b n : Nat) (k : Ctr) (i j : Nat) (h : k ≠ c) :
    (d.bump c a b n).ctr k i j = d.ctr k i j := ctr_setCtr_ne _ _ _ _ _ _ _ _ h

theorem SameCtrs.bump (d : Dev) (c : Ctr) (a b n : Nat) (h : c = .requests ∨ c = .responses ∨ c = .dmaWrites) :
    SameCtrs (d.bump c a b n) d := fun k i j h1 h2 h3 => ctr_bump_ne _ _ _ _ _ _ _ _ (by
      rintro rfl
      rcases h with h | h | h
      · exact h1 h
      · exact h2 h
      · exact h3 h)

theorem take_ctrs (d : Dev) (h : Hdr) : SameCtrs (d.take h) d := by
  unfold Dev.take
  simp only
  refine SameCtrs.trans (SameCtrs.bump _ .requests _ _ 1 (.inl rfl)) ?_
  split <;> exact SameCtrs.of_eq rfl

@[simp] theorem setSession_counters (d : Dev) (f k : Nat) (y : Session) :
    (d.setSession f k y).counters = d.counters := by
  unfold Dev.setSession; split <;> rfl

@[simp] theorem irqBit_counters (d : Dev) (f i v : Nat) (on : Bool) : (d.irqBit f i v on).counters = d.counters := by
  unfold Dev.irqBit Dev.msix; simp only; repeat' split
  all_goals rfl

@[simp] theorem nextSeq_counters (d : Dev) (f k : Nat) : (d.nextSeq f k).2.counters = d.counters := by
  unfold Dev.nextSeq; split <;> simp

theorem writeEntry_ctrs (d : Dev) (f n : Nat) (e : Entry) : SameCtrs (d.writeEntry f n e) d := by
  unfold Dev.writeEntry
  simp only
  split
  · exact (SameCtrs.of_eq (irqBit_counters _ _ _ _ _)).trans
      ((SameCtrs.bump _ _ _ _ _ (.inr (.inr rfl))).trans (SameCtrs.of_eq rfl))
  · exact (SameCtrs.bump _ _ _ _ _ (.inr (.inr rfl))).trans (SameCtrs.of_eq rfl)

theorem respond_ctrs (d : Dev) (tok : Token) (st : Status) (b : Bool) (n : Nat) (body : List Nat)
    (hb : tok.boot = false) (hw : d.canWrite tok.fn = true) : SameCtrs (d.respond tok st b n body) d := by
  unfold Dev.respond
  simp only [hb, hw, Bool.false_eq_true, ↓reduceIte, Bool.not_true]
  exact (SameCtrs.bump _ .responses _ _ 1 (.inr (.inl rfl))).trans
    ((writeEntry_ctrs _ _ _ _).trans (SameCtrs.of_eq (nextSeq_counters _ _ _)))

/-! ### A served request starts -/

/-- What the opcode's own work finds when a served request starts: its sender, and a device that differs from the one
before in its mailboxes and their interrupts only. -/
structure Started (s : State) (h : Hdr) (x : Session) (w : Sender) (d : Dev) : Prop where
  role : w.role = x.role
  tenancy : w.tenancy = x.tenancy
  epoch : w.epoch = h.epoch
  fn : w.fn = h.fn
  session : w.session = h.session
  tokFn : w.tok.fn = h.fn
  tokSession : w.tok.session = h.session
  tokTenancy : w.tok.tenancy = h.tenancy
  tokSeq : w.tok.seq = h.seq
  tokBoot : w.tok.boot = h.boot
  data : d.data = s.dev.data
  lining : d.lining = s.dev.lining
  gus : d.gus = s.dev.gus
  keeps : Keeps s.dev d
  live : ∃ y, d.session h.fn h.session = some y ∧ y.serial = w.tok.serial
  ctrs : s.dev.canWrite h.fn = true → SameCtrs d s.dev

theorem take_keeps (d : Dev) (h : Hdr) : Keeps d (d.take h) := by
  unfold Dev.take
  simp only
  refine Keeps.trans (b := if h.boot = true then _ else _) ?_ (Keeps.inc _ _ _ _)
  split
  · exact Keeps.setMbox _ _ _ (fun _ hx => hx) rfl rfl rfl (fun _ => rfl) (fun _ => rfl)
  · exact Keeps.setMbox _ _ _ (fun _ hx => hx) rfl rfl rfl (fun _ => rfl) (fun _ => rfl)

theorem take_session (d : Dev) (h : Hdr) (f k : Nat) : (d.take h).session f k = d.session f k := by
  unfold Dev.take
  simp only
  rw [session_of_mbx (mbx_inc _ _ _ _)]
  split
  all_goals
    unfold Dev.session
    by_cases hf : f = h.fn
    · subst hf; simp only [mbox_setMbox_self]
    · simp only [mbox_setMbox_ne _ _ _ _ hf]

theorem take_envelope (d : Dev) (o : OpSpec) (h : Hdr) : envelope o h (d.take h) = envelope o h d := by
  unfold envelope; rw [take_session]

theorem serveUnknown_none (d : Dev) (f : Nat) (h : (d.mbox f).unknown = []) : d.serveUnknown f = d := by
  unfold Dev.serveUnknown; rw [h]; rfl

/-- A response keeps what later deliveries keep. -/
theorem Keeps.respond (d : Dev) (tok : Token) (st : Status) (b : Bool) (n : Nat) (body : List Nat)
    (hb : tok.boot = false) : Keeps d (d.respond tok st b n body) := by
  unfold Dev.respond
  simp only [hb, Bool.false_eq_true, ↓reduceIte]
  split
  · exact Keeps.inc _ _ _ _
  · exact ((Keeps.nextSeq _ _ _).trans (Keeps.writeEntry _ _ _ _)).trans (Keeps.inc _ _ _ _)

@[simp] theorem nextSeq_lining (d : Dev) (f k : Nat) : (d.nextSeq f k).2.lining = d.lining := by
  unfold Dev.nextSeq; split
  · unfold Dev.setSession; split <;> rfl
  · rfl

@[simp] theorem nextSeq_gus (d : Dev) (f k : Nat) : (d.nextSeq f k).2.gus = d.gus := by
  unfold Dev.nextSeq; split
  · unfold Dev.setSession; split <;> rfl
  · rfl

@[simp] theorem irqBit_lining (d : Dev) (f i v : Nat) (on : Bool) : (d.irqBit f i v on).lining = d.lining := by
  unfold Dev.irqBit Dev.msix; simp only; repeat' split
  all_goals rfl

@[simp] theorem irqBit_gus (d : Dev) (f i v : Nat) (on : Bool) : (d.irqBit f i v on).gus = d.gus := by
  unfold Dev.irqBit Dev.msix; simp only; repeat' split
  all_goals rfl

@[simp] theorem writeEntry_lining (d : Dev) (f n : Nat) (e : Entry) : (d.writeEntry f n e).lining = d.lining := by
  unfold Dev.writeEntry; simp only; split <;> simp [Dev.setMbox, Dev.bump, Dev.setCtr]

@[simp] theorem writeEntry_gus (d : Dev) (f n : Nat) (e : Entry) : (d.writeEntry f n e).gus = d.gus := by
  unfold Dev.writeEntry; simp only; split <;> simp [Dev.setMbox, Dev.bump, Dev.setCtr]

@[simp] theorem respond_lining (d : Dev) (tok : Token) (st : Status) (b : Bool) (n : Nat) (body : List Nat) :
    (d.respond tok st b n body).lining = d.lining := by
  unfold Dev.respond; simp only; repeat' split
  all_goals simp [Dev.irqMisc, Dev.inc, Dev.bump, Dev.setCtr, Dev.setMbox]

@[simp] theorem respond_gus (d : Dev) (tok : Token) (st : Status) (b : Bool) (n : Nat) (body : List Nat) :
    (d.respond tok st b n body).gus = d.gus := by
  unfold Dev.respond; simp only; repeat' split
  all_goals simp [Dev.irqMisc, Dev.inc, Dev.bump, Dev.setCtr, Dev.setMbox]

@[simp] theorem setSession_lining (d : Dev) (f k : Nat) (y : Session) : (d.setSession f k y).lining = d.lining := by
  unfold Dev.setSession; split <;> rfl

@[simp] theorem setSession_gus (d : Dev) (f k : Nat) (y : Session) : (d.setSession f k y).gus = d.gus := by
  unfold Dev.setSession; split <;> rfl

@[simp] theorem take_lining (d : Dev) (h : Hdr) : (d.take h).lining = d.lining := by
  unfold Dev.take; simp only; split <;> rfl

@[simp] theorem take_gus (d : Dev) (h : Hdr) : (d.take h).gus = d.gus := by
  unfold Dev.take; simp only; split <;> rfl

/-- The device as a served request finds it once its window has taken its sequence. -/
theorem started_sync (o : OpSpec) (h : Hdr) (s : State) (x : Session) (H : s.Serves o h x) (a : Bool) (w : Sender)
    (hw : w = { role := x.role, tenancy := x.tenancy, epoch := h.epoch, fn := h.fn, session := h.session,
                tok := tokenOf (s.dev.take h) h o a }) :
    Started s h x w ((s.dev.take h).setSession h.fn h.session (x.accept h.seq)) := by
  subst hw
  have hs : (s.dev.take h).session h.fn h.session = some x := (take_session _ _ _ _).trans H.session
  refine { role := rfl, tenancy := rfl, epoch := rfl, fn := rfl, session := rfl, tokFn := rfl, tokSession := rfl,
           tokTenancy := rfl, tokSeq := rfl, tokBoot := rfl, data := by simp, lining := by simp, gus := by simp,
           keeps := (take_keeps _ _).trans (Keeps.setSession _ _ _ _ x hs rfl), live := ?_,
           ctrs := fun _ => (SameCtrs.of_eq (setSession_counters _ _ _ _)).trans (take_ctrs _ _) }
  exact ⟨_, setSession_self _ _ _ _ x hs, by simp [tokenOf, hs, Session.accept]⟩

/-- A served request runs its opcode's own work, once: on a ring ACCEPTED is written before it when it asks for that
(R419). -/
theorem runMessage_serves (o : OpSpec) (h : Hdr) (act : Sender → Dev → Reply × Dev) (s : State) (x : Session)
    (H : s.Serves o h x) :
    ∃ w d, Started s h x w d ∧
      runMessage o h act s = .next { s with dev := (Dev.conclude w.tok (act w d)).flush } := by
  have hx : (x.role == .maint && o.changes) = false := by
    cases hr : x.role == .maint
    · rfl
    · simp [H.permitted (by simpa using hr)]
  have hp : (!o.early && !s.dev.boot.ready) = false := by
    cases H.ready with
    | inl h => simp [h]
    | inr h => simp [h]
  have hfirst : (if h.boot = true then s.dev else s.dev.serveUnknown h.fn) = s.dev := by
    split
    · rfl
    · rename_i hb
      exact serveUnknown_none _ _ (H.first.resolve_left hb)
  have hq : (!h.boot && !(s.dev.mbox h.fn).unknown.isEmpty) = false := by
    cases H.first with
    | inl hb => simp [hb]
    | inr hu => simp [hu]
  have hf : (!h.boot && misframed h (s.dev.mbox h.fn)) = false := by
    cases H.framed with
    | inl hb => simp [hb]
    | inr hu => simp [hu]
  have hboot (d : Dev) (hd : d.data = s.dev.data) : (!o.early && !d.boot.ready) = false := by
    have hb : d.data.boot = s.dev.data.boot := by rw [hd]
    have hb : d.boot = s.dev.boot := hb
    rw [hb]; exact hp
  unfold runMessage running
  rw [H.power]
  simp only
  unfold message
  simp only [hfirst, H.rom, H.start, hq, hf, take_envelope, H.envelope, take_session, H.session]
  simp only [Bool.false_eq_true, ↓reduceIte, Bool.not_true, Bool.or_self]
  cases ha : (o.canAsync && h.flags.testBit 0 && !h.boot)
  · have S := started_sync o h s x H false _ rfl
    refine ⟨_, _, S, ?_⟩
    simp only [hx, hboot _ S.data, tokenOf, Bool.false_eq_true, ↓reduceIte]
  · have S := started_sync o h s x H true _ rfl
    have hc : o.canAsync = true ∧ h.flags.testBit 0 = true ∧ h.boot = false := by
      simpa [and_assoc] using ha
    have hplace : ¬ 32 ≤ (((s.dev.take h).setSession h.fn h.session (x.accept h.seq)).mbox h.fn).asyncs.length := by
      have hl := H.place hc.1 hc.2.1 hc.2.2
      have he : ((s.dev.take h).mbox h.fn).asyncs = (s.dev.mbox h.fn).asyncs := by
        unfold Dev.take; simp only; rw [mbox_of_mbx (mbx_inc _ _ _ _)]
        split <;> simp
      rw [setSession_mbox]
      split <;> simp only [he] <;> omega
    refine ⟨{ role := x.role, tenancy := x.tenancy, epoch := h.epoch, fn := h.fn, session := h.session,
              tok := tokenOf (s.dev.take h) h o true },
      ((s.dev.take h).setSession h.fn h.session (x.accept h.seq)).respond (tokenOf (s.dev.take h) h o true)
        .accepted (h.session != 0) 0 [], ?_, ?_⟩
    · have k := Keeps.respond ((s.dev.take h).setSession h.fn h.session (x.accept h.seq))
        (tokenOf (s.dev.take h) h o true) .accepted (h.session != 0) 0 [] hc.2.2
      refine { role := rfl, tenancy := rfl, epoch := rfl, fn := rfl, session := rfl, tokFn := rfl, tokSession := rfl,
               tokTenancy := rfl, tokSeq := rfl, tokBoot := rfl, data := by simp, lining := by simp, gus := by simp,
               keeps := S.keeps.trans k, live := ?_, ctrs := fun hw => ?_ }
      rotate_left
      · have hw2 := (S.keeps.write h.fn).trans hw
        exact (respond_ctrs _ _ _ _ _ _ hc.2.2 hw2).trans (S.ctrs hw)
      obtain ⟨y, hy, he⟩ := S.live
      have h2 := k.serial h.fn h.session
      rw [hy] at h2
      cases hz : (((s.dev.take h).setSession h.fn h.session (x.accept h.seq)).respond (tokenOf (s.dev.take h) h o true)
        .accepted (h.session != 0) 0 []).session h.fn h.session with
      | none => rw [hz] at h2; cases h2
      | some z => rw [hz] at h2; exact ⟨z, rfl, (Option.some.inj h2).trans he⟩
    · have hd := S.data
      simp only [hx, hplace, tokenOf, Bool.false_eq_true, ↓reduceIte]
      have hb := hboot _ ((respond_data _ (tokenOf (s.dev.take h) h o true) .accepted (h.session != 0) 0 []).trans hd)
      simp only [tokenOf] at hb
      simp only [hb, Bool.false_eq_true, ↓reduceIte]

/-- A served request of a ring whose work ends at once: its response stands in the ring, and the data path is as the
work left it. -/
theorem runMessage_done (o : OpSpec) (h : Hdr) (act : Sender → Dev → Reply × Dev) (s : State) (x : Session)
    (H : s.Serves o h x) (N : s.Hears h) (st : Status) (body : List Nat) (Q : Dev → Prop)
    (ha : ∀ w d, Started s h x w d →
      ∃ n e, act w d = (.done st n body, e) ∧ Keeps d e ∧ ∀ t : Dev, t.data = e.data → Q t) :
    ∃ t, runMessage o h act s = .next t ∧ t.pending = s.pending ∧ (t.dev.Replied h st body ∧ Q t.dev) := by
  obtain ⟨w, d, S, hrun⟩ := runMessage_serves o h act s x H
  obtain ⟨n, e, he, hk, hq⟩ := ha w d S
  have k := S.keeps.trans hk
  have hc : Dev.conclude w.tok (act w d) = e.finish w.tok st n body := by rw [he]; rfl
  rw [hc] at hrun
  have ha : e.coreUp (h.fn % 4) = true := by
    have hs := H.start
    unfold Dev.canStart at hs
    simp only [N.ring, Bool.false_eq_true, ↓reduceIte, Bool.and_eq_true, Dev.served] at hs
    rw [k.coreUp]
    exact hs.1.1.1.1.1.1.1.2
  have hl : ∃ y, e.session h.fn h.session = some y ∧ y.serial = w.tok.serial := by
    obtain ⟨y, hy, hl⟩ := S.live
    have h2 := hk.serial h.fn h.session
    rw [hy] at h2
    cases hz : e.session h.fn h.session with
    | none => rw [hz] at h2; cases h2
    | some z => rw [hz] at h2; exact ⟨z, rfl, (Option.some.inj h2).trans hl⟩
  have hr := finish_replied e w.tok st n body h (S.tokBoot.trans N.ring) S.tokFn S.tokSession S.tokTenancy S.tokSeq
    ((k.write _).trans N.write) ha hl
  have hd : (e.finish w.tok st n body).flush.data = e.data := (flush_data _).trans (finish_data _ _ _ _ _)
  generalize (e.finish w.tok st n body).flush = F at hrun hr hd
  exact ⟨_, hrun, rfl, hr, hq F hd⟩

end Sys2Proof.Machine
end

