-- ==== Sys2Proof/Laws/Events.lean ====
section
/-! SUPPORT. The delivery of events ends: an event that is delivered raises another only by triggering a capture, and
each of the sixteen captures is triggered once. -/

namespace Sys2Proof.Machine

/-- The events on their way, and the captures. -/
def Dev.onWay (d : Dev) : List (List Aud × EventMsg) × LiningState := (d.outbox, d.lining)

theorem foldl_onWay {α : Type} (f : Dev → α → Dev) (hf : ∀ d a, (f d a).onWay = d.onWay) (l : List α) (d : Dev) :
    (l.foldl f d).onWay = d.onWay := by
  induction l generalizing d with
  | nil => rfl
  | cons a l ih => exact (ih (f d a)).trans (hf d a)

@[simp] theorem bump_onWay (d : Dev) (c : Ctr) (a b n : Nat) : (d.bump c a b n).onWay = d.onWay := rfl
@[simp] theorem inc_onWay (d : Dev) (c : Ctr) (a b : Nat) : (d.inc c a b).onWay = d.onWay := rfl
@[simp] theorem setMbox_onWay (d : Dev) (f : Nat) (m : Mailbox) : (d.setMbox f m).onWay = d.onWay := rfl
@[simp] theorem setFend_onWay (d : Dev) (f : Nat) (e : EndFn) : (d.setFend f e).onWay = d.onWay := rfl

@[simp] theorem setSession_onWay (d : Dev) (f k : Nat) (s : Session) : (d.setSession f k s).onWay = d.onWay := by
  unfold Dev.setSession; split <;> rfl

@[simp] theorem msix_onWay (d : Dev) (f v : Nat) : (d.msix f v).onWay = d.onWay := by
  unfold Dev.msix; simp only; repeat' split
  all_goals rfl

@[simp] theorem irqBit_onWay (d : Dev) (f i v : Nat) (on : Bool) : (d.irqBit f i v on).onWay = d.onWay := by
  unfold Dev.irqBit; simp only; split <;> simp

@[simp] theorem writeEntry_onWay (d : Dev) (f n : Nat) (e : Entry) : (d.writeEntry f n e).onWay = d.onWay := by
  unfold Dev.writeEntry; simp only; split <;> simp

@[simp] theorem nextSeq_onWay (d : Dev) (f k : Nat) : (d.nextSeq f k).2.onWay = d.onWay := by
  unfold Dev.nextSeq; split <;> simp

@[simp] theorem writeEvent_onWay (d : Dev) (f k : Nat) (s : Session) (e : EventMsg) :
    (d.writeEvent f k s e).onWay = d.onWay := by simp [Dev.writeEvent]

@[simp] theorem deliver_onWay (d : Dev) (f k : Nat) (e : EventMsg) : (d.deliver f k e).onWay = d.onWay := by
  unfold Dev.deliver; repeat' split
  all_goals simp

@[simp] theorem countLost_onWay (d : Dev) (aud : List Aud) (o : List (Nat × Nat × Session)) :
    (d.countLost aud o).onWay = d.onWay := by
  unfold Dev.countLost
  refine foldl_onWay _ (fun d a => ?_) _ _
  simp only
  split
  · split <;> simp
  · rfl

/-- Whether capture `t` can still be triggered. -/
def LiningState.fresh (l : LiningState) (t : Nat) : Bool :=
  match l.captures.get? t with
  | some c => !(c.left.isSome || !(c.state == .armed || c.state == .running))
  | none => false

/-- How many captures can still be triggered. -/
def LiningState.freshCount (l : LiningState) : Nat := (List.range 16).countP l.fresh

/-- No more captures can be triggered than before, and fewer where an event has been raised. -/
def Fewer (d e : Dev) : Prop :=
  e.lining.freshCount ≤ d.lining.freshCount ∧
    (e.lining.freshCount < d.lining.freshCount ∨ e.outbox = d.outbox)

theorem Fewer.of_onWay {d e : Dev} (h : e.onWay = d.onWay) : Fewer d e := by
  have h1 : e.outbox = d.outbox := congrArg Prod.fst h
  have h2 : e.lining = d.lining := congrArg Prod.snd h
  exact ⟨Nat.le_of_eq (congrArg LiningState.freshCount h2), Or.inr h1⟩

theorem Fewer.of_lt {d e : Dev} (h : e.lining.freshCount < d.lining.freshCount) : Fewer d e :=
  ⟨Nat.le_of_lt h, Or.inl h⟩

theorem Fewer.trans {a b c : Dev} (h : Fewer a b) (g : Fewer b c) : Fewer a c := by
  refine ⟨Nat.le_trans g.1 h.1, ?_⟩
  rcases h.2 with h2 | h2
  · exact Or.inl (Nat.lt_of_le_of_lt g.1 h2)
  · rcases g.2 with g2 | g2
    · exact Or.inl (Nat.lt_of_lt_of_le g2 h.1)
    · exact Or.inr (g2.trans h2)

theorem Fewer.foldl {α : Type} (f : Dev → α → Dev) (l : List α) (hf : ∀ d, ∀ a ∈ l, Fewer d (f d a)) (d : Dev) :
    Fewer d (l.foldl f d) := by
  induction l generalizing d with
  | nil => exact .of_onWay rfl
  | cons a l ih =>
    exact (hf d a (List.mem_cons_self ..)).trans (ih (fun d b hb => hf d b (List.mem_cons_of_mem _ hb)) (f d a))

theorem countP_lt {l : List Nat} {p q : Nat → Bool} (h : ∀ x ∈ l, q x = true → p x = true) {t : Nat} (ht : t ∈ l)
    (hp : p t = true) (hq : q t = false) : l.countP q < l.countP p := by
  induction l with
  | nil => cases ht
  | cons a l ih =>
    have hl : l.countP q ≤ l.countP p := List.countP_mono_left fun x hx => h x (List.mem_cons_of_mem _ hx)
    rcases List.mem_cons.mp ht with rfl | ht
    · simp only [List.countP_cons, hp, hq]
      simp only [Bool.false_eq_true, ↓reduceIte]
      omega
    · have := ih (fun x hx => h x (List.mem_cons_of_mem _ hx)) ht
      have ha := h a (List.mem_cons_self ..)
      simp only [List.countP_cons]
      by_cases hqa : q a = true
      · simp [hqa, ha hqa]; omega
      · have hqf : q a = false := by simpa using hqa
        simp only [hqf, Bool.false_eq_true, ↓reduceIte]; split <;> omega

theorem Fewer.linTrigger (d : Dev) (t source code seq : Nat) (ht : t < 16) :
    Fewer d (d.linTrigger t source code seq) := by
  unfold Dev.linTrigger
  split
  · exact .of_onWay rfl
  · rename_i c hc
    split
    · exact .of_onWay rfl
    · rename_i hn
      refine Fewer.of_lt (countP_lt (fun x _ hx => ?_) (List.mem_range.mpr ht) ?_ ?_)
      · by_cases h : x = t
        · subst h; simp [LiningState.fresh, Dev.raise, Dev.newEvent, Dev.remember] at hx
        · simpa [LiningState.fresh, Dev.raise, Dev.newEvent, Dev.remember, Tab.get?_set_ne _ _ _ _ h] using hx
      · simp only [LiningState.fresh, hc, Bool.not_eq_true']
        exact eq_false_of_ne_true hn
      · simp [LiningState.fresh, Dev.raise, Dev.newEvent, Dev.remember]

theorem Fewer.deliverAll (d : Dev) (aud : List Aud) (e : EventMsg) : Fewer d (d.deliverAll aud e) := by
  unfold Dev.deliverAll
  simp only
  generalize d.openSessions.filter _ = l
  refine Fewer.trans (b := l.foldl (fun d o => d.deliver o.1 o.2.1 e) (d.countLost aud d.openSessions))
    (Fewer.of_onWay ?_) ?_
  · exact (foldl_onWay _ (fun d o => deliver_onWay _ _ _ _) _ _).trans (countLost_onWay _ _ _)
  · unfold Dev.eventTrigger
    refine Fewer.foldl _ _ (fun d t ht => ?_) _
    have ht : t < 16 := List.mem_range.mp ht
    repeat' split
    · exact Fewer.linTrigger _ _ _ _ _ ht
    · exact .of_onWay rfl
    · exact .of_onWay rfl

/-- One pass over the outbox leaves it empty, or leaves fewer captures that an event can trigger. -/
theorem flushOnce_fewer (d : Dev) : d.flushOnce.lining.freshCount ≤ d.lining.freshCount ∧
    (d.flushOnce.lining.freshCount < d.lining.freshCount ∨ d.flushOnce.outbox = []) := by
  have h : Fewer { d with outbox := [] } d.flushOnce := by
    unfold Dev.flushOnce
    exact Fewer.foldl _ _ (fun d o _ => Fewer.deliverAll _ _ _) _
  exact h

theorem flushOnce_settled {d : Dev} (h : d.outbox = []) : d.flushOnce = d := by
  unfold Dev.flushOnce
  rw [h]
  simp only [List.foldl_nil]
  rw [← h]

theorem flushes_of_settled {d : Dev} (h : d.outbox = []) (l : List Nat) :
    l.foldl (fun d _ => d.flushOnce) d = d := by
  induction l with
  | nil => rfl
  | cons a l ih => simp only [List.foldl_cons]; rw [flushOnce_settled h]; exact ih

theorem flushes_settled (l : List Nat) (d : Dev) (h : d.lining.freshCount < l.length) :
    (l.foldl (fun d _ => d.flushOnce) d).outbox = [] := by
  induction l generalizing d with
  | nil => exact absurd h (Nat.not_lt_zero _)
  | cons a l ih =>
    simp only [List.foldl_cons]
    rcases (flushOnce_fewer d).2 with hl | he
    · exact ih _ (by simp only [List.length_cons] at h; omega)
    · rw [flushes_of_settled he]; exact he

/-- Delivery ends: after the seventeen passes of `Dev.flush` no event waits. -/
theorem flush_settled (d : Dev) : d.flush.outbox = [] := by
  refine flushes_settled _ d ?_
  have h := List.countP_le_length (p := d.lining.fresh) (l := List.range 16)
  simp only [List.length_range] at h ⊢
  exact Nat.lt_of_le_of_lt h (by decide)

/-- Nothing waits, so nothing is delivered. -/
theorem flush_of_settled {d : Dev} (h : d.outbox = []) : d.flush = d := flushes_of_settled h _

end Sys2Proof.Machine
end

