-- ==== Sys2Proof/Laws/Memory.lean ====
section
/-! SUPPORT. Memories of words keep their canonical form, read what was written, and leave every other address alone. -/

namespace Sys2Proof

/-- A memory in canonical form whose addresses all lie above `n`. -/
def Mem.above (n : Nat) : Mem → Bool
  | [] => true
  | c :: _ => decide (n < c.1)

theorem Mem.wf_cons (c : Nat × Nat) (m : Mem) : Mem.wf (c :: m) = (c.2 != 0 && Mem.above c.1 m && Mem.wf m) := by
  cases m with
  | nil => simp [Mem.wf, Mem.above]
  | cons d m => simp [Mem.wf, Mem.above]

theorem Mem.above_lt {n k : Nat} {m : Mem} (h : Mem.above n m = true) (hk : k ≤ n) : Mem.above k m = true := by
  cases m with
  | nil => rfl
  | cons c m => simp [Mem.above] at *; omega

theorem Mem.above_write {n : Nat} (m : Mem) (a v : Nat) (h : Mem.above n m = true) (ha : n < a)
    (hw : Mem.wf m = true) : Mem.above n (m.write a v) = true := by
  cases m with
  | nil => unfold Mem.write; split <;> simp [Mem.above, ha]
  | cons c m =>
    rw [Mem.wf_cons] at hw
    simp only [Bool.and_eq_true] at hw
    have hc : n < c.1 := by simpa [Mem.above] using h
    unfold Mem.write
    repeat' split
    · exact h
    · simp [Mem.above, ha]
    · exact Mem.above_lt hw.1.2 (Nat.le_of_lt hc)
    · simp [Mem.above, ha]
    · simp [Mem.above, hc]

/-- A write keeps the canonical form. -/
theorem Mem.wf_write (m : Mem) (a v : Nat) (h : Mem.wf m = true) : Mem.wf (m.write a v) = true := by
  induction m with
  | nil => unfold Mem.write; split <;> simp [Mem.wf, *]
  | cons c m ih =>
    have hc := h
    rw [Mem.wf_cons] at hc
    simp only [Bool.and_eq_true] at hc
    obtain ⟨⟨h0, h1⟩, h2⟩ := hc
    unfold Mem.write
    split
    · rename_i ha
      split
      · exact h
      · rw [Mem.wf_cons]; simp [Mem.above, *]
    · split
      · rename_i ha
        split
        · exact h2
        · rw [Mem.wf_cons]; subst ha; simp [*]
      · rename_i h3 h4
        rw [Mem.wf_cons]
        have : c.1 < a := by omega
        simp only [Bool.and_eq_true]
        exact ⟨⟨h0, Mem.above_write m a v h1 this h2⟩, ih h2⟩

theorem Mem.wf_writeList (vs : List Nat) (m : Mem) (a : Nat) (h : Mem.wf m = true) :
    Mem.wf (Mem.writeList m a vs) = true := by
  induction vs generalizing m a with
  | nil => exact h
  | cons v vs ih => exact ih _ _ (Mem.wf_write m a v h)

theorem Mem.read_above {n a : Nat} (m : Mem) (h : Mem.above n m = true) (hw : Mem.wf m = true) (ha : a ≤ n) :
    Mem.read m a = 0 := by
  induction m generalizing n with
  | nil => rfl
  | cons c m ih =>
    rw [Mem.wf_cons] at hw
    simp only [Bool.and_eq_true] at hw
    have hc : n < c.1 := by simpa [Mem.above] using h
    have hne : (a == c.1) = false := by simp; omega
    have := ih hw.1.2 hw.2 (by omega)
    unfold Mem.read at this ⊢
    obtain ⟨x, y⟩ := c
    simp only [List.lookup] at *
    rw [hne]
    exact this

theorem Mem.read_cons (c : Nat × Nat) (m : Mem) (a : Nat) :
    Mem.read (c :: m) a = if a = c.1 then c.2 else Mem.read m a := by
  obtain ⟨x, y⟩ := c
  unfold Mem.read
  simp only [List.lookup]
  by_cases h : a = x
  · subst h; simp
  · have : (a == x) = false := by simp [h]
    simp [this, h]

theorem Mem.above_filter {n : Nat} (p : Nat × Nat → Bool) (m : Mem) (h : Mem.above n m = true) (hw : Mem.wf m = true) :
    Mem.above n (m.filter p) = true := by
  induction m generalizing n with
  | nil => rfl
  | cons c m ih =>
    rw [Mem.wf_cons] at hw
    simp only [Bool.and_eq_true] at hw
    have hc : n < c.1 := by simpa [Mem.above] using h
    rw [List.filter_cons]
    split
    · simp [Mem.above, hc]
    · exact ih (Mem.above_lt hw.1.2 (Nat.le_of_lt hc)) hw.2

/-- Words taken away leave the canonical form: a range cleared, a unit scrubbed. -/
theorem Mem.wf_filter (p : Nat × Nat → Bool) (m : Mem) (h : Mem.wf m = true) : Mem.wf (m.filter p) = true := by
  induction m with
  | nil => rfl
  | cons c m ih =>
    have hc := h
    rw [Mem.wf_cons] at hc
    simp only [Bool.and_eq_true] at hc
    rw [List.filter_cons]
    split
    · rw [Mem.wf_cons]
      simp only [Bool.and_eq_true]
      exact ⟨⟨hc.1.1, Mem.above_filter p m hc.1.2 hc.2⟩, ih hc.2⟩
    · exact ih hc.2

theorem Mem.wf_clearRange (m : Mem) (a n : Nat) (h : Mem.wf m = true) : Mem.wf (m.clearRange a n) = true :=
  Mem.wf_filter _ m h

/-- A word written reads back. -/
theorem Mem.read_write (m : Mem) (a v : Nat) (h : Mem.wf m = true) : Mem.read (m.write a v) a = v := by
  induction m with
  | nil => unfold Mem.write; split <;> simp [Mem.read, *]
  | cons c m ih =>
    have hc := h
    rw [Mem.wf_cons] at hc
    simp only [Bool.and_eq_true] at hc
    unfold Mem.write
    split
    · rename_i ha
      split
      · rename_i hv
        subst hv
        exact Mem.read_above (n := a) _ (by simp [Mem.above, ha]) h (Nat.le_refl a)
      · rw [Mem.read_cons]; simp
    · split
      · rename_i ha
        split
        · rename_i hv
          subst hv
          exact Mem.read_above _ hc.1.2 hc.2 (by omega)
        · rw [Mem.read_cons]; simp
      · rename_i h3
        rw [Mem.read_cons, if_neg h3]; exact ih hc.2

/-- A write leaves every other address alone. -/
theorem Mem.read_write_ne (m : Mem) (a b v : Nat) (h : b ≠ a) : Mem.read (m.write a v) b = Mem.read m b := by
  induction m with
  | nil =>
    unfold Mem.write
    split
    · rfl
    · rw [Mem.read_cons, if_neg h]
  | cons c m ih =>
    unfold Mem.write
    repeat' split
    · rfl
    · rw [Mem.read_cons, if_neg h]
    · rename_i h1 h2 h3; subst h2; rw [Mem.read_cons, if_neg h]
    · rename_i h1 h2 h3; subst h2; rw [Mem.read_cons, if_neg h, Mem.read_cons, if_neg h]
    · rw [Mem.read_cons, Mem.read_cons, ih]

namespace Machine

/-- At reset the customer memories and every boot mailbox are in canonical form. -/
theorem reset_memories : Mem.wf Dev.reset.micro.custMem = true ∧ ∀ f, Mem.wf (Dev.reset.mbox f).boot = true :=
  ⟨rfl, fun _ => rfl⟩

end Machine

end Sys2Proof
end

