-- ==== Sys2Proof/Laws/Stages.lean ====
section
/-! SUPPORT. What a row of the pipeline does to a plain packet: its own effect and the next phase. -/

namespace Sys2Proof.Machine

@[simp] theorem frame_setFrame_self (d : Dev) (fid : Nat) (f : Frame) : (d.setFrame fid f).frame fid = some f := by
  simp [Dev.frame, Dev.setFrame]

theorem frame_setFrame_ne (d : Dev) (fid j : Nat) (f : Frame) (h : j ≠ fid) :
    (d.setFrame fid f).frame j = d.frame j := by
  simp [Dev.frame, Dev.setFrame, Tab.get?_set_ne _ _ _ _ h]

/-- A stage with no routine bound to it leaves a packet on its first pass alone (R209). -/
theorem hook_idle (d : Dev) (fid st : Nat) (hp : ∀ g, d.frame fid = some g → g.pass = 0)
    (hh : ∀ k, d.micro.hooks.get? k = none) : d.hook fid st = d := by
  unfold Dev.hook Dev.withFrame
  split
  · rename_i g hg
    simp only [hp g hg, hh, Nat.lt_irrefl, decide_false, Bool.false_and, Bool.false_eq_true, ↓reduceIte]
    split
    · rfl
    · rename_i pc h
      split at h <;> cases h
  · rfl

theorem hooks_idle (l : List Nat) (d : Dev) (fid : Nat) (hp : ∀ g, d.frame fid = some g → g.pass = 0)
    (hh : ∀ k, d.micro.hooks.get? k = none) : l.foldl (fun d st => d.hook fid st) d = d := by
  induction l with
  | nil => rfl
  | cons a l ih => simp only [List.foldl_cons]; rw [hook_idle d fid a hp hh]; exact ih

/-- A row of the pipeline on a plain packet: its own effect, and the next phase where the packet still stands. -/
theorem stageRow_plain (s : State) (fid : Nat) (f : Frame) (ph next : Phase) (stages : List Nat)
    (act : Frame → Dev → Dev) (S : s.Plain fid f ph)
    (hh : (act f s.dev).micro.hooks = s.dev.micro.hooks)
    (hp : ∀ g, (act f s.dev).frame fid = some g → g.pass = 0) :
    s.dev.stageRow fid ph next stages act =
      (act f s.dev).withFrame fid fun g =>
        (act f s.dev).setFrame fid (if g.phase = ph then { g with phase := next } else g) := by
  have hw : ∀ (a : Dev → Dev), s.dev.inWorld f a = a s.dev := by
    intro a
    unfold Dev.inWorld
    rw [S.origin]
  unfold Dev.stageRow Dev.atPhase
  have hf : ∀ a, s.dev.withFrame fid a = a f := fun a => by unfold Dev.withFrame; rw [S.frame]
  rw [hf]
  simp only [S.phase, ↓reduceIte, hw]
  refine hooks_idle _ _ _ (fun g hg => ?_) (fun k => ?_)
  · unfold Dev.withFrame at hg
    split at hg
    · rename_i g' hg'
      rw [frame_setFrame_self] at hg
      cases hg
      have := hp g' hg'
      split <;> exact this
    · rename_i hn
      exact hp g hg
  · have : ((act f s.dev).withFrame fid fun g =>
        (act f s.dev).setFrame fid (if g.phase = ph then { g with phase := next } else g)).micro.hooks =
        (act f s.dev).micro.hooks := by
      unfold Dev.withFrame
      split <;> rfl
    rw [this, hh]
    exact S.hooks k

end Sys2Proof.Machine
end

