-- ==== Sys2Proof/WellFormed.lean ====
section
/-! DEFINITION. Well-formed commands: every field of a message's record fits the width that its table gives it, and
every unit that a hardware event names exists. `exec` is total whether or not a command is well-formed: a value that
fits its field and lies out of its range is refused by the message's own rule (R11, R14), and an event of a unit that
does not exist changes nothing. -/

namespace Sys2Proof

/-- A value of a field of `k` bytes. -/
def fits (k n : Nat) : Bool := decide (n < 2 ^ (8 * k))

/-- A signed value of a field of `k` bytes. -/
def fitsInt (k : Nat) (z : Int) : Bool := decide (-(2 ^ (8 * k - 1) : Int) ≤ z ∧ z < (2 ^ (8 * k - 1) : Int))

/-- A unit of `n`. -/
def oneOf (n u : Nat) : Bool := decide (u < n)

/-- The bytes of a frame or a sentence. -/
def octets (l : List Nat) : Bool := l.all (fits 1)

def Hdr.wf (r : Hdr) : Bool :=
  fits 2 r.session && fits 1 r.tenancy && fits 1 r.flags && fits 2 r.epoch && fits 8 r.seq && fits 4 r.length &&
    decide (r.fn < 32)

def Extract.wf (r : Extract) : Bool :=
  fits 1 r.base && fits 1 r.offset && fits 1 r.len

def SlotShareRec.wf (r : SlotShareRec) : Bool :=
  fits 1 r.sleeve && fits 1 r.flags && fits 2 r.recirc && fits 2 r.inject && fits 2 r.housekeeping &&
    fits 2 r.replay && fits 2 r.updateGap

def PtpPortRec.wf (r : PtpPortRec) : Bool :=
  fits 1 r.port && fits 1 r.flags && fits 1 r.domain && fitsInt 4 r.ingressAsym && fitsInt 4 r.egressAsym

def TimeIoRec.wf (r : TimeIoRec) : Bool :=
  fits 1 r.source && fits 1 r.servoMode && fits 2 r.sourcePort && fits 4 r.stepThreshold && fits 4 r.slewMax &&
    fits 1 r.ppsOutFlags && fits 1 r.todDir && fits 4 r.ppsOutWidth && fitsInt 4 r.ppsOutOffset &&
    fits 4 r.ppsInDelay && fits 2 r.synce0Port && fits 1 r.synce0Freq && fits 2 r.synce1Port &&
    fits 1 r.synce1Freq

def TimeAdjustRec.wf (r : TimeAdjustRec) : Bool :=
  fits 1 r.op && fits 1 r.state && fitsInt 8 r.value && fits 4 r.nanoseconds && fits 2 r.fraction &&
    fitsInt 4 r.freqAdj

def CuffAttachRec.wf (r : CuffAttachRec) : Bool :=
  fits 1 r.cuff && fits 1 r.sleeve && fits 4 r.moveTimeout

def PortConfigRec.wf (r : PortConfigRec) : Bool :=
  fits 1 r.port && fits 1 r.mode && fits 1 r.fec && fits 1 r.flags && fits 2 r.maxFrame && fits 2 r.sliceLen &&
    fits 1 r.urgentPcp && fits 1 r.urgentUntagged && fits 2 r.linkHold && fits 2 r.downHold && fits 2 r.upHold

def ParsePortRec.wf (r : ParsePortRec) : Bool :=
  fits 1 r.port && fits 1 r.flags && fits 1 r.stdLayers && fits 1 r.deepLayers && fits 2 r.deepBytes &&
    fits 2 r.windowMax && fits 2 r.ecpriUdpPort && fits 1 r.malformedAction && fits 1 r.orphanAction

def PatternRec.wf (r : PatternRec) : Bool :=
  fits 2 r.index && fits 1 r.vectorBit && fits 1 r.len && fits 1 r.offsetMin && fits 1 r.offsetMax &&
    fits 8 r.nibbleMask && r.value.length == 32 && r.value.all (fits 1)

def FragConfigRec.wf (r : FragConfigRec) : Bool :=
  fits 1 r.sleeve && fits 4 r.timeoutUs && r.quota.length == 16 && r.quota.all (fits 2)

def ProfileRec.wf (r : ProfileRec) : Bool :=
  fits 1 r.profile && fits 1 r.count && fits 1 r.selectMask && r.extract.all Extract.wf &&
    r.keyMask.all (fits 1)

def FlowAddRec.wf (r : FlowAddRec) : Bool :=
  fits 1 r.profile && fits 1 r.flags && r.key.length == 16 && r.key.all (fits 1) && fits 4 r.actionRef &&
    fits 2 r.flowContext && fits 2 r.metaVal

def FlowDelRec.wf (r : FlowDelRec) : Bool :=
  fits 1 r.profile && fits 1 r.flags && r.key.length == 16 && r.key.all (fits 1)

def LearnPolicyRec.wf (r : LearnPolicyRec) : Bool :=
  fits 4 r.ageingS && fits 4 r.flowIdleS && fits 1 r.eviction && fits 1 r.flags && fits 1 r.flowEviction

def LearnQuotaRec.wf (r : LearnQuotaRec) : Bool :=
  r.quota.length == 16 && r.quota.all (fits 4) && fits 4 r.reseedS

def LearnPortRec.wf (r : LearnPortRec) : Bool :=
  fits 1 r.port && fits 1 r.flags && fits 2 r.defaultBd

def LearnStaticRec.wf (r : LearnStaticRec) : Bool :=
  fits 6 r.mac && fits 2 r.bd && fits 1 r.port

def LearnFlushRec.wf (r : LearnFlushRec) : Bool :=
  fits 1 r.sleeves && fits 1 r.flags && fits 1 r.port && fits 2 r.bd && fits 6 r.mac

def TcamIterateRec.wf (r : TcamIterateRec) : Bool :=
  fits 1 r.sleeve && fits 1 r.version && fits 1 r.profile && fits 2 r.startIndex && fits 2 r.maxResults &&
    fits 2 r.epoch && r.key.length == 76 && r.key.all (fits 1)

def TcamWriteRec.wf (r : TcamWriteRec) : Bool :=
  fits 2 r.index && fits 1 r.profile && fits 4 r.actionRef && fits 2 r.metaVal &&
    r.value.length == 76 && r.value.all (fits 1) && r.mask.length == 76 && r.mask.all (fits 1)

def TcamThrottleRec.wf (r : TcamThrottleRec) : Bool :=
  fits 1 r.sleeve && fits 1 r.tcReserve && fits 4 r.scrubMs

def ActTenancyRec.wf (r : ActTenancyRec) : Bool :=
  fits 1 r.precedence && fits 1 r.flags && fits 4 r.missRef && fits 4 r.pcpMap

def FloodGroupRec.wf (r : FloodGroupRec) : Bool :=
  fits 2 r.group && fits 1 r.queue && fits 12 r.ports && fits 2 r.bdFirst && fits 2 r.bdCount

def MirrorSessionRec.wf (r : MirrorSessionRec) : Bool :=
  fits 1 r.session && fits 1 r.target && fits 1 r.port && fits 1 r.queue && fits 1 r.sourcePort &&
    fits 1 r.sourceDir && fits 1 r.trunc && fits 4 r.rateMbps && fits 4 r.burst

def CopyLimitRec.wf (r : CopyLimitRec) : Bool :=
  fits 1 r.tenancy && fits 1 r.sessions && fits 2 r.burst && fits 4 r.ratePps && fits 4 r.mirrorMaxMbps

def ActionRec.wf (r : ActionRec) : Bool :=
  fits 2 r.index && decide (r.disposition < 2 ^ 3) && decide (r.port < 2 ^ 7) && decide (r.queue < 2 ^ 4) &&
    decide (r.queueSel < 2 ^ 2) && decide (r.floodGroup < 2 ^ 10) && decide (r.collarQueue < 2 ^ 3) &&
    decide (r.copyLen < 2 ^ 8) && decide (r.mirrorSession < 2 ^ 4) && decide (r.dropReason < 2 ^ 6) &&
    r.rewrite.length == 3 && r.rewrite.all (fits 8)

def TemplateRec.wf (r : TemplateRec) : Bool :=
  fits 2 r.index && fits 1 r.len && r.bytes.length == 64 && r.bytes.all (fits 1)

def Binding.wf (r : Binding) : Bool :=
  fits 1 r.tenancy && fits 1 r.stage && fits 1 r.profile && fits 2 r.word

def UcodeImage.wf (r : UcodeImage) : Bool :=
  fits 48 r.digest && r.words.all (fun w => fits 1 w.1 && fits 2 w.2.1) && r.bindings.all Binding.wf

def UcodeLoadRec.wf (r : UcodeLoadRec) : Bool :=
  fits 8 r.imageAddr && fits 4 r.imageLen

def UcodeAcceptRec.wf (r : UcodeAcceptRec) : Bool :=
  fits 48 r.digest && fits 1 r.flags

def UcodeActivateRec.wf (r : UcodeActivateRec) : Bool :=
  fits 48 r.digest && fits 4 r.deadlineMs

def CustMemRec.wf (r : CustMemRec) : Bool :=
  fits 1 r.sleeves && fits 1 r.stage && fits 2 r.index && fits 2 r.count && r.data.all (fits 8)

def PoolRec.wf (r : PoolRec) : Bool :=
  fits 1 r.pool && fits 1 r.tenancy && fits 1 r.flags && fits 4 r.size

def QueueBufRec.wf (r : QueueBufRec) : Bool :=
  fits 1 r.port && fits 1 r.queue && fits 1 r.flags && fits 4 r.limit && fits 4 r.spillMark &&
    fits 4 r.returnMark && fits 4 r.spillMax

def MeterBindRec.wf (r : MeterBindRec) : Bool :=
  fits 2 r.index && fits 1 r.mode && fits 1 r.flags && fits 8 r.rate1 && fits 8 r.rate2 && fits 4 r.burst1 &&
    fits 4 r.burst2 && r.dscp.length == 3 && r.dscp.all (fits 1) && r.pcp.length == 3 && r.pcp.all (fits 1) &&
    r.queue.length == 3 && r.queue.all (fits 1)

def MeterTenancyRec.wf (r : MeterTenancyRec) : Bool :=
  fits 1 r.flags && fits 1 r.untaggedColour && fits 1 r.nonipColour && fits 2 r.defaultCtx &&
    fits 4 r.pcpDeiMap && fits 16 r.dscpMap

def SchedPortRec.wf (r : SchedPortRec) : Bool :=
  fits 1 r.port && fits 1 r.strictCount && fits 2 r.quantumUnit && fits 8 r.queueGate

def SchedQueueRec.wf (r : SchedQueueRec) : Bool :=
  fits 1 r.port && fits 1 r.queue && fits 1 r.flags && fits 2 r.weight && fits 8 r.rateBps && fits 4 r.burst &&
    fits 4 r.sojournMaxUs

def GateConfigRec.wf (r : GateConfigRec) : Bool :=
  fits 1 r.port && fits 1 r.flags && fits 1 r.adminGateStates && fits 2 r.entryCount && fits 6 r.baseSeconds &&
    fits 4 r.baseNs && fits 4 r.cycleNs && fits 4 r.cycleExtNs

def GateEntry.wf (r : GateEntry) : Bool :=
  fits 4 r.durationM1 && fits 1 r.gateStates

def GateEntriesRec.wf (r : GateEntriesRec) : Bool :=
  fits 1 r.port && fits 2 r.first && fits 2 r.count && r.entries.all GateEntry.wf

def SamplerQuotaRec.wf (r : SamplerQuotaRec) : Bool :=
  r.ringKib.length == 16 && r.ringKib.all (fits 2) && r.quota.length == 16 && r.quota.all (fits 4)

def SamplerRec.wf (r : SamplerRec) : Bool :=
  fits 1 r.port && fits 1 r.flags && fits 2 r.queueMask && fits 4 r.intervalNs

def RelProfileRec.wf (r : RelProfileRec) : Bool :=
  fits 2 r.index && fits 1 r.mu && fits 1 r.extCp && fits 1 r.flags && fits 1 r.direction && fits 1 r.msgMask &&
    fits 1 r.queue && fits 6 r.originS && fits 4 r.originNs && fitsInt 4 r.openOff && fitsInt 4 r.closeOff

def MacsecPortRec.wf (r : MacsecPortRec) : Bool :=
  fits 1 r.port && fits 1 r.flags && fits 1 r.validate && fits 2 r.txSc && fits 2 r.defaultRxSc

def MacsecScRec.wf (r : MacsecScRec) : Bool :=
  fits 2 r.sc && fits 1 r.port && fits 1 r.flags && fits 8 r.sci && fits 4 r.replayWindow &&
    fits 8 r.pnThreshold

def KeyLoadRec.wf (r : KeyLoadRec) : Bool :=
  fits 1 r.target && fits 1 r.suite && fits 2 r.slot && fits 2 r.sc && fits 1 r.an && fits 1 r.dir &&
    fits 4 r.ssci && fits 8 r.lowestPn && fits 12 r.salt && fits 32 r.key

def KeyEraseRec.wf (r : KeyEraseRec) : Bool :=
  fits 1 r.target && fits 2 r.slot

def BulkOpenRec.wf (r : BulkOpenRec) : Bool :=
  fits 2 r.keySlot && fits 1 r.mode && fits 1 r.flags && fits 12 r.nonce

def Blob.wf (r : Blob) : Bool :=
  fits 4 r.segment

def BulkSegmentRec.wf (r : BulkSegmentRec) : Bool :=
  fits 4 r.message && fits 4 r.aadLen && fits 4 r.dataLen && fits 1 r.flags && fits 8 r.outAddr &&
    fits 16 r.tag && r.blob.wf && r.input.all (fits 1)

def DramConfigRec.wf (r : DramConfigRec) : Bool :=
  fits 1 r.rate && fits 1 r.drfmK && fits 2 r.ueFence && fits 4 r.ageLimitNs && fits 4 r.idleSrUs &&
    fits 4 r.srMinNs

def DramChannelRec.wf (r : DramChannelRec) : Bool :=
  fits 1 r.channel && fits 1 r.op && fits 4 r.deadlineMs

def RecStoreRec.wf (r : RecStoreRec) : Bool :=
  fits 4 r.storeMib && r.quotaMib.length == 16 && r.quotaMib.all (fits 2) &&
    r.ratePps.length == 16 && r.ratePps.all (fits 4)

def RecArmRec.wf (r : RecArmRec) : Bool :=
  fits 1 r.sleeveMask && fits 1 r.mode && fits 1 r.flags && fits 1 r.capUnits && fits 12 r.ports &&
    fits 4 r.ratePps && fits 4 r.preDepth && fits 4 r.postDepth && fits 1 r.trigger && fits 2 r.eventCode &&
    fits 4 r.refValue && fits 4 r.refMask && fits 8 r.dropMask && fits 4 r.trigRef && fits 8 r.trigDropMask

def RecExportRec.wf (r : RecExportRec) : Bool :=
  fits 8 r.firstIndex && fits 4 r.count && fits 2 r.keySlot && fits 8 r.hostAddr

def ReplayRunRec.wf (r : ReplayRunRec) : Bool :=
  fits 1 r.liveSleeve && fits 1 r.replaySleeve && fits 1 r.pool && fits 1 r.flags && fits 8 r.firstIndex &&
    fits 4 r.count

def PortTenancyRec.wf (r : PortTenancyRec) : Bool :=
  fits 1 r.port && fits 1 r.mode && fits 1 r.tenancy && fits 2 r.firstVid && fits 2 r.count &&
    r.entries.all (fits 1)

def ResAssignRec.wf (r : ResAssignRec) : Bool :=
  fits 1 r.kind && fits 1 r.tenancy && fits 1 r.flags && fits 2 r.first && fits 2 r.count &&
    fits 2 r.queueMask

def TenantEnrolRec.wf (r : TenantEnrolRec) : Bool :=
  fits 1 r.tenancy && fits 1 r.flags && fits 48 r.key

def Token.wf (r : Token) : Bool :=
  fits 2 r.version && fits 2 r.scope && fits 2 r.flags && fits 48 r.subject && fits 6 r.notAfter &&
    fits 4 r.maxDurationS && fits 16 r.nonce

def SessionOpenRec.wf (r : SessionOpenRec) : Bool :=
  fits 1 r.role && fits 1 r.tenancy && fits 96 r.hostEph && fits 48 r.signer && r.token.wf

def GusConfigRec.wf (r : GusConfigRec) : Bool :=
  fits 1 r.pmbusAddr && fits 1 r.flags && fits 4 r.capUf && fits 2 r.vcutMv && fits 2 r.holdDiv &&
    fits 2 r.pHoldMw && fits 1 r.effPct

def SvcUnitRec.wf (r : SvcUnitRec) : Bool :=
  fits 1 r.kind && fits 1 r.op && fits 2 r.unit && fits 4 r.deadlineMs

def SvcTestRec.wf (r : SvcTestRec) : Bool :=
  fits 1 r.kind && fits 2 r.unit

def FwImage.wf (r : FwImage) : Bool :=
  fits 48 r.digest && fits 1 r.imageType && fits 1 r.securityVersion

def FwStoreRec.wf (r : FwStoreRec) : Bool :=
  fits 1 r.target && fits 4 r.imageLen && r.image.wf && r.ucode.all UcodeImage.wf

def EjectConfigRec.wf (r : EjectConfigRec) : Bool :=
  fits 1 r.mode && fits 2 r.graceMs

def InjectRec.wf (r : InjectRec) : Bool :=
  r.bytes.all (fits 1)

/-- A command whose operands fit the fields and the units that the spec gives them. -/
def Instr.wf (i : Instr) : Bool :=
  match i with
  | .frameRxStart port _ _ bytes => oneOf 96 port && octets bytes
  | .tenancyMapLookup _ => true
  | .rxNextPocket _ => true
  | .sliceOffer _ => true
  | .frameRxEnd _ _ => true
  | .macsecRxVerify _ => true
  | .macsecRxDeliver _ => true
  | .fecCodewordDecode lane _ => oneOf 96 lane
  | .slotGrant sleeve _ => oneOf 7 sleeve
  | .parse _ => true
  | .payloadPatternMatch _ => true
  | .fragmentLookup _ => true
  | .fragmentWriteBack _ => true
  | .fragSweepVisit sleeve => oneOf 7 sleeve
  | .flowKeyBuild _ => true
  | .flowLookup _ _ => true
  | .learnLookup _ _ => true
  | .tcamSearch _ _ _ => true
  | .meterAccess _ _ => true
  | .colourAction _ => true
  | .actionSelect _ => true
  | .forwardResolve _ => true
  | .ttlCopyMirror _ => true
  | .rewriteCompile _ => true
  | .releaseClassify _ => true
  | .enqueueDecision _ => true
  | .egressHandoff _ => true
  | .seamClaim port => oneOf 96 port
  | .seamLaunch port => oneOf 96 port
  | .enqueue _ => true
  | .copyMirrorRead _ _ => true
  | .rxRingCopyWrite fn => oneOf 32 fn
  | .spillWriteDone _ => true
  | .spillReturn port queue => oneOf 96 port && oneOf 16 queue
  | .spillReturnRetry port queue => oneOf 96 port && oneOf 16 queue
  | .calendarRelease port => oneOf 96 port
  | .schedulerSelect port => oneOf 96 port
  | .frameTxStart port _ => oneOf 96 port
  | .frameTxEnd port => oneOf 96 port
  | .cachePrefetch unit pool => oneOf 15 unit && oneOf 32 pool
  | .cacheIdleReturn unit => oneOf 15 unit
  | .cacheLowWaterReturn pool => oneOf 32 pool
  | .sojournCheck port => oneOf 96 port
  | .linkDownFlush port => oneOf 96 port
  | .linkHoldExpiry port => oneOf 96 port
  | .laneLockAcquire lane _ => oneOf 96 lane
  | .laneLockLoss lane _ => oneOf 96 lane
  | .synceResume out => oneOf 2 out
  | .remoteFaultRx port _ => oneOf 96 port
  | .downHoldExpiry port => oneOf 96 port
  | .anResolved port mode fec => oneOf 96 port && fits 1 mode && fits 1 fec
  | .trainingComplete port => oneOf 96 port
  | .trainingTimeout port => oneOf 96 port
  | .upHoldExpiry port => oneOf 96 port
  | .cuffFenceDrained cuff => oneOf 24 cuff
  | .cuffMoveTimeout cuff => oneOf 24 cuff
  | .portSettingEffect port _ => oneOf 96 port
  | .ptpSettingEffect port _ => oneOf 96 port
  | .macsecSettingEffect port _ => oneOf 96 port
  | .tenancyLossEffect port _ => oneOf 96 port
  | .hemTimeAdvance _ => true
  | .servoUpdate _ _ => true
  | .sourceLost source => oneOf 5 source
  | .sourceValid source => oneOf 5 source
  | .ppsInEdge => true
  | .ppsInMissing => true
  | .ppsOutEdge => true
  | .ppsOutPulseEnd => true
  | .todTx => true
  | .todRx bytes => octets bytes
  | .flowIdleScan tenancy => oneOf 16 tenancy
  | .learnEngineTurn sleeve => oneOf 7 sleeve
  | .learnScannerVisit sleeve => oneOf 7 sleeve
  | .generatorReseed => true
  | .tcamScrubPassStart sleeve _ => oneOf 7 sleeve
  | .tcamBandEval => true
  | .searchWindowBoundary sleeve => oneOf 7 sleeve
  | .slotDrainComplete slot => oneOf 4 slot
  | .preparationStart => true
  | .preparationComplete => true
  | .commitSlotReady => true
  | .commitDeadline _ => true
  | .journalWriteDone _ => true
  | .commitCycle => true
  | .overlayDrain sleeve stage => oneOf 7 sleeve && oneOf 20 stage
  | .csScrubRead sleeve stage _ => oneOf 7 sleeve && oneOf 20 stage
  | .csWordRepair sleeve stage addr => oneOf 7 sleeve && oneOf 20 stage && fits 2 addr
  | .hookGenDrained => true
  | .gateEntryAdvance port => oneOf 96 port
  | .gateCycleBoundary port => oneOf 96 port
  | .gateConfigChange port => oneOf 96 port
  | .samplerTick port tenancy => oneOf 96 port && oneOf 16 tenancy
  | .keyTakeEffect _ => true
  | .keyEraseComplete _ => true
  | .bulkJobStart => true
  | .bulkJobComplete engine => oneOf 4 engine
  | .bulkKeyChange _ => true
  | .bootEpochAdvance readback => fits 8 readback
  | .bootEpochRetry readback => fits 8 readback
  | .dramCommandIssue channel => oneOf 6 channel
  | .dramReadComplete channel _ => oneOf 6 channel
  | .dramSpareTakeover => true
  | .journalRecopyDone => true
  | .dramRefreshIntervalBoundary => true
  | .dramRefreshSlot channel => oneOf 6 channel
  | .dramMr4Poll _ => true
  | .dramIdleSrEntry channel => oneOf 6 channel
  | .dramSrExit channel => oneOf 6 channel
  | .dramRateChannelDone channel => oneOf 6 channel
  | .dramMigrationComplete => true
  | .dramSweepDone channel _ => oneOf 6 channel
  | .dramSystemScrub channel _ => oneOf 6 channel
  | .dramTrainingDone _ => true
  | .liningRecordWrite tenancy _ => oneOf 16 tenancy
  | .liningRingDrain => true
  | .snapshotSweepDone tenancy => oneOf 16 tenancy
  | .replayEpochSwitch sleeve => oneOf 7 sleeve
  | .replayStreamEnd sleeve => oneOf 7 sleeve
  | .replayRestoreDone sleeve => oneOf 7 sleeve
  | .resScrubCommit _ => true
  | .resDrainDone _ => true
  | .resUnitScrubDone _ => true
  | .resEpochIssue _ => true
  | .assignCounterTurn => true
  | .maintSessionExpiry fn session => oneOf 32 fn && oneOf 5 session
  | .maintNotAfterCheck => true
  | .debugNonceExpiry => true
  | .rollbackFuseBlow => true
  | .claspHealthTestFail => true
  | .drawTimeout => true
  | .helloExpiry fn => oneOf 32 fn
  | .watchdogExpiry core => oneOf 5 core
  | .coreTakeover => true
  | .heartbeatExpiry fn => oneOf 32 fn
  | .irqCoalesceTimeout fn ring => oneOf 32 fn && oneOf 2 ring
  | .reqRingEnableWrite fn _ => oneOf 32 fn
  | .rspRingEnableWrite fn _ => oneOf 32 fn
  | .rxRingEnableWrite fn _ => oneOf 32 fn
  | .reqDoorbell fn tail _ => oneOf 32 fn && fits 4 tail
  | .rspHeadWrite fn index => oneOf 32 fn && fits 4 index
  | .rxHeadWrite fn index => oneOf 32 fn && fits 4 index
  | .heartbeatKick fn => oneOf 32 fn
  | .bootGo fn => oneOf 32 fn
  | .bootDoneClear fn => oneOf 32 fn
  | .hostLostClear fn => oneOf 32 fn
  | .irqStatusClear fn mask => oneOf 32 fn && fits 4 mask
  | .registerWrite fn _ value => oneOf 32 fn && fits 8 value
  | .drcSetSwap channel => oneOf 6 channel
  | .drcModeRegisterAccess channel _ => oneOf 6 channel
  | .drcTrainingRowAccess channel _ => oneOf 6 channel
  | .drcReadCompare channel _ => oneOf 6 channel
  | .barMisalignedAccess fn _ => oneOf 32 fn
  | .pcieLinkUp _ _ => true
  | .pcieLinkDown => true
  | .hotReset => true
  | .functionLevelReset fn => oneOf 32 fn
  | .busMasterClear fn => oneOf 32 fn
  | .busMasterSet fn => oneOf 32 fn
  | .d3hotEntry fn => oneOf 32 fn
  | .d0Return fn => oneOf 32 fn
  | .vfEnableSet numVfs => fits 2 numVfs
  | .vfEnableClear => true
  | .configRequest fn _ ctoValue => oneOf 32 fn && oneOf 16 ctoValue
  | .dmaCompletionArrival tag _ => oneOf 512 tag
  | .completionTimeout tag => oneOf 512 tag
  | .tagQuarantineEnd tag => oneOf 512 tag
  | .reqRingFetchRetry fn => oneOf 32 fn
  | .teardownFinish fn => oneOf 32 fn
  | .gussetVoltageEval => true
  | .pmbusReadback mv _ => fits 2 mv
  | .pmbusHoldoffEnd => true
  | .pmbusAlert => true
  | .thermalSample _ => true
  | .ringOscSample site _ _ => oneOf 64 site
  | .sramVminTest _ => true
  | .serdesAdaptStep lane _ => oneOf 96 lane
  | .dramWindowCheck channel _ _ => oneOf 6 channel
  | .tcamMarginTest sleeve bank _ => oneOf 7 sleeve && oneOf 16 bank
  | .flashOpCheck code => oneOf 4096 code
  | .flashDeferRecheck code => oneOf 4096 code
  | .flashOpComplete => true
  | .flashWriteDeadline => true
  | .powerFailAssert code => oneOf 4096 code
  | .powerFailDeassert => true
  | .postmortemBufferRefresh => true
  | .historyAppend kind => fits 1 kind
  | .islandPowerOnReset => true
  | .perstRelease _ => true
  | .perstAssert => true
  | .railFault => true
  | .romImageSelect _ => true
  | .firmwareStart => true
  | .firmwareReady => true
  | .sleevesEnable => true
  | .ejectRequest => true
  | .ejectCancel => true
  | .ejectGraceExpiry => true
  | .ejectReady => true
  | .fwStoreComplete _ => true
  | .fwSwitchLoaded => true
  | .fwSwitchResume => true
  | .fwSwitchTimeout => true
  | .patchRollSleeveDone _ => true
  | .svcOutOfServiceDone => true
  | .svcDeadline => true
  | .svcTestDone _ => true
  | .coreHandoverDone => true
  | .refclkStop => true
  | .srdRefclkLoss bank => oneOf 6 bank
  | .smbusSampleUpdate => true
  | .smbusTj => true
  | .smbusStage => true
  | .smbusFlags => true
  | .smbusCoreMv => true
  | .smbusEom => true
  | .smbusSensors => true
  | .smbusAlertResponse => true
  | .smbusWriteNack => true
  | .jtagInstruction _ => true
  | .slotShareSet h r => h.wf && r.wf
  | .slotStatusGet h sleeve => h.wf && fits 1 sleeve
  | .ptpPortSet h r => h.wf && r.wf
  | .timeStatusGet h => h.wf
  | .timeIoSet h r => h.wf && r.wf
  | .timeAdjust h r => h.wf && r.wf
  | .hemCountersGet h => h.wf
  | .cuffAttach h r => h.wf && r.wf
  | .portConfigSet h r => h.wf && r.wf
  | .portStatusGet h port => h.wf && fits 1 port
  | .macStatsGet h port => h.wf && fits 1 port
  | .parsePortSet h r => h.wf && r.wf
  | .patternSet h r => h.wf && r.wf
  | .patternClear h index => h.wf && fits 2 index
  | .fragConfigSet h r => h.wf && r.wf
  | .parseStatsGet h kind unit tenancy => h.wf && fits 1 kind && fits 2 unit && fits 1 tenancy
  | .flowProfileSet h r => h.wf && r.wf
  | .flowAdd h r => h.wf && r.wf
  | .flowDel h r => h.wf && r.wf
  | .flowRead h => h.wf
  | .learnPolicySet h r => h.wf && r.wf
  | .learnQuotaSet h r => h.wf && r.wf
  | .learnPortSet h r => h.wf && r.wf
  | .learnStaticSet h r => h.wf && r.wf
  | .learnFlush h r => h.wf && r.wf
  | .learnRead h sleeve => h.wf && fits 1 sleeve
  | .tableStatsGet h sleeve => h.wf && fits 1 sleeve
  | .tcamProfileSet h r => h.wf && r.wf
  | .tcamWrite h r => h.wf && r.wf
  | .tcamClear h index => h.wf && fits 2 index
  | .tcamIterate h r => h.wf && r.wf
  | .tcamThrottleSet h r => h.wf && r.wf
  | .tcamStatusGet h sleeve => h.wf && fits 1 sleeve
  | .tblCommit h deadlineMs => h.wf && fits 4 deadlineMs
  | .tblAbort h => h.wf
  | .versionStatusGet h => h.wf
  | .actTenancySet h r => h.wf && r.wf
  | .floodGroupSet h r => h.wf && r.wf
  | .mirrorSessionSet h r => h.wf && r.wf
  | .copyLimitSet h r => h.wf && r.wf
  | .actionSet h r => h.wf && r.wf
  | .actionClear h index => h.wf && fits 2 index
  | .actStatsGet h => h.wf
  | .templateSet h r => h.wf && r.wf
  | .ucodeLoad h r img => h.wf && r.wf && img.wf
  | .ucodeAccept h r => h.wf && r.wf
  | .ucodeActivate h r => h.wf && r.wf
  | .custMemWrite h r => h.wf && r.wf
  | .custMemRead h r => h.wf && r.wf
  | .ucodeStatusGet h => h.wf
  | .poolSet h r => h.wf && r.wf
  | .queueBufSet h r => h.wf && r.wf
  | .bufGlobalSet h regionMib => h.wf && fits 4 regionMib
  | .yokeStatsGet h => h.wf
  | .poolStatusGet h pool pocket => h.wf && fits 1 pool && fits 4 pocket
  | .meterBind h r => h.wf && r.wf
  | .meterUnbind h index => h.wf && fits 2 index
  | .meterTenancySet h r => h.wf && r.wf
  | .meterStatsGet h index => h.wf && fits 2 index
  | .schedPortSet h r => h.wf && r.wf
  | .schedQueueSet h r => h.wf && r.wf
  | .gateConfigSet h r => h.wf && r.wf
  | .gateEntriesSet h r => h.wf && r.wf
  | .samplerQuotaSet h r => h.wf && r.wf
  | .samplerSet h r => h.wf && r.wf
  | .sampleRead h maxRecords => h.wf && fits 2 maxRecords
  | .schedStatsGet h kind unit => h.wf && fits 1 kind && fits 1 unit
  | .gateStatusGet h port => h.wf && fits 1 port
  | .relProfileSet h r => h.wf && r.wf
  | .relProfileClear h index => h.wf && fits 2 index
  | .relTenancySet h flags => h.wf && fits 1 flags
  | .relPortSet h port calLimit => h.wf && fits 1 port && fits 4 calLimit
  | .relStatsGet h kind unit => h.wf && fits 1 kind && fits 2 unit
  | .relProfileRead h index => h.wf && fits 2 index
  | .macsecPortSet h r => h.wf && r.wf
  | .macsecScSet h r => h.wf && r.wf
  | .macsecTxAnSet h sc an => h.wf && fits 2 sc && fits 1 an
  | .keyLoad h r => h.wf && r.wf
  | .keyErase h r => h.wf && r.wf
  | .macsecSaStatusGet h slot => h.wf && fits 2 slot
  | .bulkOpen h r => h.wf && r.wf
  | .bulkSegment h r => h.wf && r.wf
  | .bulkClose h message => h.wf && fits 4 message
  | .bulkConfigSet h quota => h.wf && quota.length == 16 && quota.all (fits 2)
  | .macsecStatsGet h port => h.wf && fits 1 port
  | .bulkStatsGet h => h.wf
  | .dramConfigSet h r => h.wf && r.wf
  | .dramChannelSet h r => h.wf && r.wf
  | .dramStatusGet h => h.wf
  | .recStoreSet h r => h.wf && r.wf
  | .recArm h r => h.wf && r.wf
  | .recTrigger h => h.wf
  | .recStop h => h.wf
  | .recClear h => h.wf
  | .recExport h r => h.wf && r.wf
  | .recStatusGet h => h.wf
  | .replayRun h r => h.wf && r.wf
  | .replayAbort h sleeve => h.wf && fits 1 sleeve
  | .replayReportRead h maxEntries => h.wf && fits 2 maxEntries
  | .portTenancySet h r => h.wf && r.wf
  | .resAssign h r => h.wf && r.wf
  | .resStatusGet h kind => h.wf && fits 1 kind
  | .ownerKeySet h key _ => h.wf && fits 48 key
  | .tenantEnrol h r => h.wf && r.wf
  | .rollbackAdvance h target => h.wf && fits 1 target
  | .attestGet h nonce => h.wf && fits 16 nonce
  | .debugNonceGet h => h.wf
  | .debugUnlock h owner vendor => h.wf && owner.wf && vendor.wf
  | .sessionHello h hostNonce => h.wf && fits 32 hostNonce
  | .sessionOpen h r => h.wf && r.wf
  | .sessionClose h => h.wf
  | .eventMaskSet h mask => h.wf && fits 4 mask
  | .mbxStatsGet h => h.wf
  | .hostStatusGet h => h.wf
  | .gusConfigSet h r => h.wf && r.wf
  | .gusStatusGet h => h.wf
  | .gusHistoryRead h first count => h.wf && fits 4 first && fits 2 count
  | .gusPostmortemRead h slot => h.wf && fits 1 slot
  | .svcUnitSet h r => h.wf && r.wf
  | .svcTest h r => h.wf && r.wf
  | .svcStatusGet h => h.wf
  | .fwStore h r => h.wf && r.wf
  | .fwSwitch h digest => h.wf && fits 48 digest
  | .fwCommit h digest => h.wf && fits 48 digest
  | .patchRoll h digest => h.wf && fits 48 digest
  | .ejectConfigSet h r => h.wf && r.wf
  | .svcEject h op => h.wf && fits 1 op
  | .bootInfo h => h.wf
  | .bootImageLoad h len img => h.wf && fits 4 len && img.wf
  | .ucodeActivateTimeout => true
  | .dramChannelTimeout => true
  | .scrubQueueDiscard port queue => oneOf 96 port && oneOf 16 queue
  | .ejectFlashAbandon => true

end Sys2Proof
end

