-- ==== Sys2Proof/Tests/Base.lean ====
section
/-! SUPPORT. The small states that the tests stand on: a ready device with an owner's, a maintenance and a tenant's
session. -/

namespace Sys2Proof.Tests

set_option Elab.async false

open Sys2Proof Sys2Proof.Machine

/-- A session of role `r` for tenancy `t`. -/
def sess (r : Role) (t n : Nat) : Session := { Session.zero with role := r, tenancy := t, serial := n }

/-- The owner's session, on PF0. -/
def own : Session := sess .owner 0 1

/-- The maintenance session, on PF1. -/
def mnt : Session := sess .maint 0 2

/-- Tenancy 3's session, on VF0. -/
def ten : Session := sess .tenant 3 3

/-- An enabled ring of 2^14 slots. -/
def ring : Ring := { Ring.reset with enabled := true, size := 14 }

/-- A mailbox with enabled rings, 100 request slots read, and `x` as its session 1. -/
def box (x : Session) : Mailbox :=
  { Mailbox.reset with req := { ring with tail := 100 }, rsp := ring, rx := ring, fetched := 100, zeroOpen := true,
                       sealed := ⟨[(1, x)]⟩ }

/-- The mailboxes of PF0, PF1 and VF0. -/
def boxes : MbxState := { MbxState.reset with fwReady := true, opens := 3, fns := ⟨[(0, box own), (1, box mnt), (2, box ten)]⟩ }

/-- A function that may issue requests. -/
def live : EndFn := { EndFn.reset with busMaster := true, msixMasked := [] }

/-- The endpoint with its link up and one virtual function. -/
def ends : HostState :=
  { HostState.reset with linkUp := true, speed := 5, width := 8, vfEnable := true, numVfs := 1, configOpen := true,
                         fns := ⟨[(0, live), (1, live), (2, live)]⟩ }

/-- Unit 0 of every kind is tenancy 3's, unit 1 the owner's (of the flow blocks tenancy 3's too), with epoch 5. -/
def units : Tab ResUnit :=
  ⟨(List.range 15).flatMap fun k =>
    [(unitKey k 0, { tenancy := some 3, epoch := 5, scrubbing := false }),
     (unitKey k 1, { tenancy := some (if k = 2 then 3 else 0), epoch := 5, scrubbing := false })]⟩

/-- The device: ready, 100 s after reset. -/
def base : Dev :=
  { Dev.reset with
    now := 300000000000, mbx := boxes, host := ends,
    boot := { BootState.reset with stage := 3, ready := true },
    ten := { TenState.reset with units := units, counter := 6 } }

/-- A state of device `d` with nothing waiting. -/
def at' (d : Dev) : State := { dev := d, pending := [] }

/-- A sealed request of `n` bytes on PF0. -/
def ask (n : Nat) : Hdr :=
  { fn := 0, session := 1, tenancy := 0, flags := 2, epoch := 5, seq := 1, length := n, sealOk := true, boot := false }

/-- The same on PF1 and VF0. -/
def askM (n : Nat) : Hdr := { ask n with fn := 1 }
def askT (n : Nat) : Hdr := { ask n with fn := 2, tenancy := 3 }

/-- Tenancy 3's receive pool 2 with 2,000 free Pockets; Pocket 7 of it is held by Sleeve 0's cache. -/
def pools : YokeState :=
  { YokeState.reset with
    pools := ⟨[(2, { Pool.reset with tenancy := 3, epoch := 5, size := 2001, total := 2001, free := [(100, 2000)] })]⟩
    rxPool := ⟨[(3, 2)]⟩
    pockets := ⟨[(7, { Pocket.reset with allocated := true, pool := 2, served := some 3 })]⟩ }

/-- The device with this Yoke. -/
def withYoke (y : YokeState) (d : Dev) : Dev := { d with yoke := y }

/-- What holds of the value that an option has holds of every value it has. -/
theorem opt_all {α : Type} {P : α → Prop} {a : α} (h : P a) : ∀ t, some a = some t → P t := fun _ e => Option.some.inj e ▸ h

/-- A message in progress of the owner's session. -/
def tok : Machine.Token :=
  { fn := 0, session := 1, tenancy := 0, seq := 1, code := 0, isAsync := false, reserve := 0, boot := false, serial := 1 }

/-- The bytes of a frame of 60 bytes without its frame check sequence: addresses, an experimental Ethertype, zeros. -/
def plainBytes : List Nat := [2, 0, 0, 0, 0, 1, 2, 0, 0, 0, 0, 2, 0x88, 0xB5] ++ List.replicate 46 0

/-- A whole frame of tenancy 3, received on port 0 and stored in Pocket 7, that waits for its slot. -/
def pkt : Frame :=
  { origin := .cuff, port := 0, sleeve := 0, bytes := plainBytes, len := 64, start := 299999999000, sof := 299999999100,
    stamp := .zero, ptp := .reset, maxFrame := 1518, deep := false, slice := 64, tenancy := some 3, pool := 2,
    pockets := [7], refs := 0, noMore := false, ended := true, bad := false, truncated := false, map := .reset,
    macsecHeld := false, wireEnd := none, verified := false, rxMac := macsecPortReset 0, rxSc := none, sa := none,
    macsecSaved := 0, offered := none, rxDrop := 0, urgent := false, phase := .slot, pass := 0, ctx := 0, side := 0,
    desc := 0, note := .none, first := none, fragIndex := none, stored := 0, fragWaits := none, members := [],
    appliedRec := false, rel := none, learn := none, cont := false, place := false, seam := .none, copies := [],
    flowKey := none, meterCtx := none, seq := 0 }

/-- Port 0 up. -/
def upPort : Port :=
  let cfg : PortConfigRec := { portCfgReset 0 with mode := 1 }
  { Port.reset 0 with cfg := cfg, rxCfg := cfg, txCfg := cfg, link := .up }

/-- The device with these ports, and this frame as packet 9. -/
def withPort (p : Port) (d : Dev) : Dev := { d with ports := { d.ports with ports := ⟨[(0, p)]⟩ } }
def withFrame (f : Frame) (d : Dev) : Dev := { d with ports := { d.ports with frames := ⟨[(9, f)]⟩ } }

/-- The device with Sleeve 0 as `x`. -/
def withSleeve (x : SleeveState) (d : Dev) : Dev := { d with arch := { sleeves := ⟨[(0, x)]⟩ } }

/-- Every opcode whose response fits the ring is served on a device with such a mailbox. -/
theorem served_at (d : Dev) (o : OpSpec) (h : Hdr) (x : Session) (hp : d.power = .on) (hm : d.mbox h.fn = box x)
    (hf : d.served h.fn = true) (hr : d.boot.ready = true) (hl : o.lenOk h.length = true) (hn : h.length ≤ 6000)
    (hb : o.maxBody ≤ 16384) (h0 : h.boot = false) (h1 : h.session = 1) (h2 : h.flags = 2) (h3 : h.seq = 1)
    (h4 : h.sealOk = true) (h5 : h.tenancy = x.tenancy) (h6 : x.highest = 0) (h7 : x.role = .maint → o.changes = false) :
    (at' d).Serves o h x where
  power := hp
  rom := by simp [Dev.romHolds, h0]
  first := .inr (by simp [at', hm, box, Mailbox.reset])
  start := by
    have hq : reqSlots h ≤ 100 := by
      simp only [reqSlots, slotsOf, ceilDiv]; split <;> omega
    have hk : slotsOf o.maxBody true ≤ 258 := by
      simp only [slotsOf, ceilDiv, ↓reduceIte]; omega
    have hk2 : (if o.canAsync = true then slotsOf 0 true else 0) ≤ 1 := by
      split <;> simp [slotsOf, ceilDiv]
    have ha : (box x).available = 100 :=
      show (100 + 2 ^ 32 - 0) % 2 ^ 32 = 100 by decide
    have hroom : (box x).rsp.room = 16384 :=
      show 2 ^ 14 - (0 + 2 ^ 32 - 0) % 2 ^ 32 = 16384 by decide
    have hz : (box x).reserved = 0 := rfl
    simp only [Dev.canStart, at', h0, hm, hf, Bool.false_eq_true, ↓reduceIte, ha, hroom, hz]
    simp only [box, ring, Mailbox.reset, Ring.reset, Bool.not_false, Bool.and_true, Option.isNone_none, Bool.true_and]
    simp only [Bool.and_eq_true, Bool.or_eq_true, decide_eq_true_eq]
    exact ⟨.inr hq, by omega⟩
  framed := by
    have hq : reqSlots h ≤ 100 := by
      simp only [reqSlots, slotsOf, ceilDiv]; split <;> omega
    refine .inr ?_
    simp only [at', hm, misframed, Bool.or_eq_false_iff, decide_eq_false_iff_not]
    refine ⟨by omega, ?_⟩
    simp only [box, ring, Ring.reset]; omega
  envelope := by
    have hs : d.session h.fn h.session = some x := by simp only [Dev.session, hm, h1]; rfl
    have hb1 : (2 : Nat).testBit 1 = true := by decide
    unfold envelope
    show (match d.session h.fn h.session with | none => _ | some s => _) = none
    rw [hs]
    simp [h1, h2, h3, h4, h5, h6, hl, Session.accepts, hb1]
  session := by simp only [Dev.session, at', hm, h1]; rfl
  permitted := h7
  ready := .inr hr
  place := by intros; simp [at', hm, box, Mailbox.reset]

theorem served_own (d : Dev) (o : OpSpec) (n : Nat) (hp : d.power = .on) (hm : d.mbx = boxes)
    (hs : d.boot.switching = none) (hr : d.boot.ready = true) (hl : o.lenOk n = true) (hn : n ≤ 6000)
    (hb : o.maxBody ≤ 16384) : (at' d).Serves o (ask n) own :=
  served_at d o (ask n) own hp (by rw [Dev.mbox, hm]; rfl) (by simp only [Dev.served, Dev.coreUp, hm, hs]; rfl) hr hl hn hb
    rfl rfl rfl rfl rfl rfl rfl (fun h => nomatch h)

theorem served_ten (d : Dev) (o : OpSpec) (n : Nat) (hp : d.power = .on) (hm : d.mbx = boxes)
    (hs : d.boot.switching = none) (hr : d.boot.ready = true) (hl : o.lenOk n = true) (hn : n ≤ 6000)
    (hb : o.maxBody ≤ 16384) : (at' d).Serves o (askT n) ten :=
  served_at d o (askT n) ten hp (by rw [Dev.mbox, hm]; rfl) (by simp only [Dev.served, Dev.coreUp, hm, hs]; rfl) hr hl hn hb
    rfl rfl rfl rfl rfl rfl rfl (fun h => nomatch h)

theorem served_mnt (d : Dev) (o : OpSpec) (n : Nat) (hp : d.power = .on) (hm : d.mbx = boxes)
    (hs : d.boot.switching = none) (hr : d.boot.ready = true) (hl : o.lenOk n = true) (hc : o.changes = false)
    (hn : n ≤ 6000) (hb : o.maxBody ≤ 16384) : (at' d).Serves o (askM n) mnt :=
  served_at d o (askM n) mnt hp (by rw [Dev.mbox, hm]; rfl) (by simp only [Dev.served, Dev.coreUp, hm, hs]; rfl) hr hl hn hb
    rfl rfl rfl rfl rfl rfl rfl (fun _ => hc)

/-- A request of `n` bytes on session 0 of PF0. -/
def askZero (n : Nat) : Hdr := { ask n with session := 0, flags := 0, sealOk := false }

theorem served_hello (d : Dev) (o : OpSpec) (n : Nat) (e : Option Hello) (hp : d.power = .on)
    (hbx : d.mbox 0 = { box own with hello := e }) (hf : d.served 0 = true) (hr : d.boot.ready = true) (hl : o.lenOk n = true) (hn : n ≤ 6000)
    (hb : o.maxBody ≤ 16384) (hz : o.sealedOnly = false) : (at' d).Serves o (askZero n) Session.zero where
  power := hp
  rom := by simp [Dev.romHolds, askZero, ask]
  first := .inr (by simp only [at', askZero, ask, hbx]; rfl)
  start := by
    have hq : reqSlots (askZero n) ≤ 100 := by
      simp [reqSlots, slotsOf, ceilDiv, askZero, ask]; omega
    have hk : slotsOf o.maxBody true ≤ 258 := by
      simp only [slotsOf, ceilDiv, ↓reduceIte]; omega
    have hk2 : (if o.canAsync = true then slotsOf 0 true else 0) ≤ 1 := by
      split <;> simp [slotsOf, ceilDiv]
    have ha : ({ box own with hello := e } : Mailbox).available = 100 :=
      show (100 + 2 ^ 32 - 0) % 2 ^ 32 = 100 by decide
    have hroom : ({ box own with hello := e } : Mailbox).rsp.room = 16384 :=
      show 2 ^ 14 - (0 + 2 ^ 32 - 0) % 2 ^ 32 = 16384 by decide
    have hzr : ({ box own with hello := e } : Mailbox).reserved = 0 := rfl
    simp only [Dev.canStart, at', askZero, ask, hbx, hf, Bool.false_eq_true, ↓reduceIte, ha, hroom, hzr] at hq ⊢
    simp only [box, ring, Mailbox.reset, Ring.reset, Bool.not_false, Bool.and_true, Option.isNone_none, Bool.true_and]
    simp only [Bool.and_eq_true, Bool.or_eq_true, decide_eq_true_eq]
    exact ⟨.inr hq, by omega⟩
  framed := by
    have hq : reqSlots (askZero n) ≤ 100 := by
      simp [reqSlots, slotsOf, ceilDiv, askZero, ask]; omega
    refine .inr ?_
    simp only [at', askZero, ask, hbx, misframed, Bool.or_eq_false_iff, decide_eq_false_iff_not] at hq ⊢
    refine ⟨?_, ?_⟩
    · exact decide_eq_false (by omega)
    · exact Nat.not_lt.mpr (Nat.le_trans hq (show 100 ≤ 2 ^ 14 by decide))
  envelope := by
    have hx : d.session 0 0 = some Session.zero := by simp only [Dev.session, hbx]; rfl
    unfold envelope
    show (match d.session 0 0 with | none => _ | some s => _) = none
    rw [hx]
    simp [askZero, ask, hl, hz, Session.accepts, Session.zero]
  session := by
    simp only [Dev.session, at', askZero, ask, hbx]; rfl
  permitted := fun h => nomatch h
  ready := .inr hr
  place := by
    intros; simp [at', askZero, ask, hbx, box, Mailbox.reset]

theorem served_zero (d : Dev) (o : OpSpec) (n : Nat) (hp : d.power = .on) (hm : d.mbx = boxes)
    (hs : d.boot.switching = none) (hr : d.boot.ready = true) (hl : o.lenOk n = true) (hn : n ≤ 6000)
    (hb : o.maxBody ≤ 16384) (hz : o.sealedOnly = false) : (at' d).Serves o (askZero n) Session.zero :=
  served_hello d o n none hp (by rw [Dev.mbox, hm]; rfl) (by simp only [Dev.served, Dev.coreUp, hm, hs]; rfl) hr hl hn hb hz

/-- The three rings are heard. -/
theorem hears_fn (d : Dev) (h : Hdr) (h0 : h.boot = false) (hf : h.fn ≤ 2) (hm : d.mbx = boxes) (hh : d.host = ends) :
    (at' d).Hears h where
  ring := h0
  write := by
    simp only [Dev.canWrite, Dev.mbox, Dev.fend, at', hm, hh]
    rcases h with ⟨fn, _, _, _, _, _, _, _, _⟩
    simp only at hf ⊢
    match fn, hf with
    | 0, _ => rfl
    | 1, _ => rfl
    | 2, _ => rfl

end Sys2Proof.Tests
end

