-- ==== Sys2Proof/Tests/Actions.lean ====
section
/-! SUPPORT. For every clause of the statements about Actions, a state and operands that meet its hypotheses. -/

namespace Sys2Proof.Tests.Actions

set_option Elab.async false

open Sys2Proof Sys2Proof.Machine

/-- The action record of tenancy 3 at its index 0: forward to queue 0 of port 0. -/
def actRec : ActionRec :=
  { index := 0, disposition := 1, port := 0, queue := 0, queueSel := 0, floodGroup := 0, copy := false, copyCollar := false, collarQueue := 0, copyLen := 0, mirror := false, mirrorSession := 0, ttlCopy := false, dropReason := 0, rewrite := List.replicate 8 0 }
def actDev (r : ActionRec) : Dev := { base with vers := { VersState.reset with actions := ⟨[(0, { data := r, live := 1 })]⟩ } }
/-- Frame 9 with a flow hit on that record, before and after it is applied. -/
def hitCtx : BitVec 512 := putAll 0 [(fTenancy, 3), (fFlowHit, 1)]
def before7 : Frame := { pkt with phase := .action, ctx := hitCtx }
def after7 (ph : Phase) (disp : Nat) : Frame :=
  { pkt with phase := ph, ctx := hitCtx, appliedRec := true, desc := putAll 0 [(dDisp, disp)] }
def bridged : Frame := { after7 .forward 5 with ctx := putAll hitCtx [(fDstHit, 1), (fDstPort, 0)] }
/-- A flood group of port 0. -/
def group7 : FloodGroupRec := { group := 63, queue := 0, ports := 1, bdFirst := 4095, bdCount := 1 }
def floodDev : Dev :=
  { base with vers := { VersState.reset with
      actions := ⟨[(0, { data := { actRec with disposition := 2, floodGroup := 63 }, live := 1 })]⟩, groups := ⟨[(63, group7)]⟩ } }
/-- An IPv4 packet with a TTL of 1, and a record that decrements it. -/
def ttlOne : Frame :=
  { after7 .ttl 1 with bytes := plainBytes.take 12 ++ [8, 0, 0x45] ++ List.replicate 7 0 ++ [1] ++ List.replicate 37 0, ctx := putAll hitCtx [(fL3Type, 1), (fL3Off, 14)] }
def ttlRec : ActionRec := { actRec with rewrite := 7 * 2 ^ 20 :: List.replicate 7 0 }
/-- The device with other version slots, commits and staged changes. -/
def slotTab (a b c d : SlotState) : Tab VersionSlot :=
  ⟨[(0, { state := a, epoch := 16383 }), (1, { state := b, epoch := 3 }), (2, { state := c, epoch := 2 }), (3, { state := d, epoch := 1 })]⟩
def versDev (v : VersState) : Dev := { base with vers := v }
def staged7 : Staged := { tenancy := 3, change := .actionAdd 0 actRec, units := [(5, 0, 5)], entries := 1 }
def commit7 (n : Nat) : Commit := { id := 4, token := none, tenancy := 3, changes := [staged7], step := n, deadline := some 299999999999, scrub := none }
def commitDev (n : Nat) : Dev :=
  versDev { VersState.reset with slots := slotTab .current .prepared .free .draining, commits := [commit7 n] }

theorem meets_actionSelect : ∃ (fid a ref : Nat) (r : ActionRec) (f : Frame) (s : State), s.Plain fid f .action ∧
    f.note.ptpTrap = false ∧
    stopsMalformed s.dev f = false ∧
    fld f.ctx fFragState = 0 ∧
    lookupRef s.dev f = some ref ∧
    s.dev.actionAt (fld f.ctx fTenancy) (fld f.ctx fVersion) (ref % 65536) = some (a, r) :=
  ⟨9, 0, 0, actRec, before7, at' (withFrame before7 (actDev actRec)), ⟨rfl, rfl, rfl, rfl, rfl, fun _ => rfl⟩,
    by decide +kernel, by decide +kernel, by decide +kernel, by decide +kernel, by decide +kernel⟩

theorem meets_actionSelect_2 : ∃ (fid : Nat) (f : Frame) (s : State), s.Plain fid f .action ∧
    f.note.ptpTrap = false ∧
    stopsMalformed s.dev f = false ∧
    fld f.ctx fFragState = 0 ∧
    lookupRef s.dev f = none :=
  ⟨9, { before7 with ctx := putAll 0 [(fTenancy, 3)] },
    at' (withFrame { before7 with ctx := putAll 0 [(fTenancy, 3)] } base), ⟨rfl, rfl, rfl, rfl, rfl, fun _ => rfl⟩,
    by decide +kernel, by decide +kernel, by decide +kernel, by decide +kernel⟩

theorem meets_forwardResolve : ∃ (fid : Nat) (r : ActionRec) (f : Frame) (s : State), s.Plain fid f .forward ∧
    fld f.desc dDisp = dispForward ∧
    s.dev.applied f = some r ∧
    flag f.ctx fColourQueue = false ∧
    r.queueSel = 0 ∧
    s.dev.holdsQueue (fld f.ctx fTenancy) r.port r.queue = true :=
  ⟨9, actRec, after7 .forward 1, at' (withFrame (after7 .forward 1) (actDev actRec)),
    ⟨rfl, rfl, rfl, rfl, rfl, fun _ => rfl⟩, by decide +kernel, by decide +kernel, by decide +kernel,
    by decide +kernel, by decide +kernel⟩

theorem meets_forwardResolve_2 : ∃ (fid : Nat) (f : Frame) (s : State), s.Plain fid f .forward ∧
    fld f.desc dDisp = dispBridge ∧
    flag f.ctx fDstHit = true ∧
    pflag f.ctx 13 = false ∧
    pflag f.ctx 14 = false ∧
    fld f.ctx fDstPort = f.port :=
  ⟨9, bridged, at' (withFrame bridged (actDev actRec)), ⟨rfl, rfl, rfl, rfl, rfl, fun _ => rfl⟩, by decide +kernel,
    by decide +kernel, by decide +kernel, by decide +kernel, by decide +kernel⟩

theorem meets_forwardResolve_3 : ∃ (fid : Nat) (r : ActionRec) (g : FloodGroupRec) (f : Frame) (s : State), s.Plain fid f .forward ∧
    fld f.desc dDisp = dispFlood ∧
    s.dev.applied f = some r ∧
    s.dev.floodGroup (fld f.ctx fTenancy) r.floodGroup = some g ∧
    floodMembers s.dev (fld f.ctx fTenancy) f.port g ≠ [] :=
  ⟨9, { actRec with disposition := 2, floodGroup := 63 }, group7, { after7 .forward 2 with port := 4 },
    at' (withFrame { after7 .forward 2 with port := 4 } floodDev), ⟨rfl, rfl, rfl, rfl, rfl, fun _ => rfl⟩,
    by decide +kernel, by decide +kernel, by decide +kernel, by decide +kernel⟩

theorem meets_ttlCopyMirror : ∃ (fid : Nat) (r : ActionRec) (f : Frame) (s : State), s.Plain fid f .ttl ∧
    s.dev.applied f = some r ∧
    fld f.desc dDisp ≠ dispDrop ∧
    (s.dev.rewrite f r.rewrite).expired = true ∧
    f.place = false :=
  ⟨9, ttlRec, ttlOne, at' (withFrame ttlOne (actDev ttlRec)), ⟨rfl, rfl, rfl, rfl, rfl, fun _ => rfl⟩,
    by decide +kernel, by decide +kernel, by decide +kernel, by decide +kernel⟩

theorem meets_ttlCopyMirror_2 : ∃ (fid : Nat) (r : ActionRec) (f : Frame) (s : State), s.Plain fid f .ttl ∧
    s.dev.applied f = some r ∧
    (s.dev.rewrite f r.rewrite).expired = false :=
  ⟨9, actRec, after7 .ttl 1, at' (withFrame (after7 .ttl 1) (actDev actRec)),
    ⟨rfl, rfl, rfl, rfl, rfl, fun _ => rfl⟩, by decide +kernel, by decide +kernel⟩

theorem meets_rewriteCompile : ∃ (fid : Nat) (r : ActionRec) (f : Frame) (s : State), s.Plain fid f .rewrite ∧
    s.dev.applied f = some r ∧
    flag f.ctx fDscpRemark = false ∧
    flag f.ctx fPcpRemark = false :=
  ⟨9, actRec, after7 .rewrite 1, at' (withFrame (after7 .rewrite 1) (actDev actRec)),
    ⟨rfl, rfl, rfl, rfl, rfl, fun _ => rfl⟩, by decide +kernel, by decide +kernel, by decide +kernel⟩

theorem meets_slotDrainComplete : ∃ (v : Nat) (s : State), s.On ∧
    (s.dev.vslot v).state = .draining ∧
    (∀ k, k < 7 → s.dev.inflight v k = 0) :=
  ⟨3, at' (commitDev 2), rfl, by decide +kernel, by decide +kernel⟩

theorem meets_preparationStart : ∃ (v : Nat) (s : State), s.On ∧
    v < 4 ∧
    (s.dev.vslot v).state = .free ∧
    (∀ w, w < v → (s.dev.vslot w).state ≠ .free) ∧
    (∀ w, w < 4 → (s.dev.vslot w).state ≠ .preparing ∧ (s.dev.vslot w).state ≠ .prepared) :=
  ⟨2, at' (versDev { VersState.reset with slots := slotTab .current .draining .free .free }), rfl, by decide +kernel,
    by decide +kernel, by decide +kernel, by decide +kernel⟩

theorem meets_preparationComplete : ∃ (v : Nat) (s : State), s.On ∧
    v < 4 ∧
    (s.dev.vslot v).state = .preparing ∧
    (∀ w, w < v → (s.dev.vslot w).state ≠ .preparing) :=
  ⟨3, at' (versDev { VersState.reset with slots := slotTab .current .draining .free .preparing }), rfl,
    by decide +kernel, by decide +kernel, by decide +kernel⟩

theorem meets_commitSlotReady : ∃ (v : Nat) (c : Commit) (cs : List Commit) (s : State), s.On ∧
    s.dev.vers.commits = c :: cs ∧
    c.step = 2 ∧
    c.scrub = none ∧
    s.dev.preparedSlot = some v ∧
    (∀ x ∈ c.changes, s.dev.isStale x = false) ∧
    (∀ x ∈ cs, x.id ≠ c.id) :=
  ⟨1, commit7 2, [], at' (commitDev 2), rfl, by decide +kernel, by decide +kernel, by decide +kernel,
    by decide +kernel, by decide +kernel, by decide +kernel⟩

theorem meets_commitDeadline : ∃ (i t : Nat) (c : Commit) (s : State), s.On ∧
    s.dev.vers.commits.find? (fun c => c.id = i) = some c ∧
    c.deadline = some t ∧
    c.step = 2 ∧
    t ≤ s.dev.now ∧
    c.token = none :=
  ⟨4, 299999999999, commit7 2, at' (commitDev 2), rfl, by decide +kernel, by decide +kernel, by decide +kernel,
    by decide +kernel, by decide +kernel⟩

theorem meets_journalWriteDone : ∃ (_ok : Bool) (v : Nat) (c : Commit) (cs : List Commit) (s : State), s.On ∧
    s.dev.vers.commits = c :: cs ∧
    c.step = 3 ∧
    s.dev.preparedSlot = some v :=
  ⟨false, 1, commit7 3, [], at' (commitDev 3), rfl, by decide +kernel, by decide +kernel, by decide +kernel⟩

theorem meets_commitCycle : ∃ (v : Nat) (c : Commit) (cs : List Commit) (s : State), s.On ∧
    s.dev.vers.commits = c :: cs ∧
    c.step = 4 ∧
    s.dev.preparedSlot = some v ∧
    v ≠ s.dev.current ∧
    s.dev.ten.moves = [] ∧
    c.token = none :=
  ⟨1, commit7 4, [], at' (commitDev 4), rfl, by decide +kernel, by decide +kernel, by decide +kernel,
    by decide +kernel, by decide +kernel, by decide +kernel⟩

theorem meets_tblCommit : ∃ (h : Hdr) (ms : Nat) (s : State) (x : Session), s.Serves { code := 0x0701, lenOk := exactly 4, maxBody := 24, canAsync := true, early := false } h x ∧
    s.dev.ejecting = false ∧
    1 ≤ ms ∧
    ms ≤ 10000 ∧
    (∀ c ∈ s.dev.vers.staged, c.tenancy = x.tenancy → s.dev.isStale c = false) ∧
    (∃ c ∈ s.dev.vers.staged, c.tenancy = x.tenancy) :=
  ⟨askT 4, 10000, at' (versDev { VersState.reset with staged := [staged7] }), ten,
    served_ten _ _ _ rfl rfl rfl rfl rfl (by decide) (by decide), by decide +kernel, by decide +kernel,
    by decide +kernel, by decide +kernel, by decide +kernel⟩

theorem meets_tblCommit_2 : ∃ (h : Hdr) (ms : Nat) (s : State) (x : Session), s.Serves { code := 0x0701, lenOk := exactly 4, maxBody := 24, canAsync := true, early := false } h x ∧
    s.Hears h ∧
    h.flags.testBit 0 = false ∧
    s.dev.ejecting = false ∧
    1 ≤ ms ∧
    ms ≤ 10000 ∧
    (∀ c ∈ s.dev.vers.staged, c.tenancy ≠ x.tenancy) :=
  ⟨askT 4, 1, at' (versDev { VersState.reset with staged := [{ staged7 with tenancy := 0 }] }), ten,
    served_ten _ _ _ rfl rfl rfl rfl rfl (by decide) (by decide), hears_fn _ _ rfl (by decide) rfl rfl,
    by decide +kernel, by decide +kernel, by decide +kernel, by decide +kernel, by decide +kernel⟩

theorem meets_tblAbort : ∃ (h : Hdr) (s : State) (x : Session), s.Serves { code := 0x0702, lenOk := exactly 0, maxBody := 0 } h x ∧
    s.Hears h :=
  ⟨askT 0, at' (versDev { VersState.reset with staged := [staged7] }), ten,
    served_ten _ _ _ rfl rfl rfl rfl rfl (by decide) (by decide), hears_fn _ _ rfl (by decide) rfl rfl⟩

theorem meets_versionStatusGet : ∃ (h : Hdr) (s : State) (x : Session), s.Serves { code := 0x0703, lenOk := exactly 0, maxBody := 256, changes := false } h x ∧
    s.Hears h ∧
    x.role ≠ .owner :=
  ⟨askT 0, at' (commitDev 2), ten, served_ten _ _ _ rfl rfl rfl rfl rfl (by decide) (by decide),
    hears_fn _ _ rfl (by decide) rfl rfl, by decide +kernel⟩

theorem meets_actTenancySet : ∃ (h : Hdr) (r : ActTenancyRec) (s : State) (x : Session), s.Serves { code := 0x0704, lenOk := exactly 12, maxBody := 0 } h x ∧
    s.Hears h ∧
    firstFail (actTenancyChecks (x.sends h) s.dev r) = none :=
  ⟨askT 12, { precedence := 1, flags := 1, missRef := 4095, pcpMap := 4294967295 }, at' base, ten,
    served_ten _ _ _ rfl rfl rfl rfl rfl (by decide) (by decide), hears_fn _ _ rfl (by decide) rfl rfl,
    by decide +kernel⟩

theorem meets_floodGroupSet : ∃ (h : Hdr) (r : FloodGroupRec) (a : Nat) (s : State) (x : Session), s.Serves { code := 0x0705, lenOk := exactly 20, maxBody := 0 } h x ∧
    s.Hears h ∧
    firstFail (floodGroupChecks (x.sends h) s.dev r) = none ∧
    s.dev.absIndex x.tenancy 9 64 r.group = some a :=
  ⟨askT 20, group7, 63, at' base, ten, served_ten _ _ _ rfl rfl rfl rfl rfl (by decide) (by decide),
    hears_fn _ _ rfl (by decide) rfl rfl, by decide +kernel, by decide +kernel⟩

theorem meets_mirrorSessionSet : ∃ (h : Hdr) (r : MirrorSessionRec) (s : State) (x : Session), s.Serves { code := 0x0706, lenOk := exactly 16, maxBody := 0 } h x ∧
    s.Hears h ∧
    firstFail (mirrorSessionChecks (x.sends h) s.dev r) = none :=
  ⟨askT 16,
    { session := 15, target := 1, port := 0, queue := 0, sourcePort := 255, sourceDir := 0, trunc := 144, rateMbps := 100000, burst := 1048576 },
    at' (versDev { VersState.reset with limits := ⟨[(3, { copyLimitReset 3 with sessions := 16, mirrorMaxMbps := 100000 })]⟩ }),
    ten, served_ten _ _ _ rfl rfl rfl rfl rfl (by decide) (by decide), hears_fn _ _ rfl (by decide) rfl rfl,
    by decide +kernel⟩

theorem meets_copyLimitSet : ∃ (h : Hdr) (r : CopyLimitRec) (s : State) (x : Session), s.Serves { code := 0x0707, lenOk := exactly 12, maxBody := 0 } h x ∧
    s.Hears h ∧
    x.role = .owner ∧
    r.tenancy ≤ 15 ∧
    r.sessions ≤ 16 ∧
    1 ≤ r.burst ∧
    r.burst ≤ 4096 ∧
    r.ratePps ≤ 1000000 ∧
    r.mirrorMaxMbps ≤ 100000 :=
  ⟨ask 12, { tenancy := 15, sessions := 16, burst := 4096, ratePps := 1000000, mirrorMaxMbps := 100000 }, at' base,
    own, served_own _ _ _ rfl rfl rfl rfl rfl (by decide) (by decide), hears_fn _ _ rfl (by decide) rfl rfl,
    by decide +kernel, by decide +kernel, by decide +kernel, by decide +kernel, by decide +kernel,
    by decide +kernel, by decide +kernel⟩

theorem meets_actionSet : ∃ (h : Hdr) (r : ActionRec) (s : State) (x : Session), s.Serves { code := 0x0708, lenOk := exactly 36, maxBody := 0 } h x ∧
    s.Hears h ∧
    firstFail (actionSetChecks (x.sends h) s.dev r) = none :=
  ⟨askT 36, { actRec with index := 4095 }, at' base, ten,
    served_ten _ _ _ rfl rfl rfl rfl rfl (by decide) (by decide), hears_fn _ _ rfl (by decide) rfl rfl,
    by decide +kernel⟩

theorem meets_actionClear : ∃ (h : Hdr) (i a : Nat) (r : ActionRec) (s : State) (x : Session), s.Serves { code := 0x0709, lenOk := exactly 2, maxBody := 0 } h x ∧
    s.Hears h ∧
    firstFail (actionClearChecks (x.sends h) s.dev i) = none ∧
    s.dev.actionAt x.tenancy s.dev.current i = some (a, r) :=
  ⟨askT 2, 0, 0, actRec, at' (actDev actRec), ten, served_ten _ _ _ rfl rfl rfl rfl rfl (by decide) (by decide),
    hears_fn _ _ rfl (by decide) rfl rfl, by decide +kernel, by decide +kernel⟩

theorem meets_actStatsGet : ∃ (h : Hdr) (s : State) (x : Session), s.Serves { code := 0x070A, lenOk := exactly 0, maxBody := 2048, changes := false } h x ∧
    s.Hears h ∧
    x.role = .tenant :=
  ⟨askT 0, at' base, ten, served_ten _ _ _ rfl rfl rfl rfl rfl (by decide) (by decide),
    hears_fn _ _ rfl (by decide) rfl rfl, by decide +kernel⟩

theorem meets_templateSet : ∃ (h : Hdr) (r : TemplateRec) (a : Nat) (s : State) (x : Session), s.Serves { code := 0x070B, lenOk := exactly 68, maxBody := 0 } h x ∧
    s.Hears h ∧
    firstFail (templateChecks (x.sends h) s.dev r) = none ∧
    s.dev.absIndex x.tenancy 8 128 r.index = some a :=
  ⟨askT 68, { index := 127, len := 64, bytes := List.replicate 64 255 }, 127, at' base, ten,
    served_ten _ _ _ rfl rfl rfl rfl rfl (by decide) (by decide), hears_fn _ _ rfl (by decide) rfl rfl,
    by decide +kernel, by decide +kernel⟩

end Sys2Proof.Tests.Actions
end

