-- ==== Sys2Proof/Tests/Board.lean ====
section
/-! SUPPORT. For every clause of the statements about Board, a state and operands that meet its hypotheses. -/

namespace Sys2Proof.Tests.Board

set_option Elab.async false

open Sys2Proof Sys2Proof.Machine

/-- The device with another board interface. -/
def brd (x : BoardState) : Dev := { base with board := x }

theorem meets_refclkStop : ∃ (s : State), s.dev.power ≠ .reset :=
  ⟨at' { base with power := .shutdown }, by decide +kernel⟩

theorem meets_srdRefclkLoss : ∃ (g l : Nat) (s : State), s.On ∧
    g < 6 ∧
    16 * g ≤ l ∧
    l < 16 * g + 16 :=
  ⟨5, 95, at' base, rfl, by decide +kernel, by decide +kernel, by decide +kernel⟩

theorem meets_pmbusAlert : ∃ (s : State), s.On ∧
    s.Settled :=
  ⟨at' base, rfl, rfl⟩

theorem meets_smbusSampleUpdate : ∃ (s : State), s.On ∧
    s.Settled ∧
    s.dev.board.sampledAt + 300000 ≤ s.dev.now :=
  ⟨at' base, rfl, rfl, by decide +kernel⟩

theorem meets_smbusTj : ∃ (s : State), s.Settled ∧
    (s.dev.power = .on ∨ s.dev.power = .shutdown) :=
  ⟨at' { base with power := .shutdown }, rfl, by decide +kernel⟩

theorem meets_jtagInstruction : ∃ (_j : Jtag) (s : State), s.Settled ∧
    s.dev.power ≠ .undefined :=
  ⟨.other 9, at' { base with ten := { base.ten with lifecycle := 1 } }, rfl, by decide +kernel⟩

end Sys2Proof.Tests.Board
end

