-- ==== Sys2Proof/Tests/Cipher.lean ====
section
/-! SUPPORT. For every clause of the statements about Cipher, a state and operands that meet its hypotheses. -/

namespace Sys2Proof.Tests.Cipher

set_option Elab.async false

open Sys2Proof Sys2Proof.Machine

/-- Frame 9 of tenancy 3 in the hold buffer of port 0: a frame of 802.1X, and one under SecTAG and ICV. -/
def key : SaKey :=
  { state := .active, key := 0x1234, salt := 0, ssci := 0, pn := 7, sc := 128, an := 1, transmit := false, suite := 0, raised := false }
def lane (bs : List Nat) : Frame :=
  { pkt with bytes := bs, len := bs.length + 4, macsecHeld := true, wireEnd := some 299999999970, ended := false, rxSc := some 128, sa := some (256, key) }
def plain1X : List Nat := [2, 0, 0, 0, 0, 1, 2, 0, 0, 0, 0, 2, 0x88, 0x8E] ++ List.replicate 46 0
def sealedBytes : List Nat :=
  [2, 0, 0, 0, 0, 1, 2, 0, 0, 0, 0, 2, 136, 229, 33, 0, 0, 0, 0, 9, 0, 0, 1, 2, 3, 4, 5, 6, 136, 181, 0, 0, 0, 0, 0, 0, 0, 0, 0, 0, 0, 0, 0, 0, 0, 0, 0, 0, 0, 0, 0, 0, 0, 0, 0, 0, 0, 0, 0, 0, 0, 0, 0, 0, 0, 0, 0, 0, 0, 0, 0, 0, 0, 0, 0, 0, 188, 201, 138, 112, 206, 18, 215, 103, 183, 2, 73, 121, 49, 144, 14, 251]
def secTag : SecTag :=
  { len := 16, bad := false, an := 1, encrypted := false, pn := 9, sci := some 0x010203040506, dataLen := 48 }
def scRec (i flags : Nat) : MacsecScRec :=
  { sc := i, port := 0, flags := flags, sci := 0x010203040506, replayWindow := 2 ^ 30, pnThreshold := 0 }
def sc (i flags : Nat) (ans : Tab Nat) : Sc :=
  { data := scRec i flags, tenancy := 0, ans := ans, txAn := 0, nextAn := none }
def keyDev (c : CipherState) : Dev := { base with cipher := c }
def lanes : CipherState := { CipherState.reset with scs := ⟨[(128, sc 128 5 ⟨[(1, 256)]⟩)]⟩, keys := ⟨[(256, key)]⟩ }
def loadRec (s : Nat) : KeyLoadRec :=
  { target := 0, suite := 0, slot := s, sc := 0, an := 1, dir := 1, ssci := 0, lowestPn := 0, salt := 0, key := 0x1234 * 2 ^ 128 }
def op (i : Nat) (l : Option KeyLoadRec) (b : Bool) : KeyOp := { bulk := b, slot := i, sc := 0, load := l, token := tok }
def ownSc : Tab Sc := ⟨[(0, sc 0 3 ⟨[(1, 5)]⟩)]⟩
/-- Message 0 of tenancy 3 under bulk slot 0, and a job of it. -/
def bmsg : BulkMsg :=
  { tenancy := 3, slot := 0, mode := 0, wrapped := true, keyGen := 1, nonce := 77, dataBegun := false, ghash := 0, aadLen := 0, dataLen := 0, segment := 0 }
def seg (f : Nat) : BulkSegmentRec :=
  { message := 0, aadLen := 16, dataLen := 16, flags := f, outAddr := 4096, tag := 0, blob := { present := false, tagOk := false, segment := 0 }, input := List.range 32 }
def job (f : Nat) : BulkJob := { user := 3, token := { tok with fn := 2, tenancy := 3 }, work := .segment (seg f) }
def bulk (g : Nat) : CipherState :=
  { CipherState.reset with started := true, bootEpoch := 1, msgs := ⟨[(0, bmsg)]⟩, bulkKeys := ⟨[(0, { BulkKey.reset with loaded := true, key := 0x99, gen := g })]⟩ }

theorem meets_macsecRxVerify : ∃ (fid t : Nat) (f : Frame) (s : State), s.On ∧
    s.dev.frame fid = some f ∧
    f.macsecHeld = true ∧
    f.wireEnd = some t ∧
    f.verified = false ∧
    f.ended = false ∧
    beAt f.bytes 12 2 = 0x888E :=
  ⟨9, 299999999970, lane plain1X, at' (withFrame (lane plain1X) base), rfl, rfl, by decide +kernel,
    by decide +kernel, by decide +kernel, by decide +kernel, by decide +kernel⟩

theorem meets_macsecRxVerify_2 : ∃ (fid t sc slot : Nat) (k : SaKey) (g : SecTag) (f : Frame) (s : State), s.On ∧
    s.dev.frame fid = some f ∧
    f.macsecHeld = true ∧
    f.wireEnd = some t ∧
    f.verified = false ∧
    f.ended = false ∧
    beAt f.bytes 12 2 ≠ 0x888E ∧
    secTagOf f.bytes = some g ∧
    g.bad = false ∧
    f.rxSc = some sc ∧
    f.sa = some (slot, k) ∧
    s.dev.saKey slot = k ∧
    (let iv := s.dev.rxIv sc slot k g; ((s.dev.replayRule sc).1 = false ∨ k.pn ≤ iv.2)) ∧
    (let iv := s.dev.rxIv sc slot k g; icvOk f.bytes g (secOffset f.rxMac.flags) k iv.1 = true) :=
  ⟨9, 299999999970, 128, 256, key, secTag, lane sealedBytes, at' (withFrame (lane sealedBytes) (keyDev lanes)), rfl,
    rfl, by decide +kernel, by decide +kernel, by decide +kernel, by decide +kernel, by decide +kernel,
    by decide +kernel, by decide +kernel, by decide +kernel, by decide +kernel, by decide +kernel,
    (by exact .inr (by decide)), by decide +kernel⟩

theorem meets_macsecRxDeliver : ∃ (fid t : Nat) (f : Frame) (s : State), s.On ∧
    s.dev.frame fid = some f ∧
    f.macsecHeld = true ∧
    f.wireEnd = some t ∧
    f.verified = true ∧
    t + 30 ≤ s.dev.now :=
  ⟨9, 299999999970, { lane plainBytes with verified := true },
    at' (withFrame { lane plainBytes with verified := true } base), rfl, rfl, by decide +kernel, by decide +kernel,
    by decide +kernel, by decide +kernel⟩

theorem meets_macsecSettingEffect : ∃ (p : Nat) (s : State), s.On ∧
    p < 96 ∧
    (s.dev.port p).rxFrame = none :=
  ⟨95, at' base, rfl, by decide +kernel, by decide +kernel⟩

theorem meets_macsecSettingEffect_2 : ∃ (p : Nat) (s : State), s.On ∧
    p < 96 ∧
    (s.dev.port p).txFrame = none :=
  ⟨95, at' base, rfl, by decide +kernel, by decide +kernel⟩

theorem meets_keyTakeEffect : ∃ (slot : Nat) (o : KeyOp) (os : List KeyOp) (r : KeyLoadRec) (x : Sc) (s : State), s.On ∧
    s.dev.slotOps false slot = o :: os ∧
    o.load = some r ∧
    s.dev.sc o.sc = some x ∧
    s.dev.atBoundary x.data.port (r.dir = 1) = true ∧
    os = [] :=
  ⟨0, op 0 (some (loadRec 0)) false, [], loadRec 0, sc 0 3 .none,
    at' (keyDev { CipherState.reset with scs := ⟨[(0, sc 0 3 .none)]⟩, keyOps := [op 0 (some (loadRec 0)) false] }),
    rfl, by decide +kernel, by decide +kernel, by decide +kernel, by decide +kernel, by decide +kernel⟩

theorem meets_keyEraseComplete : ∃ (slot : Nat) (o : KeyOp) (s : State), s.On ∧
    (s.dev.saKey slot).state = .retiring ∧
    s.dev.slotInLanes slot = false ∧
    s.dev.slotOps false slot = [o] :=
  ⟨256, op 256 none false,
    at' (keyDev { lanes with keys := ⟨[(256, { key with state := .retiring })]⟩, keyOps := [op 256 none false] }),
    rfl, by decide +kernel, by decide +kernel, by decide +kernel⟩

theorem meets_bootEpochAdvance : ∃ (s : State), s.On ∧
    s.dev.epochOpen = true ∧
    s.dev.cipher.retryAt = none :=
  ⟨at' base, rfl, by decide +kernel, by decide +kernel⟩

theorem meets_bootEpochAdvance_2 : ∃ (n : Nat) (s : State), s.On ∧
    s.dev.epochOpen = true ∧
    s.dev.cipher.retryAt = none ∧
    n ≠ s.dev.cipher.flashEpoch + 1 :=
  ⟨0, at' base, rfl, by decide +kernel, by decide +kernel, by decide +kernel⟩

theorem meets_bootEpochRetry : ∃ (t : Nat) (s : State), s.On ∧
    s.dev.epochOpen = true ∧
    s.dev.cipher.retryAt = some t ∧
    t ≤ s.dev.now :=
  ⟨300000000000, at' (keyDev { CipherState.reset with retryAt := some 300000000000 }), rfl, by decide +kernel,
    by decide +kernel, by decide +kernel⟩

theorem meets_bulkJobStart : ∃ (e u : Nat) (j : BulkJob) (r : BulkSegmentRec) (m : BulkMsg) (s : State), s.On ∧
    s.dev.idleEngine = some e ∧
    s.dev.nextUser = some u ∧
    s.dev.cipher.jobs.find? (fun j => j.user = u) = some j ∧
    j.work = .segment r ∧
    s.dev.ownMessage u r.message = some m ∧
    (s.dev.bulkKey m.slot).gen = m.keyGen :=
  ⟨0, 3, job 0, seg 0, bmsg, at' (keyDev { bulk 1 with jobs := [job 0] }), rfl, by decide +kernel, by decide +kernel,
    by decide +kernel, by decide +kernel, by decide +kernel, by decide +kernel⟩

theorem meets_bulkJobStart_2 : ∃ (e u : Nat) (j : BulkJob) (r : BulkSegmentRec) (m : BulkMsg) (s : State), s.On ∧
    s.dev.idleEngine = some e ∧
    s.dev.nextUser = some u ∧
    s.dev.cipher.jobs.find? (fun j => j.user = u) = some j ∧
    j.work = .segment r ∧
    s.dev.ownMessage u r.message = some m ∧
    (s.dev.bulkKey m.slot).gen ≠ m.keyGen :=
  ⟨0, 3, job 0, seg 0, bmsg, at' (keyDev { bulk 2 with jobs := [job 0] }), rfl, by decide +kernel, by decide +kernel,
    by decide +kernel, by decide +kernel, by decide +kernel, by decide +kernel⟩

theorem meets_bulkJobComplete : ∃ (e : Nat) (j : BulkJob) (r : BulkSegmentRec) (m : BulkMsg) (s : State), s.On ∧
    s.dev.cipher.engines.get? e = some j ∧
    j.work = .segment r ∧
    s.dev.ownMessage j.user r.message = some m ∧
    r.flags.testBit 0 = false :=
  ⟨3, job 0, seg 0, bmsg, at' (keyDev { bulk 1 with engines := ⟨[(3, job 0)]⟩ }), rfl, rfl, by decide +kernel,
    by decide +kernel, by decide +kernel⟩

theorem meets_bulkJobComplete_2 : ∃ (e : Nat) (j : BulkJob) (r : BulkSegmentRec) (m : BulkMsg) (s : State), s.On ∧
    s.dev.cipher.engines.get? e = some j ∧
    j.work = .segment r ∧
    s.dev.ownMessage j.user r.message = some m ∧
    r.flags.testBit 0 = true :=
  ⟨3, job 1, seg 1, bmsg, at' (keyDev { bulk 1 with engines := ⟨[(3, job 1)]⟩ }), rfl, rfl, by decide +kernel,
    by decide +kernel, by decide +kernel⟩

theorem meets_bulkKeyChange : ∃ (slot : Nat) (o : KeyOp) (os : List KeyOp) (s : State), s.On ∧
    s.dev.slotOps true slot = o :: os ∧
    (∀ c ∈ s.dev.cipher.engines.cells, s.dev.jobSlot c.2 ≠ some slot) :=
  ⟨63, op 63 none true, [], at' (keyDev { bulk 1 with keyOps := [op 63 none true] }), rfl, by decide +kernel,
    by decide +kernel⟩

theorem meets_macsecPortSet : ∃ (h : Hdr) (r : MacsecPortRec) (s : State) (x : Session), s.Serves { code := 0x0D01, lenOk := exactly 8, maxBody := 0 } h x ∧
    s.Hears h ∧
    firstFail (macsecPortChecks (x.sends h) s.dev r) = none ∧
    r.txSc = 0xFFFF ∧
    r.defaultRxSc = 0xFFFF :=
  ⟨ask 8, { port := 0, flags := 11, validate := 2, txSc := 0xFFFF, defaultRxSc := 0xFFFF }, at' base, own,
    served_own _ _ _ rfl rfl rfl rfl rfl (by decide) (by decide), hears_fn _ _ rfl (by decide) rfl rfl,
    by decide +kernel, by decide +kernel, by decide +kernel⟩

theorem meets_macsecScSet : ∃ (h : Hdr) (r : MacsecScRec) (s : State) (x : Session), s.Serves { code := 0x0D02, lenOk := exactly 24, maxBody := 0 } h x ∧
    s.Hears h ∧
    firstFail (macsecScChecks (x.sends h) s.dev r) = none ∧
    r.flags.testBit 0 = true ∧
    s.dev.sc (s.dev.scAbs x.tenancy r.sc) = none :=
  ⟨ask 24, scRec 0 5, at' base, own, served_own _ _ _ rfl rfl rfl rfl rfl (by decide) (by decide),
    hears_fn _ _ rfl (by decide) rfl rfl, by decide +kernel, by decide +kernel, by decide +kernel⟩

theorem meets_macsecScSet_2 : ∃ (h : Hdr) (r : MacsecScRec) (s : State) (x : Session), s.Serves { code := 0x0D02, lenOk := exactly 24, maxBody := 0 } h x ∧
    s.Hears h ∧
    firstFail (macsecScChecks (x.sends h) s.dev r) = none ∧
    r.flags.testBit 0 = false :=
  ⟨ask 24, scRec 0 4, at' base, own, served_own _ _ _ rfl rfl rfl rfl rfl (by decide) (by decide),
    hears_fn _ _ rfl (by decide) rfl rfl, by decide +kernel, by decide +kernel⟩

theorem meets_macsecTxAnSet : ∃ (h : Hdr) (sc an : Nat) (y : Sc) (s : State) (x : Session), s.Serves { code := 0x0D03, lenOk := exactly 4, maxBody := 0 } h x ∧
    s.Hears h ∧
    firstFail (macsecTxAnChecks (x.sends h) s.dev sc an) = none ∧
    s.dev.sc (s.dev.scAbs x.tenancy sc) = some y :=
  ⟨askT 4, 0, 1, sc 0 3 ⟨[(1, 5)]⟩, at' (keyDev { CipherState.reset with scs := ownSc, keys := ⟨[(5, key)]⟩ }), ten,
    served_ten _ _ _ rfl rfl rfl rfl rfl (by decide) (by decide), hears_fn _ _ rfl (by decide) rfl rfl,
    by decide +kernel, by decide +kernel⟩

theorem meets_keyLoad : ∃ (h : Hdr) (r : KeyLoadRec) (s : State) (x : Session), s.Serves { code := 0x0D04, lenOk := exactly 72, maxBody := 0, sealedOnly := true } h x ∧
    firstFail (keyLoadChecks (x.sends h) s.dev r) = none :=
  ⟨askT 72, loadRec 255, at' (keyDev { CipherState.reset with scs := ownSc }), ten,
    served_ten _ _ _ rfl rfl rfl rfl rfl (by decide) (by decide), by decide +kernel⟩

theorem meets_keyLoad_2 : ∃ (h : Hdr) (r : KeyLoadRec) (s : State) (x : Session), s.Serves { code := 0x0D04, lenOk := exactly 72, maxBody := 0, sealedOnly := true } h x ∧
    s.Hears h ∧
    firstFail (keyLoadChecks (x.sends h) s.dev r) = some .badState :=
  ⟨askT 72, loadRec 255, at' base, ten, served_ten _ _ _ rfl rfl rfl rfl rfl (by decide) (by decide),
    hears_fn _ _ rfl (by decide) rfl rfl, by decide +kernel⟩

theorem meets_keyErase : ∃ (h : Hdr) (r : KeyEraseRec) (s : State) (x : Session), s.Serves { code := 0x0D05, lenOk := exactly 4, maxBody := 0, canAsync := true } h x ∧
    s.Hears h ∧
    firstFail (keyEraseChecks (x.sends h) s.dev r) = none ∧
    r.target = 0 ∧
    (let slot := s.dev.saAbs x.tenancy r.slot; (s.dev.saKey slot).state = .retired) ∧
    (let slot := s.dev.saAbs x.tenancy r.slot; s.dev.slotOps false slot = []) :=
  ⟨askT 4, { target := 0, slot := 5 },
    at' (keyDev { CipherState.reset with keys := ⟨[(5, { key with state := .retired })]⟩ }), ten,
    served_ten _ _ _ rfl rfl rfl rfl rfl (by decide) (by decide), hears_fn _ _ rfl (by decide) rfl rfl,
    by decide +kernel, by decide +kernel, by decide +kernel, by decide +kernel⟩

theorem meets_keyErase_2 : ∃ (h : Hdr) (r : KeyEraseRec) (s : State) (x : Session), s.Serves { code := 0x0D05, lenOk := exactly 4, maxBody := 0, canAsync := true } h x ∧
    firstFail (keyEraseChecks (x.sends h) s.dev r) = none ∧
    r.target = 0 ∧
    (let slot := s.dev.saAbs x.tenancy r.slot; (s.dev.saKey slot).state = .active) ∧
    (let slot := s.dev.saAbs x.tenancy r.slot; s.dev.slotOps false slot = []) :=
  ⟨askT 4, { target := 0, slot := 5 }, at' (keyDev { CipherState.reset with keys := ⟨[(5, key)]⟩ }), ten,
    served_ten _ _ _ rfl rfl rfl rfl rfl (by decide) (by decide), by decide +kernel, by decide +kernel,
    by decide +kernel, by decide +kernel⟩

theorem meets_macsecSaStatusGet : ∃ (h : Hdr) (i a : Nat) (s : State) (x : Session), s.Serves { code := 0x0D06, lenOk := fun _ => true, maxBody := 12, changes := false } h x ∧
    s.Hears h ∧
    x.role ≠ .maint ∧
    s.dev.absIndex x.tenancy 12 256 i = some a :=
  ⟨askT 4, 255, 255, at' base, ten, served_ten _ _ _ rfl rfl rfl rfl rfl (by decide) (by decide),
    hears_fn _ _ rfl (by decide) rfl rfl, by decide +kernel, by decide +kernel⟩

theorem meets_bulkOpen : ∃ (h : Hdr) (r : BulkOpenRec) (s : State) (x : Session), s.Serves { code := 0x0D07, lenOk := exactly 16, maxBody := 16 } h x ∧
    s.Hears h ∧
    firstFail (bulkOpenChecks (x.sends h) s.dev r) = none ∧
    encrypts r.mode = true :=
  ⟨askT 16, { keySlot := 0, mode := 2, flags := 1, nonce := 0 }, at' (keyDev (bulk 1)), ten,
    served_ten _ _ _ rfl rfl rfl rfl rfl (by decide) (by decide), hears_fn _ _ rfl (by decide) rfl rfl,
    by decide +kernel, by decide +kernel⟩

theorem meets_bulkSegment : ∃ (h : Hdr) (r : BulkSegmentRec) (m : BulkMsg) (s : State) (x : Session), s.Serves { code := 0x0D08, lenOk := exactly 144, maxBody := 128, canAsync := true } h x ∧
    s.dev.ownMessage x.tenancy r.message = some m ∧
    firstFail (segmentChecks (x.sends h) s.dev m r) = none ∧
    (s.dev.bulkKey m.slot).gen = m.keyGen ∧
    s.dev.mayRequest h.fn = true :=
  ⟨askT 144, seg 0, bmsg, at' (keyDev (bulk 1)), ten, served_ten _ _ _ rfl rfl rfl rfl rfl (by decide) (by decide),
    by decide +kernel, by decide +kernel, by decide +kernel, by decide +kernel⟩

theorem meets_bulkSegment_2 : ∃ (h : Hdr) (r : BulkSegmentRec) (m : BulkMsg) (s : State) (x : Session), s.Serves { code := 0x0D08, lenOk := exactly 144, maxBody := 128, canAsync := true } h x ∧
    s.Hears h ∧
    s.dev.ownMessage x.tenancy r.message = some m ∧
    firstFail (segmentChecks (x.sends h) s.dev m r) = none ∧
    (s.dev.bulkKey m.slot).gen ≠ m.keyGen :=
  ⟨askT 144, seg 0, bmsg, at' (keyDev (bulk 2)), ten, served_ten _ _ _ rfl rfl rfl rfl rfl (by decide) (by decide),
    hears_fn _ _ rfl (by decide) rfl rfl, by decide +kernel, by decide +kernel, by decide +kernel⟩

theorem meets_bulkClose : ∃ (h : Hdr) (i : Nat) (m : BulkMsg) (s : State) (x : Session), s.Serves { code := 0x0D09, lenOk := exactly 4, maxBody := 0 } h x ∧
    s.Hears h ∧
    s.dev.ownMessage x.tenancy i = some m ∧
    (x.sends h).stale (s.dev.unit 13 (m.slot / 4)).epoch = false ∧
    s.dev.cipher.started = true ∧
    s.dev.cipher.exhausted = false :=
  ⟨askT 4, 0, bmsg, at' (keyDev (bulk 1)), ten, served_ten _ _ _ rfl rfl rfl rfl rfl (by decide) (by decide),
    hears_fn _ _ rfl (by decide) rfl rfl, by decide +kernel, by decide +kernel, by decide +kernel,
    by decide +kernel⟩

theorem meets_bulkConfigSet : ∃ (h : Hdr) (q : List Nat) (s : State) (x : Session), s.Serves { code := 0x0D0A, lenOk := exactly 32, maxBody := 0 } h x ∧
    s.Hears h ∧
    x.role = .owner ∧
    q.length = 16 ∧
    q.sum ≤ 4096 :=
  ⟨ask 32, [4081, 1, 1, 1, 1, 1, 1, 1, 1, 1, 1, 1, 1, 1, 1, 1], at' base, own,
    served_own _ _ _ rfl rfl rfl rfl rfl (by decide) (by decide), hears_fn _ _ rfl (by decide) rfl rfl,
    by decide +kernel, by decide +kernel, (by decide)⟩

theorem meets_macsecStatsGet : ∃ (h : Hdr) (p : Nat) (s : State) (x : Session), s.Serves { code := 0x0D0B, lenOk := fun _ => true, maxBody := 2048, changes := false } h x ∧
    s.Hears h ∧
    p ≤ 95 ∧
    x.role = .maint :=
  ⟨askM 4, 95, at' base, mnt, served_mnt _ _ _ rfl rfl rfl rfl rfl rfl (by decide) (by decide),
    hears_fn _ _ rfl (by decide) rfl rfl, by decide +kernel, by decide +kernel⟩

theorem meets_bulkStatsGet : ∃ (h : Hdr) (s : State) (x : Session), s.Serves { code := 0x0D0C, lenOk := fun _ => true, maxBody := 2048, changes := false } h x ∧
    s.Hears h ∧
    x.role = .tenant :=
  ⟨askT 4, at' base, ten, served_ten _ _ _ rfl rfl rfl rfl rfl (by decide) (by decide),
    hears_fn _ _ rfl (by decide) rfl rfl, by decide +kernel⟩

end Sys2Proof.Tests.Cipher
end

