-- ==== Sys2Proof/Tests/Dram.lean ====
section
/-! SUPPORT. For every clause of the statements about Dram, a state and operands that meet its hypotheses. -/

namespace Sys2Proof.Tests.Dram

set_option Elab.async false

open Sys2Proof Sys2Proof.Machine

/-- Channel 0 in a state, with its entries, and channel 5 the spare. -/
def chan (st : ChState) (q : List DramReq) : DramChannel :=
  { DramChannel.reset with state := st, logical := if st == .outOfService || st == .fenced then none else some 0, queue := q, refreshed := 1, lastReq := 299999990000 }
def spare : DramChannel := { DramChannel.reset with state := .spare, srAt := some 0 }
def dram (c : DramChannel) : DramState :=
  { DramState.reset with enabled := true, boundaryAt := 299999988300, pollAt := 299997000000, journals := [0, 1], channels := ⟨[(0, c), (5, spare)]⟩ }
def dd (x : DramState) : Dev := { base with dram := x }
def req (w : Bool) : DramReq :=
  { use := .journal, write := w, place := { bg := 0, bank := 0, row := 5, col := 16 }, since := 299999999990, miss := false }
def opened (row : Nat) (c : DramChannel) : DramChannel := { c with banks := ⟨[(0, { DramBank.reset with row := some row, actAt := some 0 })]⟩ }
def moving (t : Nat) : DramState :=
  { dram (chan .migrating []) with migration := some { src := 0, dst := 5, deadline := t, token := some tok, recentre := false } }
def sweeping (st : ChState) : DramState :=
  { dram (chan st []) with sweep := some { channel := 0, token := some tok, recentre := false } }

theorem meets_dramCommandIssue : ∃ (p : Nat) (r : DramReq) (s : State), s.On ∧
    p < 6 ∧
    (s.dev.chan p).state = .active ∧
    (s.dev.chan p).waiting = [] ∧
    (s.dev.dramOrder (s.dev.chan p)).find? (fun r => s.dev.permits p r) = some r ∧
    nextCmd (s.dev.chan p) r = .act :=
  ⟨0, req false, at' (dd (dram (chan .active [req false]))), rfl, by decide +kernel, by decide +kernel,
    by decide +kernel, by decide +kernel, by decide +kernel⟩

theorem meets_dramCommandIssue_2 : ∃ (p : Nat) (r : DramReq) (s : State), s.On ∧
    p < 6 ∧
    (s.dev.chan p).state = .active ∧
    (s.dev.chan p).waiting = [] ∧
    (s.dev.dramOrder (s.dev.chan p)).find? (fun r => s.dev.permits p r) = some r ∧
    nextCmd (s.dev.chan p) r = .pre :=
  ⟨0, req false, at' (dd (dram (opened 6 (chan .active [req false])))), rfl, by decide +kernel, by decide +kernel,
    by decide +kernel, by decide +kernel, by decide +kernel⟩

theorem meets_dramCommandIssue_3 : ∃ (p : Nat) (r : DramReq) (s : State), s.On ∧
    p < 6 ∧
    (s.dev.chan p).state = .active ∧
    (s.dev.chan p).waiting = [] ∧
    (s.dev.dramOrder (s.dev.chan p)).find? (fun r => s.dev.permits p r) = some r ∧
    nextCmd (s.dev.chan p) r = .col ∧
    r.write = true :=
  ⟨0, req true, at' (dd (dram (opened 5 (chan .active [req true])))), rfl, by decide +kernel, by decide +kernel,
    by decide +kernel, by decide +kernel, by decide +kernel, by decide +kernel⟩

theorem meets_dramReadComplete : ∃ (p n : Nat) (r : DramReq) (rs : List (DramReq × Nat)) (s : State), s.On ∧
    (s.dev.chan p).reads = (r, n) :: rs :=
  ⟨0, 299999999999, req false, [], at' (dd (dram { chan .active [] with reads := [(req false, 299999999999)] })),
    rfl, by decide +kernel⟩

theorem meets_dramReadComplete_2 : ∃ (p n : Nat) (r : DramReq) (rs : List (DramReq × Nat)) (s : State), s.On ∧
    (s.dev.chan p).reads = (r, n) :: rs ∧
    r.use = .journal ∧
    (s.dev.chan p).ueTimes = [] ∧
    1 ≤ s.dev.dram.config.ueFence :=
  ⟨0, 299999999999, req false, [], at' (dd (dram { chan .active [] with reads := [(req false, 299999999999)] })),
    rfl, by decide +kernel, by decide +kernel, by decide +kernel, by decide +kernel⟩

theorem meets_dramRefreshIntervalBoundary : ∃ (s : State), s.On ∧
    s.dev.dram.enabled = true ∧
    s.dev.dram.boundaryAt + s.dev.dram.interval ≤ s.dev.now :=
  ⟨at' (dd { dram (chan .active []) with hot := true, next := some dramConfigReset }), rfl, by decide +kernel,
    by decide +kernel⟩

theorem meets_dramRefreshSlot : ∃ (p : Nat) (s : State), s.On ∧
    p < 6 ∧
    s.dev.dram.enabled = true ∧
    s.dev.refreshSlot p ≤ s.dev.now ∧
    (s.dev.chan p).refreshed < s.dev.dram.boundaries + 1 ∧
    (s.dev.chan p).state = .active :=
  ⟨0, at' (dd (dram { chan .active [] with refreshed := 0 })), rfl, by decide +kernel, by decide +kernel,
    by decide +kernel, by decide +kernel, by decide +kernel⟩

theorem meets_dramRefreshSlot_2 : ∃ (p : Nat) (s : State), s.On ∧
    p < 6 ∧
    s.dev.dram.enabled = true ∧
    s.dev.refreshSlot p ≤ s.dev.now ∧
    (s.dev.chan p).refreshed < s.dev.dram.boundaries + 1 ∧
    (s.dev.chan p).state = .selfRefresh :=
  ⟨0, at' (dd (dram { chan .selfRefresh [] with refreshed := 0 })), rfl, by decide +kernel, by decide +kernel,
    by decide +kernel, by decide +kernel, by decide +kernel⟩

theorem meets_dramMr4Poll : ∃ (_l : List Nat) (s : State), s.On ∧
    s.dev.dram.enabled = true ∧
    s.dev.dram.pollAt + cyclesPerMs ≤ s.dev.now :=
  ⟨[86], at' (dd (dram (chan .active []))), rfl, by decide +kernel, by decide +kernel⟩

theorem meets_dramIdleSrEntry : ∃ (p : Nat) (s : State), s.On ∧
    s.dev.dram.config.idleSrUs ≠ 0 ∧
    (s.dev.chan p).state = .active ∧
    (s.dev.chan p).queue = [] ∧
    (s.dev.chan p).waiting = [] ∧
    (s.dev.chan p).lastReq + s.dev.dram.config.idleSrUs * cyclesPerUs ≤ s.dev.now :=
  ⟨0, at' (dd { dram (chan .active []) with config := { dramConfigReset with idleSrUs := 3 } }), rfl,
    by decide +kernel, by decide +kernel, by decide +kernel, by decide +kernel, by decide +kernel⟩

theorem meets_dramSrExit : ∃ (p t : Nat) (s : State), s.On ∧
    (s.dev.chan p).srAt = some t ∧
    (s.dev.chan p).state = .selfRefresh ∧
    (s.dev.chan p).queue ≠ [] ∧
    t + s.dev.dram.config.srMinNs * 3 ≤ s.dev.now :=
  ⟨0, 299999997000, at' (dd (dram { chan .selfRefresh [req true] with srAt := some 299999997000 })), rfl,
    by decide +kernel, by decide +kernel, by decide +kernel, by decide +kernel⟩

theorem meets_dramRateChannelDone : ∃ (p : Nat) (ps : List Nat) (s : State), s.On ∧
    s.dev.dram.rateLeft = p :: ps :=
  ⟨0, [], at' (dd { dram (chan .active []) with rateLeft := [0] }), rfl, by decide +kernel⟩

theorem meets_dramSpareTakeover : ∃ (l t p : Nat) (s : State), s.On ∧
    s.dev.dram.takeover = some (l, t) ∧
    s.dev.spareChan = some p :=
  ⟨0, 299999000000, 5, at' (dd { dram (chan .fenced []) with takeover := some (0, 299999000000) }), rfl,
    by decide +kernel, by decide +kernel⟩

theorem meets_journalRecopyDone : ∃ (s : State), s.On :=
  ⟨at' (dd { dram (chan .active []) with recopy := some 0 }), rfl⟩

theorem meets_dramMigrationComplete : ∃ (m : Migration) (s : State), s.On ∧
    s.dev.dram.migration = some m ∧
    m.src ≠ m.dst :=
  ⟨{ src := 0, dst := 5, deadline := 299999000000, token := some tok, recentre := false },
    at' (dd (moving 299999000000)), rfl, by decide +kernel, by decide +kernel⟩

theorem meets_dramChannelTimeout : ∃ (m : Migration) (s : State), s.On ∧
    s.dev.dram.migration = some m ∧
    m.src ≠ m.dst ∧
    m.deadline ≤ s.dev.now :=
  ⟨{ src := 0, dst := 5, deadline := 300000000000, token := some tok, recentre := false },
    at' (dd (moving 300000000000)), rfl, by decide +kernel, by decide +kernel, by decide +kernel⟩

theorem meets_dramSweepDone : ∃ (p : Nat) (t : Option Machine.Token) (ws : List Nat) (s : State), s.On ∧
    s.dev.dram.sweep = some { channel := p, token := t, recentre := false } ∧
    (∀ w ∈ ws, w ≠ 0) :=
  ⟨0, some tok, [1, 2], at' (dd (sweeping .outOfService)), rfl, by decide +kernel, by decide +kernel⟩

theorem meets_dramSweepDone_2 : ∃ (p : Nat) (t : Option Machine.Token) (ws : List Nat) (s : State), s.On ∧
    s.dev.dram.sweep = some { channel := p, token := t, recentre := false } ∧
    0 ∈ ws ∧
    (s.dev.chan p).state = .outOfService ∧
    s.dev.dram.migration = none :=
  ⟨0, some tok, [0, 2], at' (dd (sweeping .outOfService)), rfl, by decide +kernel, by decide +kernel,
    by decide +kernel, by decide +kernel⟩

theorem meets_dramSystemScrub : ∃ (p _n : Nat) (s : State), s.On ∧
    (s.dev.chan p).logical.isSome = true ∧
    (s.dev.chan p).scrubAt + 3600 * cyclesPerS ≤ s.dev.now :=
  ⟨0, 3, at' { dd (dram (chan .active [])) with now := 10800000000000 }, rfl, by decide +kernel, by decide +kernel⟩

theorem meets_dramTrainingDone : ∃ (s : State), s.On ∧
    s.dev.dram.enabled = false ∧
    3 ≤ s.dev.boot.stage :=
  ⟨at' base, rfl, by decide +kernel, by decide +kernel⟩

theorem meets_drcSetSwap : ∃ (p : Nat) (s : State), s.On ∧
    p < 6 ∧
    (s.dev.chan p).inService = false :=
  ⟨5, at' base, rfl, by decide +kernel, by decide +kernel⟩

theorem meets_drcSetSwap_2 : ∃ (p : Nat) (s : State), s.On ∧
    p < 6 ∧
    (s.dev.chan p).inService = true :=
  ⟨0, at' (dd (dram (chan .active []))), rfl, by decide +kernel, by decide +kernel⟩

theorem meets_drcModeRegisterAccess : ∃ (p : Nat) (s : State), s.On ∧
    p < 6 ∧
    (s.dev.chan p).inService = false :=
  ⟨5, at' base, rfl, by decide +kernel, by decide +kernel⟩

theorem meets_drcModeRegisterAccess_2 : ∃ (p : Nat) (s : State), s.On ∧
    p < 6 ∧
    (s.dev.chan p).state = .outOfService ∧
    s.dev.dram.migration = none :=
  ⟨0, at' (dd (dram (chan .outOfService []))), rfl, by decide +kernel, by decide +kernel, by decide +kernel⟩

theorem meets_drcTrainingRowAccess : ∃ (p : Nat) (s : State), s.On ∧
    p < 6 ∧
    (s.dev.chan p).inService = false :=
  ⟨5, at' base, rfl, by decide +kernel, by decide +kernel⟩

theorem meets_drcReadCompare : ∃ (p _e : Nat) (s : State), s.On ∧
    p < 6 ∧
    (s.dev.chan p).inService = false :=
  ⟨5, 1, at' base, rfl, by decide +kernel, by decide +kernel⟩

theorem meets_dramConfigSet : ∃ (h : Hdr) (r : DramConfigRec) (s : State) (x : Session), s.Serves { code := 0x0E01, lenOk := exactly 16, maxBody := 0 } h x ∧
    s.Hears h ∧
    firstFail (dramConfigChecks (x.sends h) s.dev r) = none :=
  ⟨ask 16, { rate := 0, drfmK := 12, ueFence := 1000, ageLimitNs := 20000, idleSrUs := 1000000, srMinNs := 100000 },
    at' base, own, served_own _ _ _ rfl rfl rfl rfl rfl (by decide) (by decide),
    hears_fn _ _ rfl (by decide) rfl rfl, by decide +kernel⟩

theorem meets_dramChannelSet : ∃ (h : Hdr) (r : DramChannelRec) (p : Nat) (s : State) (x : Session), s.Serves { code := 0x0E02, lenOk := exactly 8, maxBody := 0, canAsync := true } h x ∧
    firstFail (dramChannelChecks (x.sends h) s.dev r) = none ∧
    r.op = 1 ∧
    s.dev.spareChan = some p :=
  ⟨ask 8, { channel := 0, op := 1, deadlineMs := 10000 }, 5, at' (dd (dram (chan .active []))), own,
    served_own _ _ _ rfl rfl rfl rfl rfl (by decide) (by decide), by decide +kernel, by decide +kernel,
    by decide +kernel⟩

theorem meets_dramChannelSet_2 : ∃ (h : Hdr) (r : DramChannelRec) (s : State) (x : Session), s.Serves { code := 0x0E02, lenOk := exactly 8, maxBody := 0, canAsync := true } h x ∧
    firstFail (dramChannelChecks (x.sends h) s.dev r) = none ∧
    r.op = 2 :=
  ⟨ask 8, { channel := 0, op := 2, deadlineMs := 10000 }, at' (dd (dram (chan .fenced []))), own,
    served_own _ _ _ rfl rfl rfl rfl rfl (by decide) (by decide), by decide +kernel, by decide +kernel⟩

theorem meets_dramChannelSet_3 : ∃ (h : Hdr) (r : DramChannelRec) (s : State) (x : Session), s.Serves { code := 0x0E02, lenOk := exactly 8, maxBody := 0, canAsync := true } h x ∧
    s.Hears h ∧
    firstFail (dramChannelChecks (x.sends h) s.dev r) = none ∧
    r.op = 3 :=
  ⟨ask 8, { channel := 5, op := 3, deadlineMs := 0 }, at' (dd (dram (chan .active []))), own,
    served_own _ _ _ rfl rfl rfl rfl rfl (by decide) (by decide), hears_fn _ _ rfl (by decide) rfl rfl,
    by decide +kernel, by decide +kernel⟩

theorem meets_dramChannelSet_4 : ∃ (h : Hdr) (r : DramChannelRec) (s : State) (x : Session), s.Serves { code := 0x0E02, lenOk := exactly 8, maxBody := 0, canAsync := true } h x ∧
    firstFail (dramChannelChecks (x.sends h) s.dev r) = none ∧
    r.op = 4 :=
  ⟨ask 8, { channel := 0, op := 4, deadlineMs := 0 }, at' (dd (dram (chan .active []))), own,
    served_own _ _ _ rfl rfl rfl rfl rfl (by decide) (by decide), by decide +kernel, by decide +kernel⟩

theorem meets_dramStatusGet : ∃ (h : Hdr) (s : State) (x : Session), s.Serves { code := 0x0E03, lenOk := exactly 0, maxBody := 2048, changes := false } h x ∧
    s.Hears h ∧
    x.role ≠ .tenant :=
  ⟨askM 0, at' base, mnt, served_mnt _ _ _ rfl rfl rfl rfl rfl rfl (by decide) (by decide),
    hears_fn _ _ rfl (by decide) rfl rfl, by decide +kernel⟩

theorem meets_dramStatusGet_2 : ∃ (h : Hdr) (s : State) (x : Session), s.Serves { code := 0x0E03, lenOk := exactly 0, maxBody := 2048, changes := false } h x ∧
    s.Hears h ∧
    x.role = .tenant :=
  ⟨askT 0, at' base, ten, served_ten _ _ _ rfl rfl rfl rfl rfl (by decide) (by decide),
    hears_fn _ _ rfl (by decide) rfl rfl, by decide +kernel⟩

end Sys2Proof.Tests.Dram
end

