-- ==== Sys2Proof/Tests/Endpoint.lean ====
section
/-! SUPPORT. For every clause of the statements about Endpoint, a state and operands that meet its hypotheses. -/

namespace Sys2Proof.Tests.Endpoint

set_option Elab.async false

open Sys2Proof Sys2Proof.Machine

/-- The device with another endpoint, another function in it, or a lost VF0. -/
def hd (x : HostState) : Dev := { base with host := x }
def fe (f : Nat) (e : EndFn) : HostState := { ends with fns := ends.fns.set f e }
def tbox : Mailbox := box ten
def withBox (f : Nat) (m : Mailbox) (d : Dev) : Dev := { d with mbx := { d.mbx with fns := d.mbx.fns.set f m } }
def gone : Mailbox := { tbox with hostLost := true, halted := true, zeroOpen := false }
def torn (c : Nat) : EndFn := { live with teardown := true, crs := c == 3, lostCause := c }
def read9 (fn : Nat) (use : DmaUse) (disc : Bool) : DmaRead :=
  { tag := 511, fn := fn, unit := 0, issued := 299850000000, timeout := 150000001, use := use, arrived := none, discard := disc }
def due (r : DmaRead) : DmaRead := { r with timeout := 150000000 }
def reading (r : DmaRead) : Dev := hd { ends with reads := [r] }
def seg9 : BulkSegmentRec :=
  { message := 0, aadLen := 16, dataLen := 16, flags := 0, outAddr := 0, tag := 0, blob := { present := false, tagOk := false, segment := 0 }, input := [] }
def segTok : Machine.Token :=
  { fn := 2, session := 1, tenancy := 3, seq := 1, code := 0x0D08, isAsync := false, reserve := 0, boot := false, serial := 3 }
def more : Mailbox := { tbox with req := { ring with tail := 101 } }

theorem meets_registerWrite : ∃ (f _v : Nat) (s : State), s.On ∧
    s.Settled ∧
    s.dev.fnExists f = true :=
  ⟨2, 65535, at' base, rfl, rfl, by decide +kernel⟩

theorem meets_registerWrite_2 : ∃ (f _v : Nat) (s : State), s.On ∧
    s.Settled ∧
    s.dev.fnExists f = true :=
  ⟨2, 65535, at' (withBox 2 { tbox with req := { ring with enabled := false } } base), rfl, rfl, by decide +kernel⟩

theorem meets_registerWrite_3 : ∃ (_f _v : Nat) (s : State), s.On ∧
    s.Settled :=
  ⟨2, 65535, at' base, rfl, rfl⟩

theorem meets_registerWrite_4 : ∃ (_f _v : Nat) (s : State), s.On ∧
    s.Settled :=
  ⟨2, 65535, at' base, rfl, rfl⟩

theorem meets_irqStatusClear : ∃ (f _m : Nat) (s : State), s.On ∧
    s.Settled ∧
    s.dev.fnExists f = true :=
  ⟨2, 5, at' (hd (fe 2 { live with irqStatus := 63 })), rfl, rfl, by decide +kernel⟩

theorem meets_barMisalignedAccess : ∃ (f : Nat) (_w : Bool) (s : State), s.On ∧
    s.Settled ∧
    s.dev.fnExists f = true :=
  ⟨2, true, at' base, rfl, rfl, by decide +kernel⟩

theorem meets_pcieLinkUp : ∃ (v w : Nat) (s : State), s.On ∧
    1 ≤ v ∧
    v ≤ 5 ∧
    w ∈ [1, 2, 4, 8] :=
  ⟨1, 8, at' base, rfl, by decide +kernel, by decide +kernel, by decide +kernel⟩

theorem meets_pcieLinkDown : ∃ (s : State), s.On ∧
    s.dev.host.linkUp = true :=
  ⟨at' base, rfl, by decide +kernel⟩

theorem meets_hotReset : ∃ (s : State), s.On :=
  ⟨at' base, rfl⟩

theorem meets_functionLevelReset : ∃ (f : Nat) (s : State), s.On ∧
    f < 32 ∧
    f ≠ 0 ∧
    s.dev.fnExists f = true :=
  ⟨2, at' base, rfl, by decide +kernel, by decide +kernel, by decide +kernel⟩

theorem meets_functionLevelReset_2 : ∃ (s : State), s.On :=
  ⟨at' base, rfl⟩

theorem meets_busMasterClear : ∃ (f : Nat) (s : State), s.On ∧
    f < 32 ∧
    s.dev.fnExists f = true ∧
    (s.dev.fend f).crs = false ∧
    (s.dev.fend f).busMaster = true :=
  ⟨2, at' (reading (read9 2 (.ringFetch 101) false)), rfl, by decide +kernel, by decide +kernel, by decide +kernel,
    by decide +kernel⟩

theorem meets_busMasterSet : ∃ (f : Nat) (s : State), s.On ∧
    s.Settled ∧
    s.dev.fnExists f = true ∧
    (s.dev.fend f).crs = false ∧
    (s.dev.mbox f).hostLost = true :=
  ⟨2, at' (withBox 2 gone (hd (fe 2 { live with busMaster := false }))), rfl, rfl, by decide +kernel,
    by decide +kernel, by decide +kernel⟩

theorem meets_d3hotEntry : ∃ (f : Nat) (s : State), s.On ∧
    f < 32 ∧
    s.dev.fnExists f = true ∧
    (s.dev.fend f).crs = false ∧
    (s.dev.fend f).d3hot = false :=
  ⟨2, at' base, rfl, by decide +kernel, by decide +kernel, by decide +kernel, by decide +kernel⟩

theorem meets_d0Return : ∃ (f : Nat) (s : State), s.On ∧
    s.Settled ∧
    s.dev.fnExists f = true ∧
    (s.dev.fend f).crs = false :=
  ⟨2, at' (hd (fe 2 { live with d3hot := true })), rfl, rfl, by decide +kernel, by decide +kernel⟩

theorem meets_vfEnableSet : ∃ (n : Nat) (s : State), s.On ∧
    s.Settled ∧
    s.dev.answersConfig 0 = true ∧
    s.dev.host.vfEnable = false ∧
    n ≤ 30 :=
  ⟨30, at' (hd { ends with vfEnable := false, numVfs := 0 }), rfl, rfl, by decide +kernel, by decide +kernel,
    by decide +kernel⟩

theorem meets_vfEnableClear : ∃ (s : State), s.On ∧
    s.dev.answersConfig 0 = true ∧
    s.dev.host.vfEnable = true :=
  ⟨at' base, rfl, by decide +kernel, by decide +kernel⟩

theorem meets_configRequest : ∃ (f _c : Nat) (s : State), s.On ∧
    s.Settled ∧
    s.dev.answersConfig f = true :=
  ⟨2, 14, at' base, rfl, rfl, by decide +kernel⟩

theorem meets_configRequest_2 : ∃ (f _c : Nat) (_w : Bool) (s : State), s.On ∧
    s.Settled ∧
    s.dev.fnExists f = true ∧
    (s.dev.fend f).crs = true :=
  ⟨2, 14, true, at' (hd (fe 2 { live with crs := true })), rfl, rfl, by decide +kernel, by decide +kernel⟩

theorem meets_teardownFinish : ∃ (f : Nat) (s : State), s.On ∧
    s.Settled ∧
    f < 32 ∧
    f ≠ 0 ∧
    (s.dev.fend f).teardown = true ∧
    (s.dev.fend f).lostCause = 3 :=
  ⟨2, at' (withBox 2 gone (hd (fe 2 (torn 3)))), rfl, rfl, by decide +kernel, by decide +kernel, by decide +kernel,
    by decide +kernel⟩

theorem meets_teardownFinish_2 : ∃ (f : Nat) (s : State), s.On ∧
    s.Settled ∧
    f < 32 ∧
    (s.dev.fend f).teardown = true ∧
    (s.dev.mbox f).hostLost = true ∧
    (s.dev.fend f).lostCause = 2 :=
  ⟨2, at' (withBox 2 gone (hd (fe 2 (torn 2)))), rfl, rfl, by decide +kernel, by decide +kernel, by decide +kernel,
    by decide +kernel⟩

theorem meets_dmaCompletionArrival : ∃ (r : DmaRead) (n : Nat) (s : State), s.On ∧
    s.Settled ∧
    s.dev.host.reads = [r] ∧
    s.dev.host.waitingReads = [] ∧
    r.arrived = none ∧
    r.discard = false ∧
    r.use = .ringFetch n ∧
    s.dev.now < r.issued + r.timeout ∧
    (s.dev.mbox r.fn).req.enabled = true ∧
    (s.dev.mbox r.fn).unknown = [] ∧
    (s.dev.mbox r.fn).available < (n + 2 ^ 32 - (s.dev.mbox r.fn).req.head) % 2 ^ 32 ∧
    (n + 2 ^ 32 - (s.dev.mbox r.fn).req.head) % 2 ^ 32 ≤ 2 ^ (s.dev.mbox r.fn).req.size :=
  ⟨read9 2 (.ringFetch 16384) false, 16384, at' (reading (read9 2 (.ringFetch 16384) false)), rfl, rfl,
    by decide +kernel, by decide +kernel, by decide +kernel, by decide +kernel, by decide +kernel,
    by decide +kernel, by decide +kernel, by decide +kernel, by decide +kernel, by decide +kernel⟩

theorem meets_dmaCompletionArrival_2 : ∃ (r : DmaRead) (_st : DmaStatus) (s : State), s.On ∧
    s.Settled ∧
    s.dev.readOf r.tag = some r ∧
    r.discard = true ∧
    s.dev.now < r.issued + r.timeout ∧
    s.dev.host.waitingReads = [] :=
  ⟨read9 2 (.ringFetch 101) true, .ok, at' (reading (read9 2 (.ringFetch 101) true)), rfl, rfl, by decide +kernel,
    by decide +kernel, by decide +kernel, by decide +kernel⟩

theorem meets_dmaCompletionArrival_3 : ∃ (r : DmaRead) (n : Nat) (s : State), s.On ∧
    s.Settled ∧
    s.dev.host.reads = [r] ∧
    s.dev.host.waitingReads = [] ∧
    r.arrived = none ∧
    r.discard = false ∧
    r.use = .ringFetch n ∧
    s.dev.now < r.issued + r.timeout :=
  ⟨read9 2 (.ringFetch 101) false, 101, at' (reading (read9 2 (.ringFetch 101) false)), rfl, rfl, by decide +kernel,
    by decide +kernel, by decide +kernel, by decide +kernel, by decide +kernel, by decide +kernel⟩

theorem meets_dmaCompletionArrival_4 : ∃ (q : Nat × Nat × Nat) (_st : DmaStatus) (s : State), s.On ∧
    s.Settled ∧
    s.dev.readOf q.1 = none ∧
    s.dev.host.quarantine.find? (fun x => x.1 = q.1) = some q :=
  ⟨(511, 2, 300000000001), .ok, at' (hd { ends with quarantine := [(511, 2, 300000000001)] }), rfl, rfl,
    by decide +kernel, by decide +kernel⟩

theorem meets_completionTimeout : ∃ (r : DmaRead) (n : Nat) (s : State), s.On ∧
    s.Settled ∧
    s.dev.host.reads = [r] ∧
    r.arrived = none ∧
    r.discard = false ∧
    r.use = .ringFetch n ∧
    r.issued + r.timeout ≤ s.dev.now :=
  ⟨due (read9 2 (.ringFetch 101) false), 101, at' (reading (due (read9 2 (.ringFetch 101) false))), rfl, rfl,
    by decide +kernel, by decide +kernel, by decide +kernel, by decide +kernel, by decide +kernel⟩

theorem meets_completionTimeout_2 : ∃ (r : DmaRead) (tok : Machine.Token) (x : BulkSegmentRec) (s : State), s.On ∧
    s.Settled ∧
    s.dev.host.reads = [r] ∧
    r.arrived = none ∧
    r.discard = false ∧
    r.use = .message tok (.bulkSegment x) ∧
    tok.boot = false ∧
    s.dev.coreUp tok.core = true ∧
    s.dev.canWrite tok.fn = true ∧
    (∃ y, s.dev.session tok.fn tok.session = some y ∧ y.serial = tok.serial) ∧
    r.issued + r.timeout ≤ s.dev.now :=
  ⟨due (read9 2 (.message segTok (.bulkSegment seg9)) false), segTok, seg9,
    at' (reading (due (read9 2 (.message segTok (.bulkSegment seg9)) false))), rfl, rfl, by decide +kernel,
    by decide +kernel, by decide +kernel, by decide +kernel, by decide +kernel, by decide +kernel,
    by decide +kernel, (by exact ⟨ten, rfl, rfl⟩), by decide +kernel⟩

theorem meets_tagQuarantineEnd : ∃ (_t : Nat) (s : State), s.On ∧
    s.Settled ∧
    s.dev.host.waitingReads = [] :=
  ⟨511, at' (hd { ends with quarantine := [(511, 2, 300000000000), (510, 2, 300000000000)] }), rfl, rfl,
    by decide +kernel⟩

theorem meets_reqRingFetchRetry : ∃ (f t : Nat) (s : State), s.On ∧
    s.Settled ∧
    (s.dev.fend f).refetchAt = some t ∧
    t ≤ s.dev.now ∧
    (s.dev.mbox f).req.enabled = true ∧
    (s.dev.mbox f).halted = false ∧
    s.dev.served f = true ∧
    s.dev.mayRequest f = true ∧
    (s.dev.mbox f).fetched ≠ (s.dev.mbox f).req.tail ∧
    ((s.dev.mbox f).req.tail + 2 ^ 32 - (s.dev.mbox f).req.head) % 2 ^ 32 ≤ 2 ^ (s.dev.mbox f).req.size ∧
    s.dev.host.reads = [] ∧
    s.dev.host.waitingReads = [] ∧
    s.dev.host.quarantine = [] :=
  ⟨2, 300000000000, at' (withBox 2 more (hd (fe 2 { live with refetchAt := some 300000000000 }))), rfl, rfl,
    by decide +kernel, by decide +kernel, by decide +kernel, by decide +kernel, by decide +kernel,
    by decide +kernel, by decide +kernel, by decide +kernel, by decide +kernel, by decide +kernel,
    by decide +kernel⟩

theorem meets_hostStatusGet : ∃ (h : Hdr) (s : State) (x : Session), s.Serves { code := 0x1201, lenOk := exactly 0, maxBody := 2048, changes := false } h x ∧
    s.Hears h ∧
    x.role = .tenant :=
  ⟨askT 0, at' base, ten, served_ten _ _ _ rfl rfl rfl rfl rfl (by decide) (by decide),
    hears_fn _ _ rfl (by decide) rfl rfl, by decide +kernel⟩

theorem meets_hostStatusGet_2 : ∃ (h : Hdr) (s : State) (x : Session), s.Serves { code := 0x1201, lenOk := exactly 0, maxBody := 2048, changes := false } h x ∧
    s.Hears h ∧
    x.role ≠ .tenant :=
  ⟨askM 0, at' base, mnt, served_mnt _ _ _ rfl rfl rfl rfl rfl rfl (by decide) (by decide),
    hears_fn _ _ rfl (by decide) rfl rfl, by decide +kernel⟩

end Sys2Proof.Tests.Endpoint
end

