-- ==== Sys2Proof/Tests/Examples.lean ====
section
/-! SUPPORT. Small tests of single operations against the worked examples of the spec, and of AES and GCM against
published vectors. -/

namespace Sys2Proof.Tests

set_option Elab.async false

open Sys2Proof Sys2Proof.Machine

/-- 02: +2.5 ppm on the servo. -/
theorem test_hem_incr : incrOf 640000 = 93825226799366 := by decide +kernel

/-- 01: fourteen standard ports and two deep ones at 100G fit the budget at default shares, and a third port in the
deep profile beside 400G more does not. -/
theorem test_budget :
    let std : PortConfigRec := { portCfgReset 0 with mode := 4 }
    let deep : PortConfigRec := { std with flags := 4 }
    withinBudget (List.replicate 14 std ++ List.replicate 2 deep) .reset = true ∧
      withinBudget ({ deep with mode := 6 } :: List.replicate 14 std ++ List.replicate 2 deep) .reset = false := by
  decide +kernel

/-- 10: the two-rate meter of Table 10-4. -/
def trtcm : MeterBindRec :=
  { index := 0, mode := 2, flags := 0, rate1 := 1000000000, rate2 := 2000000000, burst1 := 3000, burst2 := 6000,
    dscp := [0, 0, 0], pcp := [0, 0, 0], queue := [0, 0, 0] }

theorem test_meter_increments : rateInc 1000000000 = 178956970 ∧ rateInc 2000000000 = 357913941 := by decide +kernel

/-- The colours of packets of 1,500 bytes at these cycles. -/
def colours : List Nat → MeterCell → List Nat
  | [], _ => []
  | t :: ts, m =>
    let x := decide' trtcm (refill trtcm m t) (1500 * byteUnits) 0
    x.1 :: colours ts x.2

theorem test_meter_trace : colours [0, 300, 600, 900, 1200, 37200] (fullCell trtcm 0) = [0, 0, 1, 1, 2, 0] := by
  decide +kernel

/-- 11: transmission cycles at 25G of frames of 1,500 and 300 bytes. -/
theorem test_tx_cycles :
    let d := withPort { upPort with cfg := { upPort.cfg with mode := 2 } } base
    d.txCycles 0 (d.lenTx 0 1500) = 1460 ∧ d.txCycles 0 (d.lenTx 0 300) = 308 := by
  decide +kernel

/-- 12: symbol start, window open and latest start of a downlink packet, in 2^-16 ns after 1,700,000,105 s. -/
theorem test_release_window :
    let r : RelProfileRec :=
      { index := 5, mu := 2, extCp := 0, flags := 0, direction := 1, msgMask := 1, queue := 14, originS := 1700000000,
        originNs := 0, openOff := -300000, closeOff := -100000 }
    let x : RadioTime := { frame := 75, subframe := 3, slot := 2, symbol := 7 }
    let s : Int := 1700000105000000000 * 65536
    let w := windowOf r x (s + 713125000 * 65536) (ceilDiv (1526 * 8 * 65536) 25 : Nat)
    symbolStart r x (s + 713125000 * 65536) - s = 713625390 * 65536 + 40960 ∧
      w.openAt - s = 713325390 * 65536 + 40960 ∧ (w.latest - s) / 65536 = 713524902 := by
  decide +kernel

/-- 14: the place of a striped address with 16 Gb components. -/
theorem test_stripe : stripePlace true 0x01234A80 = (1, { bg := 0, bank := 1, row := 29, col := 592 }) := by
  decide +kernel

/-- 19: what a hold-up capacitor of 4,700 µF, and one of 6,800 µF, lets start. -/
theorem test_holdup :
    let g : GusConfigRec :=
      { pmbusAddr := 16, flags := 0, capUf := 4700, vcutMv := 5000, holdDiv := 11000, pHoldMw := 500, effPct := 80 }
    mayStart g 3724 .pageProgram = true ∧ mayStart g 3724 .postmortem = true ∧ mayStart g 3724 .sectorErase = false ∧
      mayStart { g with capUf := 6800 } 3724 .sectorErase = true ∧
      mayStart { g with capUf := 6800 } 3724 .blockErase = false := by
  decide +kernel

/-- FIPS 197, appendix C.1. -/
theorem test_aes128 :
    aesBlock (roundKeys false (0x000102030405060708090a0b0c0d0e0f * 2 ^ 128)) 0x00112233445566778899aabbccddeeff =
      0x69c4e0d86a7b0430d8cdb78070b4c55a := by
  decide +kernel

/-- FIPS 197, appendix C.3. -/
theorem test_aes256 :
    aesBlock (roundKeys true 0x000102030405060708090a0b0c0d0e0f101112131415161718191a1b1c1d1e1f)
      0x00112233445566778899aabbccddeeff = 0x8ea2b7ca516745bfeafc49904b496089 := by
  decide +kernel

/-- The GCM specification, test case 2: a zero key, nonce and block. -/
theorem test_gcm :
    let ks := roundKeys false 0
    let c := ctrBytes ks 0 2 (List.replicate 16 0)
    beNat c = 0x0388dace60b6a392f328c2b971b2fe78 ∧ gcmTagOf ks 0 [] c = 0xab6e47d42cec13bdf53a67b21257bddf := by
  decide +kernel

end Sys2Proof.Tests
end

