-- ==== Sys2Proof/Tests/Gusset.lean ====
section
/-! SUPPORT. For every clause of the statements about Gusset, a state and operands that meet its hypotheses. -/

namespace Sys2Proof.Tests.Gusset

set_option Elab.async false

open Sys2Proof Sys2Proof.Machine

/-- A device ready in service whose island plans, with other Gusset or island state. -/
def plan : IslandState := { IslandState.reset with config := { gusConfigZero with flags := 3 } }
def hold : GusConfigRec :=
  { pmbusAddr := 16, flags := 3, capUf := 100000, vcutMv := 5000, holdDiv := 11000, pHoldMw := 1000, effPct := 80 }
def di (x : IslandState) : Dev := { base with island := x }
def gu (x : GusState) (d : Dev) : Dev := { d with gus := x }
def chanOf (n : Nat) (st : ChState) : DramChannel :=
  { DramChannel.reset with state := st, logical := if st == .spare then none else some n }
def twoChans (d : Dev) : Dev :=
  { d with dram := { DramState.reset with enabled := true, journals := [0, 1], channels := ⟨[(0, chanOf 0 .active), (5, chanOf 5 .spare)]⟩ } }
def page (u : FlashUse) : FlashReq := { op := .pageProgram, use := u, since := 200000000000, recheckAt := none }
def deferred : FlashReq := { page (.bootEpoch 7) with recheckAt := some 300000000000 }
def hist : HistoryRec :=
  { bootEpoch := 1, kind := 1, voltage := 750, uptimeUs := 5, seconds := 0, vminSram := 600, ageing := [], tMax := [], tcamMargin := [],
    dram := [], serdes := 0, eom := 0 }
def pm (k : Nat) : PmRecord := { bootEpoch := k, buffer := .empty, dip := false, reported := false }

theorem meets_gussetVoltageEval : ∃ (s : State), s.On ∧
    s.dev.planning = true ∧
    s.dev.gus.evalAt + 3000000 ≤ s.dev.now ∧
    s.dev.island.config.flags.testBit 0 = true ∧
    s.dev.gus.holdUntil = none :=
  ⟨at' (gu { GusState.reset with slacks := ⟨[(0, 10), (3, 60)]⟩ } (di plan)), rfl, by decide +kernel,
    by decide +kernel, by decide +kernel, by decide +kernel⟩

theorem meets_pmbusReadback : ∃ (mv : Nat) (s : State), s.On ∧
    s.Settled ∧
    s.dev.gus.requested = true ∧
    s.dev.gus.mv ≤ mv + 10 ∧
    mv ≤ s.dev.gus.mv + 10 :=
  ⟨760, at' (gu { GusState.reset with requested := true } base), rfl, rfl, by decide +kernel, by decide +kernel,
    by decide +kernel⟩

theorem meets_pmbusReadback_2 : ∃ (_mv : Nat) (s : State), s.On ∧
    s.Settled ∧
    s.dev.gus.requested = true ∧
    s.dev.gus.attempts = 2 :=
  ⟨0, at' (gu { GusState.reset with requested := true, attempts := 2, mv := 755 } base), rfl, rfl, by decide +kernel,
    by decide +kernel⟩

theorem meets_pmbusHoldoffEnd : ∃ (t : Nat) (s : State), s.On ∧
    s.Settled ∧
    s.dev.gus.holdUntil = some t ∧
    t ≤ s.dev.now :=
  ⟨300000000000, at' (gu { GusState.reset with holdUntil := some 300000000000 } base), rfl, rfl, by decide +kernel,
    by decide +kernel⟩

theorem meets_thermalSample : ∃ (ts : List Int) (s : State), s.On ∧
    s.Settled ∧
    (∀ t ∈ ts, t < 460) :=
  ⟨[459, -160], at' (gu { GusState.reset with hot := [2, 2] } base), rfl, rfl, by decide +kernel⟩

theorem meets_thermalSample_2 : ∃ (ts : List Int) (i : Nat) (t : Int) (s : State), s.On ∧
    ts[i]? = some t ∧
    460 ≤ t ∧
    2 ≤ s.dev.gus.hot.getD i 0 :=
  ⟨[0, 460], 1, 460, at' (gu { GusState.reset with hot := [0, 2] } (twoChans base)), rfl, by decide +kernel,
    by decide +kernel, by decide +kernel⟩

theorem meets_ringOscSample : ∃ (k _r : Nat) (slack : Int) (s : State), s.On ∧
    s.Settled ∧
    k < 64 ∧
    20 ≤ slack :=
  ⟨63, 4096, 20, at' (gu { GusState.reset with mv := 850, lowSince := ⟨[(63, 0)]⟩ } base), rfl, rfl,
    by decide +kernel, by decide +kernel⟩

theorem meets_ringOscSample_2 : ∃ (k _r b : Nat) (s : State), s.On ∧
    s.Settled ∧
    k < 64 ∧
    s.dev.island.baseRatio.get? k = some b :=
  ⟨0, 4096, 5000, at' (di { plan with baseRatio := ⟨[(0, 5000)]⟩ }), rfl, rfl, by decide +kernel, rfl⟩

theorem meets_sramVminTest : ∃ (mv : Nat) (s : State), s.On ∧
    s.Settled ∧
    mv ≤ 800 :=
  ⟨800, at' base, rfl, rfl, by decide +kernel⟩

theorem meets_sramVminTest_2 : ∃ (mv : Nat) (s : State), s.On ∧
    s.Settled ∧
    800 < mv :=
  ⟨801, at' base, rfl, rfl, by decide +kernel⟩

theorem meets_serdesAdaptStep : ∃ (l e p b : Nat) (s : State), s.On ∧
    s.Settled ∧
    s.dev.portOfLane l = some p ∧
    s.dev.isUp p = true ∧
    s.dev.gus.adaptAt.get? l = none ∧
    s.dev.island.baseEye.get? (l * 8 + (s.dev.port p).cfg.mode) = some b ∧
    e * 100 < b * 70 :=
  ⟨0, 69, 0, 100, at' (withPort upPort (di { plan with baseEye := ⟨[(1, 100)]⟩ })), rfl, rfl, by decide +kernel,
    by decide +kernel, by decide +kernel, rfl, by decide +kernel⟩

theorem meets_dramWindowCheck : ∃ (p sp : Nat) (ws bs : List Nat) (_cs : List Int) (s : State), s.On ∧
    s.Settled ∧
    (s.dev.chan p).logical.isSome = true ∧
    s.dev.island.baseWindow.get? p = some bs ∧
    (∃ x ∈ ws.zip bs, x.1 * 100 < x.2 * 60) ∧
    s.dev.gus.recentreAt.get? p = none ∧
    s.dev.gus.retryAt.get? p = none ∧
    s.dev.island.config.flags.testBit 1 = true ∧
    s.dev.planning = true ∧
    s.dev.spareChan = some sp ∧
    sp ≠ p ∧
    s.dev.dramBusy = false :=
  ⟨0, 5, [59], [100], [0], at' (twoChans (di { plan with baseWindow := ⟨[(0, [100])]⟩ })), rfl, rfl,
    by decide +kernel, rfl, by decide +kernel, by decide +kernel, by decide +kernel, by decide +kernel,
    by decide +kernel, by decide +kernel, by decide +kernel, by decide +kernel⟩

theorem meets_tcamMarginTest : ∃ (k b n m : Nat) (s : State), s.On ∧
    s.Settled ∧
    k < 7 ∧
    b < 16 ∧
    s.dev.island.baseMargin.get? (k * 16 + b) = some m ∧
    n ≤ m ∧
    m ≤ n + 10 :=
  ⟨6, 15, 10, 20, at' (di { plan with baseMargin := ⟨[(111, 20)]⟩ }), rfl, rfl, by decide +kernel, by decide +kernel,
    rfl, by decide +kernel, by decide +kernel⟩

theorem meets_flashOpCheck : ∃ (_c : Nat) (r : FlashReq) (t : Nat) (s : State), s.Settled ∧
    s.dev.island.busy = none ∧
    r.op = .pageProgram ∧
    nextFlash (fun x => x.recheckAt.isNone) s.dev.island.waiting = some r ∧
    r.use = .bootEpoch t :=
  ⟨0, page (.bootEpoch 7), 7, at' (di { plan with waiting := [page (.bootEpoch 7)] }), rfl, by decide +kernel,
    by decide +kernel, by decide +kernel, by decide +kernel⟩

theorem meets_flashDeferRecheck : ∃ (_c t v : Nat) (r : FlashReq) (s : State), s.Settled ∧
    s.dev.island.busy = none ∧
    s.dev.island.waiting = [r] ∧
    r.recheckAt = some t ∧
    t ≤ s.dev.now ∧
    r.use = .bootEpoch v :=
  ⟨2900, 300000000000, 7, deferred, at' (di { plan with config := hold, waiting := [deferred] }), rfl,
    by decide +kernel, by decide +kernel, by decide +kernel, by decide +kernel, by decide +kernel⟩

theorem meets_flashOpComplete : ∃ (v : Nat) (r : FlashReq) (s : State), s.Settled ∧
    s.dev.island.busy = some r ∧
    r.use = .bootEpoch v :=
  ⟨7, page (.bootEpoch 7), at' (di { plan with busy := some (page (.bootEpoch 7)) }), rfl, by decide +kernel,
    by decide +kernel⟩

theorem meets_flashOpComplete_2 : ∃ (h : HistoryRec) (r : FlashReq) (s : State), s.Settled ∧
    s.dev.island.busy = some r ∧
    r.use = .history h ∧
    h.kind ≠ 0 ∧
    s.dev.island.history.length < 16384 :=
  ⟨hist, page (.history hist), at' (di { plan with busy := some (page (.history hist)) }), rfl, by decide +kernel,
    by decide +kernel, by decide +kernel, by decide +kernel⟩

theorem meets_flashWriteDeadline : ∃ (key : Nat) (tok : Machine.Token) (r : FlashReq) (s : State), s.On ∧
    s.Settled ∧
    s.dev.island.waiting = [r] ∧
    r.use = .ownerKey key (some tok) ∧
    r.since + 10 * cyclesPerS ≤ s.dev.now ∧
    tok.boot = false ∧
    s.dev.coreUp tok.core = true ∧
    s.dev.canWrite tok.fn = true ∧
    (∃ y, s.dev.session tok.fn tok.session = some y ∧ y.serial = tok.serial) :=
  ⟨99, { tok with code := 0x1001 }, page (.ownerKey 99 (some { tok with code := 0x1001 })),
    at' (di { plan with waiting := [page (.ownerKey 99 (some { tok with code := 0x1001 }))] }), rfl, rfl,
    by decide +kernel, by decide +kernel, by decide +kernel, by decide +kernel, by decide +kernel,
    by decide +kernel, (by exact ⟨own, rfl, rfl⟩)⟩

theorem meets_powerFailAssert : ∃ (c : Nat) (s : State), s.Settled ∧
    s.dev.island.powerFail = false ∧
    s.dev.island.busy = none ∧
    s.dev.island.waiting = [] ∧
    mayStart s.dev.island.config c .postmortem = true ∧
    s.dev.freeSlot.isSome = true :=
  ⟨2900, at' (di { plan with config := hold, slots := ⟨[(0, pm 1), (1, pm 2)]⟩ }), rfl, by decide +kernel,
    by decide +kernel, by decide +kernel, by decide +kernel, by decide +kernel⟩

theorem meets_powerFailAssert_2 : ∃ (c : Nat) (s : State), s.Settled ∧
    s.dev.island.powerFail = false ∧
    s.dev.island.busy = none ∧
    (mayStart s.dev.island.config c .postmortem = false ∨ s.dev.freeSlot = none) :=
  ⟨2900, at' (di { plan with config := hold, slots := ⟨[(0, pm 1), (1, pm 2), (2, pm 3), (3, pm 4)]⟩ }), rfl,
    by decide +kernel, by decide +kernel, by decide +kernel⟩

theorem meets_powerFailDeassert : ∃ (s : State), s.Settled ∧
    s.dev.island.powerFail = true :=
  ⟨at' (di { plan with powerFail := true, slots := ⟨[(0, pm 0)]⟩ }), rfl, by decide +kernel⟩

theorem meets_postmortemBufferRefresh : ∃ (s : State), s.On ∧
    s.Settled ∧
    s.dev.planning = true :=
  ⟨at' base, rfl, rfl, by decide +kernel⟩

theorem meets_historyAppend : ∃ (k : Nat) (s : State), s.On ∧
    s.Settled ∧
    s.dev.planning = true ∧
    1 ≤ k ∧
    k ≤ 3 ∧
    (k = 1 → s.dev.gus.historyAt + 21600 * cyclesPerS ≤ s.dev.now) :=
  ⟨1, at' { base with now := 21600 * cyclesPerS }, rfl, rfl, by decide +kernel, by decide +kernel, by decide +kernel,
    by decide +kernel⟩

theorem meets_gusConfigSet : ∃ (h : Hdr) (r : GusConfigRec) (s : State) (x : Session), s.Serves { code := 0x1301, lenOk := exactly 16, maxBody := 0 } h x ∧
    s.Hears h ∧
    firstFail (gusConfigChecks (x.sends h) r) = none :=
  ⟨ask 16, hold, at' base, own, served_own _ _ _ rfl rfl rfl rfl rfl (by decide) (by decide),
    hears_fn _ _ rfl (by decide) rfl rfl, by decide +kernel⟩

theorem meets_gusStatusGet : ∃ (h : Hdr) (s : State) (x : Session), s.Serves { code := 0x1302, lenOk := exactly 0, maxBody := 2048, changes := false } h x ∧
    s.Hears h ∧
    x.role ≠ .tenant :=
  ⟨askM 0, at' base, mnt, served_mnt _ _ _ rfl rfl rfl rfl rfl rfl (by decide) (by decide),
    hears_fn _ _ rfl (by decide) rfl rfl, by decide +kernel⟩

theorem meets_gusHistoryRead : ∃ (h : Hdr) (_a n : Nat) (s : State) (x : Session), s.Serves { code := 0x1303, lenOk := exactly 6, maxBody := 15360, changes := false } h x ∧
    s.Hears h ∧
    x.role ≠ .tenant ∧
    1 ≤ n ∧
    n ≤ 60 :=
  ⟨askM 6, 16383, 60, at' (di { plan with history := [hist] }), mnt,
    served_mnt _ _ _ rfl rfl rfl rfl rfl rfl (by decide) (by decide), hears_fn _ _ rfl (by decide) rfl rfl,
    by decide +kernel, by decide +kernel, by decide +kernel⟩

theorem meets_gusPostmortemRead : ∃ (h : Hdr) (k : Nat) (r : PmRecord) (s : State) (x : Session), s.Serves { code := 0x1304, lenOk := exactly 1, maxBody := 16288, changes := false } h x ∧
    s.Hears h ∧
    x.role ≠ .tenant ∧
    k ≤ 3 ∧
    s.dev.island.slots.get? k = some r :=
  ⟨askM 1, 3, pm 9, at' (di { plan with slots := ⟨[(3, pm 9)]⟩ }), mnt,
    served_mnt _ _ _ rfl rfl rfl rfl rfl rfl (by decide) (by decide), hears_fn _ _ rfl (by decide) rfl rfl,
    by decide +kernel, by decide +kernel, rfl⟩

end Sys2Proof.Tests.Gusset
end

