-- ==== Sys2Proof/Tests/Hem.lean ====
section
/-! SUPPORT. For every clause of the statements about Hem, a state and operands that meet its hypotheses. -/

namespace Sys2Proof.Tests.Hem

set_option Elab.async false

open Sys2Proof Sys2Proof.Machine

/-- The base device with another Hem. -/
def hemDev (h : HemState) : Dev := { base with hem := h }
/-- A ToD message of zeros, its CRC by hand from Table 2-4. -/
def goodTod : List Nat := [0x54, 0x44, 1, 0, 0, 0, 0, 0, 0, 0, 0, 0, 0, 0, 229, 143]

theorem meets_hemTimeAdvance : ∃ (_n : Nat) (s : State), s.On :=
  ⟨3, at' base, rfl⟩

theorem meets_servoUpdate : ∃ (o a : Int) (s : State), s.On ∧
    s.dev.servoRuns = true ∧
    s.dev.hem.mode = .locked ∧
    o.natAbs ≤ 100 ∧
    a.natAbs ≤ s.dev.hem.io.slewMax :=
  ⟨-100, 5, at' (hemDev { HemState.reset with mode := .locked }), rfl, by decide +kernel, by decide +kernel,
    by decide +kernel, by decide +kernel⟩

theorem meets_servoUpdate_2 : ∃ (o _a : Int) (s : State), s.On ∧
    s.dev.servoRuns = true ∧
    s.dev.hem.mode = .acquiring ∧
    s.dev.hem.io.stepThreshold < o.natAbs ∧
    100 < o.natAbs :=
  ⟨10001, 0, at' (hemDev { HemState.reset with mode := .acquiring }), rfl, by decide +kernel, by decide +kernel,
    by decide +kernel, by decide +kernel⟩

theorem meets_sourceLost : ∃ (k : Nat) (s : State), s.On ∧
    k ≠ 0 ∧
    s.dev.hem.io.source = k ∧
    k ∈ s.dev.hem.valid ∧
    s.dev.hem.io.servoMode = 0 ∧
    s.dev.hem.mode = .locked :=
  ⟨3,
    at' (hemDev { HemState.reset with mode := .locked, valid := [3, 1], everLocked := true, io := { timeIoReset with source := 3 } }),
    rfl, by decide +kernel, by decide +kernel, by decide +kernel, by decide +kernel, by decide +kernel⟩

theorem meets_sourceValid : ∃ (k : Nat) (s : State), s.On ∧
    k ≠ 0 ∧
    s.dev.hem.io.source = k ∧
    s.dev.hem.io.servoMode = 0 ∧
    (s.dev.hem.mode = .freerun ∨ s.dev.hem.mode = .holdover) :=
  ⟨3, at' (hemDev { HemState.reset with io := { timeIoReset with source := 3 } }), rfl, by decide +kernel,
    by decide +kernel, by decide +kernel, by decide +kernel⟩

theorem meets_ppsInEdge : ∃ (s : State), s.On ∧
    (∀ t, s.dev.hem.ppsInAt = some t → t + 1500000000 ≤ s.dev.now) :=
  ⟨at' (hemDev { HemState.reset with ppsInAt := some 298500000000 }), rfl, opt_all (by decide)⟩

theorem meets_ppsInMissing : ∃ (s : State) (t : Nat), s.On ∧
    s.dev.hem.ppsInAt = some t ∧
    t + 3300000000 ≤ s.dev.now :=
  ⟨at' (hemDev { HemState.reset with ppsInAt := some 296700000000 }), 296700000000, rfl, by decide +kernel,
    by decide +kernel⟩

theorem meets_ppsOutEdge : ∃ (s : State), s.On ∧
    s.dev.hem.io.ppsOutFlags.testBit 0 = true ∧
    (s.dev.hem.mode ≠ .freerun ∨ s.dev.hem.io.ppsOutFlags.testBit 1 = true) ∧
    (∀ t, s.dev.hem.ppsOutAt = some t → t + 1500000000 ≤ s.dev.now) ∧
    s.dev.ppsTime % unitS < s.dev.hem.incr :=
  ⟨at' (hemDev { HemState.reset with mode := .locked, ppsOutAt := some 298500000000, io := { timeIoReset with ppsOutFlags := 1 } }),
    rfl, by decide +kernel, by decide +kernel, opt_all (by decide), by decide +kernel⟩

theorem meets_ppsOutPulseEnd : ∃ (s : State) (t : Nat), s.On ∧
    s.dev.hem.ppsOut = true ∧
    s.dev.hem.ppsOutAt = some t ∧
    t + 3 * s.dev.hem.io.ppsOutWidth ≤ s.dev.now :=
  ⟨at' (hemDev { HemState.reset with ppsOut := true, ppsOutAt := some 299700000000 }), 299700000000, rfl,
    by decide +kernel, by decide +kernel, by decide +kernel⟩

theorem meets_todTx : ∃ (s : State) (t : Nat), s.On ∧
    s.dev.hem.ppsOutAt = some t ∧
    s.dev.hem.io.todDir = 2 ∧
    t + 10 * cyclesPerMs ≤ s.dev.now ∧
    s.dev.hem.todFor ≠ some t :=
  ⟨at' (hemDev { HemState.reset with ppsOutAt := some 299970000000, io := { timeIoReset with todDir := 2 } }),
    299970000000, rfl, by decide +kernel, by decide +kernel, by decide +kernel, by decide +kernel⟩

theorem meets_todRx : ∃ (bs : List Nat) (s : State), s.On ∧
    s.dev.hem.io.todDir = 1 ∧
    todGood bs = true ∧
    s.dev.hem.ppsInAt ≠ none :=
  ⟨goodTod,
    at' (hemDev { HemState.reset with ppsInAt := some 299000000000, io := { timeIoReset with todDir := 1, source := 2 } }),
    rfl, by decide +kernel, (by decide +kernel), by decide +kernel⟩

theorem meets_todRx_2 : ∃ (bs : List Nat) (s : State), s.On ∧
    s.dev.hem.io.todDir = 1 ∧
    todGood bs = false :=
  ⟨[1, 2, 3], at' (hemDev { HemState.reset with io := { timeIoReset with todDir := 1, source := 2 } }), rfl,
    by decide +kernel, by decide +kernel⟩

theorem meets_synceResume : ∃ (s : State) (t : Nat), s.On ∧
    s.dev.hem.sync0.relockAt = some t ∧
    t + 100 * cyclesPerMs ≤ s.dev.now :=
  ⟨at' (hemDev { HemState.reset with sync0 := { running := false, relockAt := some 299700000000 } }), 299700000000,
    rfl, by decide +kernel, by decide +kernel⟩

theorem meets_synceResume_2 : ∃ (s : State) (t : Nat), s.On ∧
    s.dev.hem.sync1.relockAt = some t ∧
    t + 100 * cyclesPerMs ≤ s.dev.now :=
  ⟨at' (hemDev { HemState.reset with sync1 := { running := false, relockAt := some 299700000000 } }), 299700000000,
    rfl, by decide +kernel, by decide +kernel⟩

theorem meets_ptpSettingEffect : ∃ (p : Nat) (x : PtpPort) (s : State), s.On ∧
    s.dev.hem.ptpNextRx.get? p = some x ∧
    (s.dev.port p).rxFrame = none :=
  ⟨95, { PtpPort.reset with flags := 3 },
    at' (hemDev { HemState.reset with ptpNextRx := ⟨[(95, { PtpPort.reset with flags := 3 })]⟩ }), rfl, rfl,
    by decide +kernel⟩

theorem meets_ptpSettingEffect_2 : ∃ (p : Nat) (x : PtpPort) (s : State), s.On ∧
    s.dev.hem.ptpNextTx.get? p = some x ∧
    (s.dev.port p).txFrame = none :=
  ⟨95, { PtpPort.reset with flags := 3 },
    at' (hemDev { HemState.reset with ptpNextTx := ⟨[(95, { PtpPort.reset with flags := 3 })]⟩ }), rfl, rfl,
    by decide +kernel⟩

theorem meets_ptpPortSet : ∃ (h : Hdr) (r : PtpPortRec) (s : State) (x : Session), s.Serves { code := 0x0201, lenOk := exactly 12, maxBody := 0 } h x ∧
    s.Hears h ∧
    x.role = .owner ∧
    r.port ≤ 95 ∧
    (r.flags.testBit 0 = true → bits r.flags 1 3 ≠ 0) ∧
    r.ingressAsym.natAbs ≤ 2 ^ 31 ∧
    r.egressAsym.natAbs ≤ 2 ^ 31 :=
  ⟨ask 12, { port := 95, flags := 3, domain := 24, ingressAsym := -2147483648, egressAsym := 2147483648 }, at' base,
    own, served_own _ _ _ rfl rfl rfl rfl rfl (by decide) (by decide), hears_fn _ _ rfl (by decide) rfl rfl,
    by decide +kernel, by decide +kernel, by decide +kernel, by decide +kernel, by decide +kernel⟩

theorem meets_timeStatusGet : ∃ (h : Hdr) (s : State) (x : Session), s.Serves { code := 0x0202, lenOk := exactly 0, maxBody := 32, open0 := true, changes := false } h x ∧
    s.Hears h ∧
    s.dev.hem.io.source = 0 :=
  ⟨ask 0, at' base, own, served_own _ _ _ rfl rfl rfl rfl rfl (by decide) (by decide),
    hears_fn _ _ rfl (by decide) rfl rfl, by decide +kernel⟩

theorem meets_timeIoSet : ∃ (h : Hdr) (r : TimeIoRec) (s : State) (x : Session), s.Serves { code := 0x0203, lenOk := exactly 36, maxBody := 0 } h x ∧
    s.Hears h ∧
    x.role = .owner ∧
    timeIoBad r = false ∧
    r.servoMode = s.dev.hem.io.servoMode :=
  ⟨ask 36, { timeIoReset with ppsOutFlags := 7 }, at' base, own,
    served_own _ _ _ rfl rfl rfl rfl rfl (by decide) (by decide), hears_fn _ _ rfl (by decide) rfl rfl,
    by decide +kernel, by decide +kernel, by decide +kernel⟩

theorem meets_timeAdjust : ∃ (h : Hdr) (r : TimeAdjustRec) (s : State) (x : Session), s.Serves { code := 0x0204, lenOk := exactly 24, maxBody := 0 } h x ∧
    s.Hears h ∧
    x.role = .owner ∧
    r.op = 3 ∧
    timeAdjustBad r = false ∧
    s.dev.hem.io.servoMode = 1 :=
  ⟨ask 24, { op := 3, state := 0, value := 0, nanoseconds := 0, fraction := 0, freqAdj := -51200000 },
    at' (hemDev { HemState.reset with io := { timeIoReset with servoMode := 1 } }), own,
    served_own _ _ _ rfl rfl rfl rfl rfl (by decide) (by decide), hears_fn _ _ rfl (by decide) rfl rfl,
    by decide +kernel, by decide +kernel, by decide +kernel, by decide +kernel⟩

theorem meets_hemCountersGet : ∃ (h : Hdr) (s : State) (x : Session), s.Serves { code := 0x0205, lenOk := exactly 0, maxBody := 2048, changes := false } h x ∧
    s.Hears h ∧
    x.role ≠ .tenant :=
  ⟨askM 0, at' base, mnt, served_mnt _ _ _ rfl rfl rfl rfl rfl rfl (by decide) (by decide),
    hears_fn _ _ rfl (by decide) rfl rfl, by decide +kernel⟩

end Sys2Proof.Tests.Hem
end

