-- ==== Sys2Proof/Tests/Lining.lean ====
section
/-! SUPPORT. For every clause of the statements about Lining, a state and operands that meet its hypotheses. -/

namespace Sys2Proof.Tests.Lining

set_option Elab.async false

open Sys2Proof Sys2Proof.Machine

/-- A frame record, an offer of a marker, and tenancy 3's capture. -/
def rec0 : LinRec :=
  { sleeve := 0, stamp := .zero, seq := 1, poisoned := false, body := .frame 9 0 3 false false false false false 0 0 16383 0 64 4 0 64 plainBytes }
def offer : LinOffer := { data := { rec0 with body := .hook 5 }, fid := none, known := true }
def armRec : RecArmRec :=
  { sleeveMask := 1, mode := 0, flags := 0, capUnits := 12, ports := 0, ratePps := 1000, preDepth := 24000, postDepth := 576, trigger := 0, eventCode := 0, refValue := 0, refMask := 0, dropMask := 0, trigRef := 0, trigDropMask := 0 }
def cap (st : CapState) : Capture :=
  { state := st, data := armRec, key := 7, level := { level := 64 * 3000000000, at' := 300000000000 }, offers := [offer], records := [(0, rec0)], nextIndex := 1, ready := 0, lost := 0, lostCause := 0, lostSleeve := 0, overwritten := 0, left := none, snapshots := ⟨[(0, .empty)]⟩ }
def lining (c : Capture) : LiningState :=
  { LiningState.reset with storeMib := 12, quotas := ⟨[(3, 12)]⟩, rates := ⟨[(3, 1000)]⟩, epochs := ⟨[(3, 5)]⟩, captures := ⟨[(3, c)]⟩, ring := [(3, 0)] }
def linDev (l : LiningState) : Dev := { base with lining := l }
/-- A ring of `n` records. -/
def full (n : Nat) : List (Nat × Nat) := List.replicate n (3, 0)
theorem full_length (n : Nat) : (full n).length = n := List.length_replicate
def world0 : World :=
  { flow := .none, flowProfiles := .none, tcam := .none, tcamProfiles := .none, patterns := .none, actions := .none, bindings := .none, rels := .none, salt := 0 }
def runRec : ReplayRunRec := { liveSleeve := 0, replaySleeve := 6, pool := 2, flags := 0, firstIndex := 0, count := 0 }
def rep (todo : List (Nat × LinRec)) (w r : Bool) : Replay :=
  { tenancy := 3, token := tok, data := runRec, todo := todo, world := world0, loaded := 0, waiting := w, restoring := r, stopped := false, stepFix := 0, issued := 0, compared := 0, classes := [0, 0, 0, 0, 0] }
def repDev (r : Replay) : Dev := linDev { lining (cap .stopped) with replays := [r] }
def here : LinRec := { rec0 with body := .frame 9 0 3 false false false false false 0 0 0 0 64 4 0 64 plainBytes }

theorem meets_liningRecordWrite : ∃ (t : Nat) (c : Capture) (o : LinOffer) (s : State), s.On ∧
    s.dev.lining.captures.get? t = some c ∧
    c.offers.find? (fun o => o.known) = some o ∧
    c.records' = true ∧
    lossCause s.dev c o true = 0 ∧
    c.lost = 0 ∧
    c.data.mode = 0 ∧
    c.records.length + 1 < s.dev.recordArea t c.data.sleeveMask ∧
    c.data.trigger = 0 ∧
    o.fid = none :=
  ⟨3, cap .running, offer, at' (linDev (lining (cap .running))), rfl, rfl, by decide +kernel, by decide +kernel,
    by decide +kernel, by decide +kernel, by decide +kernel, by decide +kernel, by decide +kernel,
    by decide +kernel⟩

theorem meets_liningRecordWrite_2 : ∃ (t : Nat) (served : Bool) (c : Capture) (o : LinOffer) (s : State), s.On ∧
    s.dev.lining.captures.get? t = some c ∧
    c.offers.find? (fun o => o.known) = some o ∧
    c.records' = true ∧
    lossCause s.dev c o served = 2 ∧
    o.fid = none :=
  ⟨3, true, cap .running, offer, at' (linDev { lining (cap .running) with ring := full 65536 }), rfl, rfl,
    by decide +kernel, by decide +kernel,
    (by simp [lossCause, full_length, linDev, lining, LiningState.reset, at', cap, armRec, Capture.tokens, Tokens.now, base]),
    by decide +kernel⟩

theorem meets_liningRingDrain : ∃ (t i : Nat) (rest : List (Nat × Nat)) (c : Capture) (s : State), s.On ∧
    s.Settled ∧
    s.dev.lining.ring = (t, i) :: rest ∧
    s.dev.lining.captures.get? t = some c ∧
    (c.records.any fun r => r.1 = i) = true ∧
    s.dev.physical (unitChannel (s.dev.recordUnit t i)) = none :=
  ⟨3, 0, [], cap .running, at' (linDev (lining (cap .running))), rfl, rfl, by decide +kernel, rfl, by decide +kernel,
    by decide +kernel⟩

theorem meets_snapshotSweepDone : ∃ (t : Nat) (c : Capture) (s : State), s.On ∧
    s.Settled ∧
    s.dev.lining.captures.get? t = some c ∧
    c.state = .armed :=
  ⟨3, cap .armed, at' (linDev (lining (cap .armed))), rfl, rfl, rfl, by decide +kernel⟩

theorem meets_replayEpochSwitch : ∃ (k i : Nat) (x : LinRec) (rest : List (Nat × LinRec)) (r : Replay) (w : World) (s : State), s.On ∧
    s.dev.replayOn k = some r ∧
    r.todo = (i, x) :: rest ∧
    r.waiting = true ∧
    s.dev.replayBefore k .yoke = false ∧
    s.dev.worldAt x.body.epoch r.world.salt = some w :=
  ⟨6, 0, here, [], rep [(0, here)] true false, (base.worldAt 0 0).getD world0,
    at' (repDev (rep [(0, here)] true false)), rfl, by decide +kernel, by decide +kernel, by decide +kernel,
    by decide +kernel, by decide +kernel⟩

theorem meets_replayStreamEnd : ∃ (k : Nat) (r : Replay) (s : State), s.On ∧
    s.dev.replayOn k = some r ∧
    r.todo = [] ∧
    s.dev.replayBefore k .yoke = false :=
  ⟨6, rep [] false false, at' (repDev (rep [] false false)), rfl, by decide +kernel, by decide +kernel,
    by decide +kernel⟩

theorem meets_replayRestoreDone : ∃ (k : Nat) (r : Replay) (s : State), s.On ∧
    s.dev.replayOn k = some r ∧
    r.restoring = true :=
  ⟨6, rep [] false true, at' (repDev (rep [] false true)), rfl, by decide +kernel, by decide +kernel⟩

theorem meets_recStoreSet : ∃ (h : Hdr) (r : RecStoreRec) (s : State) (x : Session), s.Serves { code := 0x0F01, lenOk := exactly 104, maxBody := 0 } h x ∧
    s.Hears h ∧
    firstFail (recStoreChecks (x.sends h) s.dev r) = none ∧
    changedQuotas s.dev r = [] :=
  ⟨ask 104, { storeMib := 0, quotaMib := List.replicate 16 0, ratePps := List.replicate 16 6250000 }, at' base, own,
    served_own _ _ _ rfl rfl rfl rfl rfl (by decide) (by decide), hears_fn _ _ rfl (by decide) rfl rfl,
    by decide +kernel, by decide +kernel⟩

theorem meets_recStoreSet_2 : ∃ (h : Hdr) (r : RecStoreRec) (s : State) (x : Session), s.Serves { code := 0x0F01, lenOk := exactly 104, maxBody := 0 } h x ∧
    firstFail (recStoreChecks (x.sends h) s.dev r) = none ∧
    changedQuotas s.dev r ≠ [] ∧
    s.dev.turnReady = false :=
  ⟨ask 104, { storeMib := 0, quotaMib := List.replicate 16 0, ratePps := List.replicate 16 0 },
    at' { linDev (lining (cap .stopped)) with ten := { base.ten with issuedAt := List.replicate 16 299999999999 } },
    own, served_own _ _ _ rfl rfl rfl rfl rfl (by decide) (by decide), by decide +kernel, by decide +kernel,
    by decide +kernel⟩

theorem meets_recArm : ∃ (h : Hdr) (r : RecArmRec) (s : State) (x : Session), s.Serves { code := 0x0F02, lenOk := exactly 64, maxBody := 0, early := false } h x ∧
    s.Hears h ∧
    firstFail (recArmChecks (x.sends h) s.dev r) = none ∧
    s.dev.ten.rngOk = true ∧
    s.Settled :=
  ⟨askT 64, armRec,
    at' { linDev { lining (cap .stopped) with captures := .none, ring := [] } with dram := { DramState.reset with enabled := true } },
    ten, served_ten _ _ _ rfl rfl rfl rfl rfl (by decide) (by decide), hears_fn _ _ rfl (by decide) rfl rfl,
    by decide +kernel, by decide +kernel, rfl⟩

theorem meets_recTrigger : ∃ (h : Hdr) (c : Capture) (s : State) (x : Session), s.Serves { code := 0x0F03, lenOk := exactly 0, maxBody := 0 } h x ∧
    s.Hears h ∧
    firstFail (ownChecks (x.sends h) s.dev false) = none ∧
    s.dev.lining.captures.get? x.tenancy = some c ∧
    c.state = .running ∧
    c.left = none :=
  ⟨askT 0, cap .running, at' (linDev (lining (cap .running))), ten,
    served_ten _ _ _ rfl rfl rfl rfl rfl (by decide) (by decide), hears_fn _ _ rfl (by decide) rfl rfl,
    by decide +kernel, rfl, by decide +kernel, by decide +kernel⟩

theorem meets_recStop : ∃ (h : Hdr) (c : Capture) (s : State) (x : Session), s.Serves { code := 0x0F04, lenOk := exactly 0, maxBody := 0 } h x ∧
    s.Hears h ∧
    firstFail (ownChecks (x.sends h) s.dev false) = none ∧
    s.dev.lining.captures.get? x.tenancy = some c ∧
    c.records' = true :=
  ⟨askT 0, cap .running, at' (linDev (lining (cap .running))), ten,
    served_ten _ _ _ rfl rfl rfl rfl rfl (by decide) (by decide), hears_fn _ _ rfl (by decide) rfl rfl,
    by decide +kernel, rfl, by decide +kernel⟩

theorem meets_recClear : ∃ (h : Hdr) (s : State) (x : Session), s.Serves { code := 0x0F05, lenOk := exactly 0, maxBody := 0 } h x ∧
    s.Hears h ∧
    firstFail (ownChecks (x.sends h) s.dev (s.dev.replaying x.tenancy)) = none :=
  ⟨askT 0, at' (linDev (lining (cap .running))), ten, served_ten _ _ _ rfl rfl rfl rfl rfl (by decide) (by decide),
    hears_fn _ _ rfl (by decide) rfl rfl, by decide +kernel⟩

theorem meets_recExport : ∃ (h : Hdr) (r : RecExportRec) (s : State) (x : Session), s.Serves { code := 0x0F06, lenOk := exactly 24, maxBody := 16, canAsync := true } h x ∧
    firstFail (recExportChecks (x.sends h) s.dev r) = none :=
  ⟨askT 24, { firstIndex := 0, count := 1, keySlot := 0, hostAddr := 4096 },
    at' { linDev (lining (cap .stopped)) with cipher := { CipherState.reset with started := true, bootEpoch := 1, bulkKeys := ⟨[(0, { BulkKey.reset with loaded := true, key := 0x99, gen := 1 })]⟩ } },
    ten, served_ten _ _ _ rfl rfl rfl rfl rfl (by decide) (by decide), by decide +kernel⟩

theorem meets_recStatusGet : ∃ (h : Hdr) (s : State) (x : Session), s.Serves { code := 0x0F07, lenOk := exactly 0, maxBody := 2048, changes := false } h x ∧
    s.Hears h ∧
    x.role = .maint :=
  ⟨askM 0, at' (linDev (lining (cap .running))), mnt,
    served_mnt _ _ _ rfl rfl rfl rfl rfl rfl (by decide) (by decide), hears_fn _ _ rfl (by decide) rfl rfl,
    by decide +kernel⟩

theorem meets_replayRun : ∃ (h : Hdr) (r : ReplayRunRec) (c : Capture) (s : State) (x : Session), s.Serves { code := 0x0F08, lenOk := exactly 24, maxBody := 56, canAsync := true, early := false } h x ∧
    firstFail (replayRunChecks (x.sends h) s.dev r) = none ∧
    s.dev.lining.captures.get? x.tenancy = some c :=
  ⟨askT 24, runRec, cap .stopped,
    at' (withYoke pools { linDev (lining (cap .stopped)) with arch := { sleeves := ⟨[(6, { SleeveState.reset with enabled := true })]⟩ } }),
    ten, served_ten _ _ _ rfl rfl rfl rfl rfl (by decide) (by decide), by decide +kernel, rfl⟩

theorem meets_replayAbort : ∃ (h : Hdr) (k : Nat) (r : Replay) (s : State) (x : Session), s.Serves { code := 0x0F09, lenOk := exactly 1, maxBody := 0 } h x ∧
    s.Hears h ∧
    k ≤ 6 ∧
    s.dev.replayOn k = some r ∧
    x.role = .owner :=
  ⟨ask 1, 6, rep [] false false, at' (repDev (rep [] false false)), own,
    served_own _ _ _ rfl rfl rfl rfl rfl (by decide) (by decide), hears_fn _ _ rfl (by decide) rfl rfl,
    by decide +kernel, by decide +kernel, by decide +kernel⟩

theorem meets_replayReportRead : ∃ (h : Hdr) (n : Nat) (s : State) (x : Session), s.Serves { code := 0x0F0A, lenOk := exactly 2, maxBody := 2048, changes := false } h x ∧
    s.Hears h ∧
    1 ≤ n ∧
    n ≤ 64 ∧
    x.role ≠ .maint ∧
    staleAllotment (x.sends h) s.dev = false :=
  ⟨askT 2, 64,
    at' (linDev { lining (cap .stopped) with reports := ⟨[(3, [{ index := 0, recorded := 1, replayed := 2, cls := 3 }])]⟩ }),
    ten, served_ten _ _ _ rfl rfl rfl rfl rfl (by decide) (by decide), hears_fn _ _ rfl (by decide) rfl rfl,
    by decide +kernel, by decide +kernel, by decide +kernel, by decide +kernel⟩

end Sys2Proof.Tests.Lining
end

