-- ==== Sys2Proof/Tests/Mailbox.lean ====
section
/-! SUPPORT. For every clause of the statements about Mailbox, a state and operands that meet its hypotheses. -/

namespace Sys2Proof.Tests.Mailbox

set_option Elab.async false

open Sys2Proof Sys2Proof.Machine

/-- The mailbox of VF0 or of another function as given. -/
def mb (f : Nat) (m : Mailbox) : Dev := { base with mbx := { boxes with fns := boxes.fns.set f m } }
def tbox : Mailbox := box ten
/-- No session of such a mailbox holds events. -/
theorem quiet (d : Dev) (f : Nat) (m : Mailbox) (hm : d.mbox f = m) (hz : m.zero.held = [] ∧ m.zero.lost = 0)
    (hs : ∀ k x, m.sealed.get? k = some x → x.held = [] ∧ x.lost = 0) :
    ∀ k x, d.session f k = some x → x.held = [] ∧ x.lost = 0 := by
  intro k x h
  simp only [Dev.session, hm] at h
  split at h
  · split at h
    · cases h; exact hz
    · cases h
  · exact hs k x h
theorem quiet_box (d : Dev) (f : Nat) (y : Session) (m : Mailbox) (hm : d.mbox f = m) (h1 : m.zero = .zero)
    (h2 : m.sealed = ⟨[(1, y)]⟩) (hy : y.held = [] ∧ y.lost = 0) :
    ∀ k x, d.session f k = some x → x.held = [] ∧ x.lost = 0 :=
  quiet d f m hm (by rw [h1]; exact ⟨rfl, rfl⟩) (by
    rw [h2]
    intro k x h
    simp only [Tab.get?, List.lookup] at h
    split at h
    · cases h; exact hy
    · cases h)
def offReq : Mailbox := { tbox with req := { Ring.reset with size := 14, tail := 5 } }
def offRsp : Mailbox := { tbox with rsp := { Ring.reset with size := 6, head := 9 } }
def offRx : Mailbox := { tbox with rx := { Ring.reset with size := 16, head := 9 } }
def late : RingIrq := { vector := 3, countM1 := 7, timeUs := 1, waiting := 1, oldest := 299999997000 }
def beat : Mailbox := { tbox with hbTimeout := 1, hbSince := 299997000000 }
def hi (n : Nat) : Hello := { hostNonce := 4, draw := 9, since := n }
def opening : SessionOpenRec :=
  { role := 0, tenancy := 0, hostEph := 8, signer := Config.digest 6, sigOk := true, token := { version := 0, scope := 0, flags := 0, deviceOk := false, subject := 0, notAfter := 0, maxDurationS := 0, nonce := 0, sigOk := false } }
def greeted : Dev := { mb 0 { box own with hello := some (hi 299999000000) } with ten := { base.ten with ownerKey := some 6 } }
theorem greeted_ok : firstFail (sessionOpenChecks (Session.zero.sends (askZero 428)) (at' greeted).dev opening) = none := by
  have h1 : (at' greeted).dev.wrongPlace (Session.zero.sends (askZero 428)) opening = false := by decide
  have h2 : (at' greeted).dev.liveHello (Session.zero.sends (askZero 428)).fn = some (hi 299999000000) := by decide +kernel
  have h3 : (at' greeted).dev.roleKey opening = some (Config.digest 6) := rfl
  have h4 : ((at' greeted).dev.mbox (Session.zero.sends (askZero 428)).fn).sealed = ⟨[(1, own)]⟩ := rfl
  simp only [sessionOpenChecks, h1, h2, h3, h4]
  simp only [opening, bne_self_eq_false]
  rfl

theorem meets_reqRingEnableWrite : ∃ (f : Nat) (s : State), s.On ∧
    s.Settled ∧
    s.dev.fnExists f = true ∧
    (s.dev.mbox f).req.enabled = false ∧
    6 ≤ (s.dev.mbox f).req.size ∧
    (s.dev.mbox f).req.size ≤ 14 :=
  ⟨2, at' (mb 2 offReq), rfl, rfl, by decide +kernel, by decide +kernel, by decide +kernel, by decide +kernel⟩

theorem meets_reqRingEnableWrite_2 : ∃ (f : Nat) (s : State), s.On ∧
    s.dev.fnExists f = true :=
  ⟨0, at' base, rfl, by decide +kernel⟩

theorem meets_rspRingEnableWrite : ∃ (f : Nat) (s : State), s.On ∧
    s.Settled ∧
    s.dev.fnExists f = true ∧
    (s.dev.mbox f).rsp.enabled = false ∧
    6 ≤ (s.dev.mbox f).rsp.size ∧
    (s.dev.mbox f).rsp.size ≤ 14 ∧
    (∀ k x, s.dev.session f k = some x → x.held = [] ∧ x.lost = 0) :=
  ⟨2, at' (mb 2 offRsp), rfl, rfl, by decide +kernel, by decide +kernel, by decide +kernel, by decide +kernel,
    quiet_box _ _ ten offRsp rfl rfl rfl ⟨rfl, rfl⟩⟩

theorem meets_rxRingEnableWrite : ∃ (f : Nat) (s : State), s.On ∧
    s.Settled ∧
    s.dev.fnExists f = true ∧
    (s.dev.mbox f).rx.enabled = false ∧
    6 ≤ (s.dev.mbox f).rx.size :=
  ⟨2, at' (mb 2 offRx), rfl, rfl, by decide +kernel, by decide +kernel, by decide +kernel⟩

theorem meets_reqRingEnableWrite_3 : ∃ (f : Nat) (s : State), s.On ∧
    s.Settled ∧
    s.dev.fnExists f = true ∧
    ((s.dev.mbox f).req.size < 6 ∨ 14 < (s.dev.mbox f).req.size) ∧
    ((s.dev.mbox f).rsp.size < 6 ∨ 14 < (s.dev.mbox f).rsp.size) ∧
    (s.dev.mbox f).rx.size < 6 :=
  ⟨2,
    at' (mb 2 { box ten with req := { ring with size := 5 }, rsp := { ring with size := 15 }, rx := { ring with size := 5 } }),
    rfl, rfl, by decide +kernel, by decide +kernel, by decide +kernel, by decide +kernel⟩

theorem meets_reqDoorbell : ∃ (f tail : Nat) (s : State), s.On ∧
    s.Settled ∧
    s.dev.fnExists f = true ∧
    (s.dev.mbox f).req.enabled = true ∧
    (s.dev.mbox f).halted = false ∧
    s.dev.served f = true ∧
    s.dev.mayRequest f = true ∧
    tail < 2 ^ 32 ∧
    (tail + 2 ^ 32 - (s.dev.mbox f).req.head) % 2 ^ 32 ≤ 2 ^ (s.dev.mbox f).req.size ∧
    (s.dev.mbox f).fetched ≠ tail ∧
    s.dev.host.reads = [] ∧
    s.dev.host.waitingReads = [] ∧
    s.dev.host.quarantine = [] :=
  ⟨2, 16384, at' base, rfl, rfl, by decide +kernel, by decide +kernel, by decide +kernel, by decide +kernel,
    by decide +kernel, by decide +kernel, by decide +kernel, by decide +kernel, by decide +kernel,
    by decide +kernel, by decide +kernel⟩

theorem meets_reqDoorbell_2 : ∃ (f tail : Nat) (_u : List (Nat × Hdr)) (s : State), s.On ∧
    s.Settled ∧
    s.dev.fnExists f = true ∧
    (s.dev.mbox f).req.enabled = true ∧
    (s.dev.mbox f).halted = false ∧
    (s.dev.mbox f).hostLost = false ∧
    s.dev.served f = true ∧
    tail < 2 ^ 32 ∧
    2 ^ (s.dev.mbox f).req.size < (tail + 2 ^ 32 - (s.dev.mbox f).req.head) % 2 ^ 32 :=
  ⟨2, 16385, [], at' base, rfl, rfl, by decide +kernel, by decide +kernel, by decide +kernel, by decide +kernel,
    by decide +kernel, by decide +kernel, by decide +kernel⟩

theorem meets_rspHeadWrite : ∃ (f _i : Nat) (s : State), s.On ∧
    s.Settled ∧
    s.dev.fnExists f = true ∧
    (s.dev.mbox f).unknown = [] ∧
    (∀ k x, s.dev.session f k = some x → x.held = [] ∧ x.lost = 0) :=
  ⟨2, 3, at' base, rfl, rfl, by decide +kernel, by decide +kernel, quiet_box _ _ ten tbox rfl rfl rfl ⟨rfl, rfl⟩⟩

theorem meets_rxHeadWrite : ∃ (f _i : Nat) (s : State), s.On ∧
    s.Settled ∧
    s.dev.fnExists f = true :=
  ⟨2, 3, at' base, rfl, rfl, by decide +kernel⟩

theorem meets_irqCoalesceTimeout : ∃ (f : Nat) (s : State), s.On ∧
    s.Settled ∧
    (s.dev.mbox f).irqRsp.late s.dev.now = true ∧
    (s.dev.fend f).irqStatus.testBit 0 = false ∧
    (s.dev.fend f).irqMask.testBit 0 = false ∧
    (s.dev.mbox f).irqRsp.vector ∉ (s.dev.fend f).msixMasked ∧
    s.dev.mayRequest f = true :=
  ⟨2, at' (mb 2 { tbox with irqRsp := late }), rfl, rfl, by decide +kernel, by decide +kernel, by decide +kernel,
    by decide +kernel, by decide +kernel⟩

theorem meets_irqCoalesceTimeout_2 : ∃ (f : Nat) (s : State), s.On ∧
    s.Settled ∧
    (s.dev.mbox f).irqRx.late s.dev.now = true :=
  ⟨2, at' (mb 2 { tbox with irqRx := late }), rfl, rfl, by decide +kernel⟩

theorem meets_bootGo : ∃ (f : Nat) (s : State), s.On ∧
    s.Settled ∧
    f < 2 ∧
    (s.dev.mbox f).bootBytes ≤ 256 :=
  ⟨1, at' base, rfl, rfl, by decide +kernel, by decide +kernel⟩

theorem meets_bootDoneClear : ∃ (f : Nat) (s : State), s.On ∧
    s.Settled ∧
    s.dev.fnExists f = true :=
  ⟨1, at' base, rfl, rfl, by decide +kernel⟩

theorem meets_heartbeatKick : ∃ (f : Nat) (s : State), s.On ∧
    s.Settled ∧
    s.dev.fnExists f = true :=
  ⟨2, at' base, rfl, rfl, by decide +kernel⟩

theorem meets_heartbeatExpiry : ∃ (f : Nat) (s : State), s.On ∧
    s.Settled ∧
    s.dev.fnExists f = true ∧
    (s.dev.mbox f).hbTimeout ≠ 0 ∧
    (s.dev.mbox f).hostLost = false ∧
    (s.dev.mbox f).hbSince + (s.dev.mbox f).hbTimeout * cyclesPerMs ≤ s.dev.now :=
  ⟨2, at' (mb 2 beat), rfl, rfl, by decide +kernel, by decide +kernel, by decide +kernel, by decide +kernel⟩

theorem meets_hostLostClear : ∃ (f : Nat) (s : State), s.On ∧
    s.Settled ∧
    s.dev.fnExists f = true :=
  ⟨2, at' (mb 2 { tbox with hostLost := true }), rfl, rfl, by decide +kernel⟩

theorem meets_watchdogExpiry : ∃ (c : Nat) (s : State), s.On ∧
    c < 5 ∧
    s.dev.outOfService (16 + c) = false :=
  ⟨4, at' base, rfl, by decide +kernel, by decide +kernel⟩

theorem meets_coreTakeover : ∃ (k : Nat) (ks : List Nat) (p : Nat) (s : State), s.On ∧
    s.dev.mbx.absent = k :: ks ∧
    s.dev.mbx.spare = some p :=
  ⟨0, [2], 4, at' { base with mbx := { boxes with absent := [0, 2] } }, rfl, by decide +kernel, by decide +kernel⟩

theorem meets_helloExpiry : ∃ (f : Nat) (x : Hello) (s : State), s.On ∧
    s.Settled ∧
    (s.dev.mbox f).hello = some x ∧
    x.since + 10 * cyclesPerS ≤ s.dev.now :=
  ⟨2, hi 270000000000, at' (mb 2 { tbox with hello := some (hi 270000000000) }), rfl, rfl, by decide +kernel,
    by decide +kernel⟩

theorem meets_sessionHello : ∃ (h : Hdr) (_n : Nat) (s : State) (x : Session), s.Serves { code := 0x1101, lenOk := exactly 32, maxBody := 320, open0 := true, changes := false } h x ∧
    s.Hears h ∧
    h.session = 0 ∧
    s.dev.ten.rngOk = true :=
  ⟨askZero 32, 4, at' base, Session.zero, served_zero _ _ _ rfl rfl rfl rfl rfl (by decide) (by decide) rfl,
    hears_fn _ _ rfl (by decide) rfl rfl, by decide +kernel, by decide +kernel⟩

theorem meets_sessionOpen : ∃ (h : Hdr) (r : SessionOpenRec) (e : Hello) (s : State) (x : Session), s.Serves { code := 0x1102, lenOk := exactly 428, maxBody := 4, open0 := true, changes := false } h x ∧
    s.Hears h ∧
    h.session = 0 ∧
    firstFail (sessionOpenChecks (x.sends h) s.dev r) = none ∧
    s.dev.liveHello h.fn = some e :=
  ⟨askZero 428, opening, hi 299999000000, at' greeted, Session.zero,
    served_hello _ _ _ (some (hi 299999000000)) rfl rfl rfl rfl (by decide) (by decide) (by decide) rfl,
    ⟨rfl, rfl⟩, by decide +kernel, greeted_ok, by decide +kernel⟩

theorem meets_sessionOpen_2 : ∃ (h : Hdr) (r : SessionOpenRec) (st : Status) (s : State) (x : Session), s.Serves { code := 0x1102, lenOk := exactly 428, maxBody := 4, open0 := true, changes := false } h x ∧
    s.Hears h ∧
    h.session = 0 ∧
    firstFail (sessionOpenChecks (x.sends h) s.dev r) = some st :=
  ⟨askZero 428, opening, .badState, at' base, Session.zero,
    served_zero _ _ _ rfl rfl rfl rfl rfl (by decide) (by decide) rfl, hears_fn _ _ rfl (by decide) rfl rfl,
    by decide +kernel, by decide +kernel⟩

theorem meets_sessionClose : ∃ (h : Hdr) (s : State) (x : Session), s.Serves { code := 0x1103, lenOk := exactly 0, maxBody := 0, changes := false } h x ∧
    s.Hears h ∧
    h.session ≠ 0 :=
  ⟨ask 0, at' base, own, served_own _ _ _ rfl rfl rfl rfl rfl (by decide) (by decide),
    hears_fn _ _ rfl (by decide) rfl rfl, by decide +kernel⟩

theorem meets_eventMaskSet : ∃ (h : Hdr) (_m : Nat) (s : State) (x : Session), s.Serves { code := 0x1104, lenOk := exactly 8, maxBody := 0, changes := false } h x ∧
    s.Hears h :=
  ⟨ask 8, 4294967295, at' base, own, served_own _ _ _ rfl rfl rfl rfl rfl (by decide) (by decide),
    hears_fn _ _ rfl (by decide) rfl rfl⟩

theorem meets_mbxStatsGet : ∃ (h : Hdr) (s : State) (x : Session), s.Serves { code := 0x1105, lenOk := exactly 0, maxBody := 2048, changes := false } h x ∧
    s.Hears h ∧
    x.role ≠ .tenant :=
  ⟨askM 0, at' base, mnt, served_mnt _ _ _ rfl rfl rfl rfl rfl rfl (by decide) (by decide),
    hears_fn _ _ rfl (by decide) rfl rfl, by decide +kernel⟩

end Sys2Proof.Tests.Mailbox
end

