-- ==== Sys2Proof/Tests/Meter.lean ====
section
/-! SUPPORT. For every clause of the statements about Meter, a state and operands that meet its hypotheses. -/

namespace Sys2Proof.Tests.Meter

set_option Elab.async false

open Sys2Proof Sys2Proof.Machine

/-- A binding of tenancy 3 at its index 4095, live in slot 0, and its device. -/
def bind10 : MeterBindRec :=
  { index := 4095, mode := 2, flags := 8, rate1 := 8000, rate2 := 400000000000, burst1 := 64, burst2 := 16777216, dscp := [0, 63, 0], pcp := [0, 7, 0], queue := [0, 15, 0] }
def bindDev (r : MeterBindRec) : Dev := { base with meter := { MeterState.reset with bindings := ⟨[(4095, { data := r, live := 1 })]⟩ } }
/-- Frame 9 with a flow hit on that context. -/
def metered : Frame := { pkt with phase := .meter, ctx := putAll 0 [(fTenancy, 3), (fFlowHit, 1), (fFlowCtx, 4095)] }
def plain10 : Frame := { metered with ctx := putAll 0 [(fTenancy, 3)] }
def coloured (c : Nat) : Frame := { metered with phase := .colour, meterCtx := some 4095, ctx := putAll metered.ctx [(fColour, c)] }
def remark10 : MeterBindRec := { bind10 with flags := 112 }

theorem meets_meterAccess : ∃ (fid i a : Nat) (r : MeterBindRec) (f : Frame) (s : State), s.Plain fid f .meter ∧
    fld f.ctx fFragState ≠ 5 ∧
    (let g := { f with ctx := putBits f.ctx 15 22 0 }; contextOf s.dev g = some i) ∧
    (let g := { f with ctx := putBits f.ctx 15 22 0 }; s.dev.absIndex (fld g.ctx fTenancy) 4 4096 i = some a) ∧
    (let g := { f with ctx := putBits f.ctx 15 22 0 }; s.dev.bindingAt a (fld g.ctx fVersion) = some r) :=
  ⟨9, 4095, 4095, bind10, metered, at' (withFrame metered (bindDev bind10)), ⟨rfl, rfl, rfl, rfl, rfl, fun _ => rfl⟩,
    by decide +kernel, by decide +kernel, by decide +kernel, by decide +kernel⟩

theorem meets_meterAccess_2 : ∃ (fid : Nat) (_ecc : Ecc) (f : Frame) (s : State), s.Plain fid f .meter ∧
    (let g := { f with ctx := putBits f.ctx 15 22 0 }; contextOf s.dev g = none) :=
  ⟨9, .uncorrectable, plain10, at' (withFrame plain10 base), ⟨rfl, rfl, rfl, rfl, rfl, fun _ => rfl⟩,
    by decide +kernel⟩

theorem meets_colourAction : ∃ (fid a : Nat) (r : MeterBindRec) (f : Frame) (s : State), s.Plain fid f .colour ∧
    f.meterCtx = some a ∧
    s.dev.bindingAt a (fld f.ctx fVersion) = some r ∧
    fld f.ctx fColour = 2 ∧
    r.flags % 128 / 8 = 1 :=
  ⟨9, 4095, bind10, coloured 2, at' (withFrame (coloured 2) (bindDev bind10)),
    ⟨rfl, rfl, rfl, rfl, rfl, fun _ => rfl⟩, by decide +kernel, by decide +kernel, by decide +kernel,
    by decide +kernel⟩

theorem meets_colourAction_2 : ∃ (fid a : Nat) (r : MeterBindRec) (f : Frame) (s : State), s.Plain fid f .colour ∧
    f.meterCtx = some a ∧
    s.dev.bindingAt a (fld f.ctx fVersion) = some r ∧
    r.flags.testBit 4 = true ∧
    r.flags.testBit 5 = true ∧
    r.flags.testBit 6 = true ∧
    fld f.ctx fColour = 1 :=
  ⟨9, 4095, remark10, coloured 1, at' (withFrame (coloured 1) (bindDev remark10)),
    ⟨rfl, rfl, rfl, rfl, rfl, fun _ => rfl⟩, by decide +kernel, by decide +kernel, by decide +kernel,
    by decide +kernel, by decide +kernel, by decide +kernel⟩

theorem meets_meterBind : ∃ (h : Hdr) (r : MeterBindRec) (s : State) (x : Session), s.Serves { code := 0x0A01, lenOk := exactly 44, maxBody := 0 } h x ∧
    s.Hears h ∧
    firstFail (meterBindChecks (x.sends h) s.dev r) = none :=
  ⟨askT 44, bind10, at' base, ten, served_ten _ _ _ rfl rfl rfl rfl rfl (by decide) (by decide),
    hears_fn _ _ rfl (by decide) rfl rfl, by decide +kernel⟩

theorem meets_meterUnbind : ∃ (h : Hdr) (i : Nat) (b : MeterBindRec) (s : State) (x : Session), s.Serves { code := 0x0A02, lenOk := exactly 2, maxBody := 0 } h x ∧
    s.Hears h ∧
    firstFail (meterUnbindChecks (x.sends h) s.dev i) = none ∧
    s.dev.bindingAt (s.dev.contextAbs x.tenancy i) s.dev.current = some b :=
  ⟨askT 2, 4095, bind10, at' (bindDev bind10), ten, served_ten _ _ _ rfl rfl rfl rfl rfl (by decide) (by decide),
    hears_fn _ _ rfl (by decide) rfl rfl, by decide +kernel, by decide +kernel⟩

theorem meets_meterTenancySet : ∃ (h : Hdr) (r : MeterTenancyRec) (s : State) (x : Session), s.Serves { code := 0x0A03, lenOk := exactly 28, maxBody := 0 } h x ∧
    s.Hears h ∧
    firstFail (meterTenancyChecks (x.sends h) s.dev r) = none :=
  ⟨askT 28, { flags := 3, untaggedColour := 2, nonipColour := 2, defaultCtx := 4095, pcpDeiMap := 0, dscpMap := 0 },
    at' base, ten, served_ten _ _ _ rfl rfl rfl rfl rfl (by decide) (by decide),
    hears_fn _ _ rfl (by decide) rfl rfl, by decide +kernel⟩

theorem meets_meterStatsGet : ∃ (h : Hdr) (_i : Nat) (s : State) (x : Session), s.Serves { code := 0x0A04, lenOk := exactly 2, maxBody := 2048, changes := false } h x ∧
    s.Hears h ∧
    x.role = .maint :=
  ⟨askM 2, 4095, at' base, mnt, served_mnt _ _ _ rfl rfl rfl rfl rfl rfl (by decide) (by decide),
    hears_fn _ _ rfl (by decide) rfl rfl, by decide +kernel⟩

theorem meets_meterStatsGet_2 : ∃ (h : Hdr) (i : Nat) (s : State) (x : Session), s.Serves { code := 0x0A04, lenOk := exactly 2, maxBody := 2048, changes := false } h x ∧
    s.Hears h ∧
    x.role = .tenant ∧
    s.dev.absIndex x.tenancy 4 4096 i = none :=
  ⟨askT 2, 4096, at' base, ten, served_ten _ _ _ rfl rfl rfl rfl rfl (by decide) (by decide),
    hears_fn _ _ rfl (by decide) rfl rfl, by decide +kernel, by decide +kernel⟩

end Sys2Proof.Tests.Meter
end

