-- ==== Sys2Proof/Tests/Micro.lean ====
section
/-! SUPPORT. For every clause of the statements about Micro, a state and operands that meet its hypotheses. -/

namespace Sys2Proof.Tests.Micro

set_option Elab.async false

open Sys2Proof Sys2Proof.Machine

/-- The device with other stage engines. -/
def microDev (m : MicroState) : Dev := { base with micro := m }
def engineTab (e : StageEngine) : Tab StageEngine := ⟨[(6 * 32 + 19, e)]⟩
def activ : Activation := { token := some tok, old := 1, deadline := 299999999999 }
/-- A loaded image with a path of tenancy 3. -/
def image8 : LoadedImage :=
  { digest := 77, words := [], bindings := [{ tenancy := 3, stage := 0, profile := 0, word := 3072 }], residences := [10], accepted := [3] }

theorem meets_hookGenDrained : ∃ (a : Activation) (s : State), s.On ∧
    s.dev.micro.activation = some a ∧
    s.dev.hookInFlight a.old = false :=
  ⟨activ, at' (microDev { MicroState.reset with activation := some activ }), rfl, by decide +kernel,
    by decide +kernel⟩

theorem meets_ucodeActivateTimeout : ∃ (a : Activation) (tok : Machine.Token) (s : State), s.On ∧
    s.dev.micro.activation = some a ∧
    a.token = some tok ∧
    a.deadline ≤ s.dev.now :=
  ⟨activ, tok, at' (microDev { MicroState.reset with activation := some activ }), rfl, by decide +kernel,
    by decide +kernel, by decide +kernel⟩

theorem meets_csScrubRead : ∃ (k st : Nat) (s : State), s.On ∧
    k < 7 ∧
    st < 20 :=
  ⟨6, 19, at' base, rfl, by decide +kernel, by decide +kernel⟩

theorem meets_csScrubRead_2 : ∃ (k st : Nat) (s : State), s.On ∧
    k < 7 ∧
    st < 20 :=
  ⟨6, 19, at' base, rfl, by decide +kernel, by decide +kernel⟩

theorem meets_csWordRepair : ∃ (k st a : Nat) (s : State), s.On ∧
    (s.dev.engine k st).bad.contains a = true :=
  ⟨6, 19, 4095,
    at' (microDev { MicroState.reset with engines := engineTab { StageEngine.reset with bad := [4095] } }), rfl,
    by decide +kernel⟩

theorem meets_overlayDrain : ∃ (k st : Nat) (o : OverlayEntry) (s : State), s.On ∧
    (s.dev.engine k st).overlay.find? (fun o => o.committed) = some o :=
  ⟨6, 19, { ctx := 3, addr := 5, value := 9, committed := true },
    at' (microDev { MicroState.reset with engines := engineTab { StageEngine.reset with overlay := [{ ctx := 3, addr := 5, value := 9, committed := true }] } }),
    rfl, by decide +kernel⟩

theorem meets_ucodeLoad : ∃ (h : Hdr) (r : UcodeLoadRec) (_img : UcodeImage) (s : State) (x : Session), s.Serves { code := 0x0801, lenOk := exactly 16, maxBody := 2048, canAsync := true } h x ∧
    x.role = .owner ∧
    64 ≤ r.imageLen ∧
    r.imageLen ≤ 4194304 ∧
    s.dev.micro.loading = false ∧
    s.dev.mayRequest h.fn = true :=
  ⟨ask 16, { imageAddr := 0, imageLen := 4194304 }, { digest := 77, sigOk := true, words := [], bindings := [] },
    at' base, own, served_own _ _ _ rfl rfl rfl rfl rfl (by decide) (by decide), by decide +kernel,
    by decide +kernel, by decide +kernel, by decide +kernel, by decide +kernel⟩

theorem meets_ucodeAccept : ∃ (h : Hdr) (r : UcodeAcceptRec) (i : LoadedImage) (s : State) (x : Session), s.Serves { code := 0x0802, lenOk := exactly 52, maxBody := 0 } h x ∧
    s.Hears h ∧
    firstFail (ucodeAcceptChecks (x.sends h) s.dev r) = none ∧
    r.flags.testBit 0 = false ∧
    i ∈ s.dev.micro.images ∧
    i.digest = r.digest :=
  ⟨askT 52, { digest := 77, flags := 0 }, image8, at' (microDev { MicroState.reset with images := [image8] }), ten,
    served_ten _ _ _ rfl rfl rfl rfl rfl (by decide) (by decide), hears_fn _ _ rfl (by decide) rfl rfl,
    by decide +kernel, by decide +kernel, by decide +kernel, by decide +kernel⟩

theorem meets_ucodeActivate : ∃ (h : Hdr) (r : UcodeActivateRec) (s : State) (x : Session), s.Serves { code := 0x0803, lenOk := exactly 52, maxBody := 0, canAsync := true } h x ∧
    firstFail (ucodeActivateChecks (x.sends h) s.dev r) = none :=
  ⟨ask 52, { digest := 77, deadlineMs := 10000 }, at' (microDev { MicroState.reset with images := [image8] }), own,
    served_own _ _ _ rfl rfl rfl rfl rfl (by decide) (by decide), by decide +kernel⟩

theorem meets_custMemWrite : ∃ (h : Hdr) (r : CustMemRec) (s : State) (x : Session) (k : Nat), s.Serves { code := 0x0804, lenOk := fun l => l = 8 + 8 * r.count, maxBody := 0 } h x ∧
    firstFail (custMemChecks (x.sends h) s.dev r) = none ∧
    k < 7 ∧
    r.sleeves.testBit k = true ∧
    (∀ i, i < r.count → (s.dev.absIndex x.tenancy 10 256 (r.index + i)).isSome) :=
  ⟨askT 16, { sleeves := 64, stage := 19, index := 255, count := 1, data := [9] }, at' base, ten, 6,
    served_ten _ _ _ rfl rfl rfl rfl rfl (by decide) (by decide), by decide +kernel, by decide +kernel,
    by decide +kernel, by decide +kernel⟩

theorem meets_custMemRead : ∃ (h : Hdr) (r : CustMemRec) (s : State) (x : Session) (k a : Nat), s.Serves { code := 0x0805, lenOk := exactly 8, maxBody := 3584, changes := false } h x ∧
    s.Hears h ∧
    firstFail (custMemChecks (x.sends h) s.dev r) = none ∧
    r.sleeves = 2 ^ k ∧
    k < 7 ∧
    r.count = 1 ∧
    s.dev.absIndex x.tenancy 10 256 r.index = some a :=
  ⟨askT 8, { sleeves := 64, stage := 19, index := 255, count := 1, data := [] }, at' base, ten, 6, 255,
    served_ten _ _ _ rfl rfl rfl rfl rfl (by decide) (by decide), hears_fn _ _ rfl (by decide) rfl rfl,
    by decide +kernel, by decide +kernel, by decide +kernel, by decide +kernel, by decide +kernel⟩

theorem meets_ucodeStatusGet : ∃ (h : Hdr) (s : State) (x : Session), s.Serves { code := 0x0806, lenOk := exactly 0, maxBody := 2048, changes := false } h x ∧
    s.Hears h ∧
    x.role = .tenant :=
  ⟨askT 0, at' base, ten, served_ten _ _ _ rfl rfl rfl rfl rfl (by decide) (by decide),
    hears_fn _ _ rfl (by decide) rfl rfl, by decide +kernel⟩

end Sys2Proof.Tests.Micro
end

