-- ==== Sys2Proof/Tests/Parse.lean ====
section
/-! SUPPORT. For every clause of the statements about Parse, a state and operands that meet its hypotheses. -/

namespace Sys2Proof.Tests.Parse

set_option Elab.async false

open Sys2Proof Sys2Proof.Machine

/-- Frame 9 at a stage, its context as stage 1 leaves it. -/
def stageCtx : BitVec 512 := putAll 0 [(fTenancy, 3), (fBd, 1)]
def at9 (ph : Phase) : Frame := { pkt with phase := ph, ctx := stageCtx }
/-- A pattern of one byte, live in slot 0. -/
def patRec : PatternRec :=
  { index := 31, vectorBit := 5, len := 1, offsetMin := 0, offsetMax := 63, nibbleMask := 3, value := 0 :: List.replicate 31 0 }
def patDev : Dev := { base with parse := { ParseState.reset with patterns := ⟨[(31, { data := patRec, live := 1 })]⟩ } }
/-- A fragment key of tenancy 3, whose set is 81, and its entry. -/
def fragKey : FragKey := 0 :: 3 :: List.replicate 38 0
def fragNote (later : Bool) : ParseNote := { ParseNote.none with fragKey := some fragKey, later := later }
def fragDev (e : FragEntry) : Dev := { base with parse := { ParseState.reset with frags := ⟨[(fragSet fragKey * 8 + 1, e)]⟩ } }
def fragEnt : FragEntry := { key := fragKey, created := 3647256576, decided := some (5, 7), version := 0 }
/-- A port's parsing as the owner may set it. -/
def parseRec : ParsePortRec := { parsePortReset 95 with flags := 7, ecpriUdpPort := 50000, malformedAction := 2, orphanAction := 1 }

theorem meets_parse : ∃ (fid : Nat) (f : Frame) (s : State), s.Plain fid f .parse :=
  ⟨9, at9 .parse, at' (withFrame (at9 .parse) base), ⟨rfl, rfl, rfl, rfl, rfl, fun _ => rfl⟩⟩

theorem meets_payloadPatternMatch : ∃ (fid : Nat) (f : Frame) (s : State), s.Plain fid f .pattern ∧
    pflag f.ctx 7 = false ∧
    matchingPatterns s.dev f (bytesAt f.bytes (fld f.ctx fPayOff) (windowLen s.dev f)) = [] :=
  ⟨9, at9 .pattern, at' (withFrame (at9 .pattern) base), ⟨rfl, rfl, rfl, rfl, rfl, fun _ => rfl⟩, by decide +kernel,
    by decide +kernel⟩

theorem meets_payloadPatternMatch_2 : ∃ (fid : Nat) (f : Frame) (i b : Nat) (hs : List (Nat × Nat)) (s : State), s.Plain fid f .pattern ∧
    pflag f.ctx 7 = false ∧
    matchingPatterns s.dev f (bytesAt f.bytes (fld f.ctx fPayOff) (windowLen s.dev f)) = (i, b) :: hs :=
  ⟨9, at9 .pattern, 31, 5, [], at' (withFrame (at9 .pattern) patDev), ⟨rfl, rfl, rfl, rfl, rfl, fun _ => rfl⟩,
    by decide +kernel, by decide +kernel⟩

theorem meets_fragmentLookup : ∃ (fid : Nat) (f : Frame) (s : State), s.Plain fid f .fragment ∧
    f.note.fragKey = none :=
  ⟨9, at9 .fragment, at' (withFrame (at9 .fragment) base), ⟨rfl, rfl, rfl, rfl, rfl, fun _ => rfl⟩, by decide +kernel⟩

theorem meets_fragmentLookup_2 : ∃ (fid i : Nat) (k : FragKey) (f : Frame) (s : State), s.Plain fid f .fragment ∧
    f.note.fragKey = some k ∧
    f.note.fragBad = false ∧
    f.note.later = false ∧
    s.dev.fragFind f.sleeve k = none ∧
    (∀ w, w < 8 → s.dev.fragAt f.sleeve (fragSet k * 8 + w) = none) ∧
    i = fragSet k * 8 ∧
    s.dev.fragInUse f.sleeve (fragTenancy k) < s.dev.fragQuota f.sleeve (fragTenancy k) ∧
    f.sleeve < 7 :=
  ⟨9, fragSet fragKey * 8, fragKey, { at9 .fragment with note := fragNote false },
    at' (withFrame { at9 .fragment with note := fragNote false } base), ⟨rfl, rfl, rfl, rfl, rfl, fun _ => rfl⟩,
    by decide +kernel, by decide +kernel, by decide +kernel, by decide +kernel, by decide +kernel,
    by decide +kernel, by decide +kernel, by decide +kernel⟩

theorem meets_fragmentLookup_3 : ∃ (fid i dec ctx : Nat) (k : FragKey) (e : FragEntry) (f : Frame) (s : State), s.Plain fid f .fragment ∧
    f.note.fragKey = some k ∧
    f.note.fragBad = false ∧
    f.note.later = true ∧
    s.dev.expireSet f.sleeve (fragSet k) (fragClock s.dev f) = s.dev ∧
    s.dev.fragFind f.sleeve k = some (i, e) ∧
    e.decided = some (dec, ctx) :=
  ⟨9, fragSet fragKey * 8 + 1, 5, 7, fragKey, fragEnt, { at9 .fragment with note := fragNote true },
    at' (withFrame { at9 .fragment with note := fragNote true } (fragDev fragEnt)),
    ⟨rfl, rfl, rfl, rfl, rfl, fun _ => rfl⟩, by decide +kernel, by decide +kernel, by decide +kernel,
    by decide +kernel, by decide +kernel, by decide +kernel⟩

theorem meets_fragmentWriteBack : ∃ (fid k dec ctx : Nat) (e : FragEntry) (s : State), s.On ∧
    s.dev.parse.writeBacks.find? (fun w => w.1 = fid) = some (fid, k, dec, ctx) ∧
    s.dev.parse.frags.get? k = some e :=
  ⟨9, 12, 5, 7, { fragEnt with decided := none },
    at' { base with parse := { ParseState.reset with frags := ⟨[(12, { fragEnt with decided := none })]⟩, writeBacks := [(9, 12, 5, 7)] } },
    rfl, by decide +kernel, rfl⟩

theorem meets_fragSweepVisit : ∃ (k n : Nat) (s : State), s.On ∧
    k < 7 ∧
    s.dev.parse.sweepSet.get 0 k = n ∧
    n < 511 ∧
    s.dev.parse.sweepFrom.get 0 k + n * s.dev.fragTimeout k / 2048 ≤ s.dev.sleeveCycles k :=
  ⟨6, 510, at' { base with parse := { ParseState.reset with sweepSet := ⟨[(6, 510)]⟩ } }, rfl, by decide +kernel,
    by decide +kernel, by decide +kernel, by decide +kernel⟩

theorem meets_parsePortSet : ∃ (h : Hdr) (r : ParsePortRec) (s : State) (x : Session), s.Serves { code := 0x0401, lenOk := exactly 16, maxBody := 0 } h x ∧
    s.Hears h ∧
    firstFail (parsePortChecks (x.sends h) r) = none :=
  ⟨ask 16, parseRec, at' base, own, served_own _ _ _ rfl rfl rfl rfl rfl (by decide) (by decide),
    hears_fn _ _ rfl (by decide) rfl rfl, by decide +kernel⟩

theorem meets_patternSet : ∃ (h : Hdr) (r : PatternRec) (s : State) (x : Session), s.Serves { code := 0x0402, lenOk := exactly 48, maxBody := 0 } h x ∧
    s.Hears h ∧
    firstFail (patternSetChecks (x.sends h) s.dev r) = none :=
  ⟨askT 48, patRec, at' base, ten, served_ten _ _ _ rfl rfl rfl rfl rfl (by decide) (by decide),
    hears_fn _ _ rfl (by decide) rfl rfl, by decide +kernel⟩

theorem meets_patternClear : ∃ (h : Hdr) (i : Nat) (s : State) (x : Session), s.Serves { code := 0x0403, lenOk := exactly 2, maxBody := 0 } h x ∧
    s.Hears h ∧
    firstFail (patternClearChecks (x.sends h) s.dev i) = none :=
  ⟨askT 2, 31, at' patDev, ten, served_ten _ _ _ rfl rfl rfl rfl rfl (by decide) (by decide),
    hears_fn _ _ rfl (by decide) rfl rfl, by decide +kernel⟩

theorem meets_fragConfigSet : ∃ (h : Hdr) (r : FragConfigRec) (s : State) (x : Session) (k : Nat), s.Serves { code := 0x0404, lenOk := exactly 40, maxBody := 0 } h x ∧
    s.Hears h ∧
    firstFail (fragConfigChecks (x.sends h) r) = none ∧
    k ∈ sleevesNamed r.sleeve :=
  ⟨ask 40, { sleeve := 255, timeoutUs := 100000, quota := 4096 :: List.replicate 15 0 }, at' base, own, 6,
    served_own _ _ _ rfl rfl rfl rfl rfl (by decide) (by decide), hears_fn _ _ rfl (by decide) rfl rfl,
    by decide +kernel, by decide +kernel⟩

theorem meets_parseStatsGet : ∃ (h : Hdr) (p _t : Nat) (s : State) (x : Session), s.Serves { code := 0x0405, lenOk := fun _ => true, maxBody := 256, changes := false } h x ∧
    s.Hears h ∧
    p ≤ 95 ∧
    x.role = .owner :=
  ⟨ask 8, 95, 0, at' base, own, served_own _ _ _ rfl rfl rfl rfl rfl (by decide) (by decide),
    hears_fn _ _ rfl (by decide) rfl rfl, by decide +kernel, by decide +kernel⟩

theorem meets_parseStatsGet_2 : ∃ (h : Hdr) (b _t : Nat) (s : State) (x : Session), s.Serves { code := 0x0405, lenOk := fun _ => true, maxBody := 256, changes := false } h x ∧
    s.Hears h ∧
    b ≤ 15 ∧
    x.role ≠ .maint ∧
    s.dev.holds x.tenancy 7 b = true :=
  ⟨askT 8, 0, 3, at' base, ten, served_ten _ _ _ rfl rfl rfl rfl rfl (by decide) (by decide),
    hears_fn _ _ rfl (by decide) rfl rfl, by decide +kernel, by decide +kernel, by decide +kernel⟩

theorem meets_parseStatsGet_3 : ∃ (h : Hdr) (k t : Nat) (s : State) (x : Session), s.Serves { code := 0x0405, lenOk := fun _ => true, maxBody := 256, changes := false } h x ∧
    s.Hears h ∧
    k ≤ 6 ∧
    t ≤ 15 ∧
    x.role = .maint :=
  ⟨askM 8, 6, 15, at' base, mnt, served_mnt _ _ _ rfl rfl rfl rfl rfl rfl (by decide) (by decide),
    hears_fn _ _ rfl (by decide) rfl rfl, by decide +kernel, by decide +kernel, by decide +kernel⟩

end Sys2Proof.Tests.Parse
end

