-- ==== Sys2Proof/Tests/Ports.lean ====
section
/-! SUPPORT. For every clause of the statements about Ports, a state and operands that meet its hypotheses. -/

namespace Sys2Proof.Tests.Ports

set_option Elab.async false

open Sys2Proof Sys2Proof.Machine

/-- A port with all its locks, up and in service, on an enabled Sleeve. -/
def rxDev : Dev :=
  let d := withSleeve { SleeveState.reset with enabled := true } (withPort upPort base)
  { d with ports := { d.ports with lanes := ⟨[(0, { Lane.reset with signal := true, cdr := true, pcs := true })]⟩ } }
/-- A frame of that port whose first bytes have come. -/
def young : Frame := { pkt with ended := false, tenancy := none, pockets := [], map := { PortMap.reset with tenancy := 3 } }
/-- A frame of 300 bytes that has its first Pocket. -/
def growing : Frame := { pkt with ended := false, len := 300 }
/-- 64 frames that wait for slots. -/
def crowd : Dev := { rxDev with ports := { rxDev.ports with frames := ⟨(List.range 64).map fun i => (i + 20, pkt)⟩ } }
/-- Port 0 with another link state. -/
def linkDev (p : Port) : Dev := withPort p base
/-- A queue entry. -/
def qent : QEntry :=
  { fid := 9, since := 299999999999, pockets := 1, spill := 0, units := [], late := false, trunc := 0, isMirror := false, len := 64 }
/-- A Cuff that moves to Sleeve 1. -/
def moving : Cuff := { Cuff.reset 0 with move := some { target := 1, started := 299000000000, timeoutUs := 1000, token := tok } }
def moveDev : Dev := { base with ports := { base.ports with cuffs := ⟨[(0, moving)]⟩ } }

theorem meets_frameRxStart : ∃ (p fid _lag : Nat) (_bs : List Nat) (s : State), s.On ∧
    p < 96 ∧
    fid < 2 ^ 32 ∧
    s.dev.isUp p = true ∧
    s.dev.companion p = false ∧
    s.dev.allLocks p = true ∧
    (s.dev.port p).rxFrame = none ∧
    s.dev.frame fid = none ∧
    s.dev.sliceCount (p / 4) < 64 ∧
    (s.dev.sleeve (s.dev.sleeveOf p)).enabled = true :=
  ⟨0, 9, 3, plainBytes, at' rxDev, rfl, by decide +kernel, by decide +kernel, by decide +kernel, by decide +kernel,
    by decide +kernel, by decide +kernel, by decide +kernel, by decide +kernel, by decide +kernel⟩

theorem meets_frameRxStart_2 : ∃ (p fid _lag : Nat) (_bs : List Nat) (s : State), s.On ∧
    p < 96 ∧
    fid < 2 ^ 32 ∧
    s.dev.isUp p = true ∧
    s.dev.companion p = false ∧
    s.dev.allLocks p = true ∧
    (s.dev.port p).rxFrame = none ∧
    s.dev.frame fid = none ∧
    64 ≤ s.dev.sliceCount (p / 4) :=
  ⟨0, 9, 3, plainBytes, at' crowd, rfl, by decide +kernel, by decide +kernel, by decide +kernel, by decide +kernel,
    by decide +kernel, by decide +kernel, by decide +kernel, by decide +kernel⟩

theorem meets_tenancyMapLookup : ∃ (fid t k n : Nat) (f : Frame) (e : Dev) (s : State), s.On ∧
    s.dev.frame fid = some f ∧
    f.receiving = true ∧
    f.tenancy = none ∧
    f.ended = false ∧
    16 ≤ f.bytes.length ∧
    beAt f.bytes 12 2 ≠ 0x8808 ∧
    f.map.tenancyOf f.bytes = some t ∧
    s.dev.yoke.rxPool.get? t = some k ∧
    s.dev.allocate f.sleeve k = (some n, e) :=
  ⟨9, 3, 2, 100, young, (Dev.allocate (withYoke pools (withFrame young base)) 0 2).2,
    at' (withYoke pools (withFrame young base)), rfl, rfl, by decide +kernel, by decide +kernel, by decide +kernel,
    by decide +kernel, by decide +kernel, by decide +kernel, rfl, rfl⟩

theorem meets_tenancyMapLookup_2 : ∃ (fid : Nat) (f : Frame) (s : State), s.On ∧
    s.dev.frame fid = some f ∧
    f.receiving = true ∧
    f.tenancy = none ∧
    f.ended = false ∧
    16 ≤ f.bytes.length ∧
    beAt f.bytes 12 2 ≠ 0x8808 ∧
    f.map.tenancyOf f.bytes = none ∧
    64 ≤ f.wireLen :=
  ⟨9, { young with map := .reset }, at' (withFrame { young with map := .reset } base), rfl, rfl, by decide +kernel,
    by decide +kernel, by decide +kernel, by decide +kernel, by decide +kernel, by decide +kernel,
    by decide +kernel⟩

theorem meets_rxNextPocket : ∃ (fid n : Nat) (f : Frame) (e : Dev) (s : State), s.On ∧
    s.dev.frame fid = some f ∧
    f.origin = .cuff ∧
    f.ended = false ∧
    f.noMore = false ∧
    f.pockets ≠ [] ∧
    f.pockets.length < pocketsOf f.len ∧
    s.dev.managed f = false ∧
    s.dev.allocate f.sleeve f.pool = (some n, e) :=
  ⟨9, 100, growing, (Dev.allocate (withYoke pools (withFrame growing base)) 0 2).2,
    at' (withYoke pools (withFrame growing base)), rfl, rfl, by decide +kernel, by decide +kernel,
    by decide +kernel, by decide +kernel, by decide +kernel, by decide +kernel, rfl⟩

theorem meets_rxNextPocket_2 : ∃ (fid : Nat) (f : Frame) (e : Dev) (s : State), s.On ∧
    s.dev.frame fid = some f ∧
    f.origin = .cuff ∧
    f.ended = false ∧
    f.noMore = false ∧
    f.pockets ≠ [] ∧
    f.pockets.length < pocketsOf f.len ∧
    s.dev.allocate f.sleeve f.pool = (none, e) :=
  ⟨9, growing, (Dev.allocate (withFrame growing base) 0 2).2, at' (withFrame growing base), rfl, rfl,
    by decide +kernel, by decide +kernel, by decide +kernel, by decide +kernel, by decide +kernel, rfl⟩

theorem meets_sliceOffer : ∃ (fid : Nat) (f : Frame) (s : State), s.On ∧
    s.dev.frame fid = some f ∧
    f.receiving = true ∧
    f.pockets ≠ [] ∧
    64 ≤ f.wireLen ∧
    f.ended = false :=
  ⟨9, growing, at' (withFrame growing base), rfl, rfl, by decide +kernel, by decide +kernel, by decide +kernel,
    by decide +kernel⟩

theorem meets_frameRxEnd : ∃ (fid : Nat) (_ok : Bool) (f : Frame) (s : State), s.On ∧
    s.dev.frame fid = some f ∧
    f.origin = .cuff ∧
    f.ended = false ∧
    f.macsecHeld = false ∧
    f.wireEnd = none ∧
    (s.dev.port f.port).rxFrame = some fid ∧
    f.allAsked = true :=
  ⟨9, true, { pkt with ended := false },
    at' (withYoke pools (withPort { upPort with rxFrame := some 9 } (withFrame { pkt with ended := false } base))),
    rfl, rfl, by decide +kernel, by decide +kernel, by decide +kernel, by decide +kernel, by decide +kernel,
    by decide +kernel⟩

theorem meets_fecCodewordDecode : ∃ (l p _n : Nat) (s : State), s.On ∧
    s.dev.portOfLane l = some p ∧
    (s.dev.port p).cfg.fec ≠ 0 :=
  ⟨0, 0, 15, at' (linkDev { upPort with cfg := { upPort.cfg with fec := 1 } }), rfl, by decide +kernel,
    by decide +kernel⟩

theorem meets_linkDownFlush : ∃ (p q : Nat) (e : QEntry) (es : List QEntry) (s : State), s.On ∧
    s.dev.flushes p = true ∧
    q < 16 ∧
    s.dev.queue p q = e :: es ∧
    (∀ j, j < q → s.dev.queue p j = []) :=
  ⟨0, 1, qent, [],
    at' (withFrame pkt (withYoke { pools with queues := ⟨[(1, [qent])]⟩ } (linkDev { upPort with link := .align }))),
    rfl, by decide +kernel, by decide +kernel, rfl, (by decide)⟩

theorem meets_linkHoldExpiry : ∃ (p : Nat) (s : State), s.On ∧
    s.dev.isUp p = false ∧
    (s.dev.port p).txCfg.flags.testBit 3 = true ∧
    (s.dev.port p).flushing = false ∧
    (s.dev.port p).downAt + (s.dev.port p).txCfg.linkHold * cyclesPerMs ≤ s.dev.now :=
  ⟨0,
    at' (linkDev { upPort with link := .align, downAt := 299970000000, txCfg := { upPort.txCfg with flags := 8 } }),
    rfl, by decide +kernel, by decide +kernel, by decide +kernel, by decide +kernel⟩

theorem meets_laneLockAcquire : ∃ (l : Nat) (_k : LockKind) (s : State), s.On ∧
    l < 96 ∧
    s.dev.portOfLane l = none :=
  ⟨95, .fec, at' base, rfl, by decide +kernel, by decide +kernel⟩

theorem meets_laneLockAcquire_2 : ∃ (l p : Nat) (k : LockKind) (s : State), s.On ∧
    l < 96 ∧
    s.dev.portOfLane l = some p ∧
    ((s.dev.lane l).withLock k true).locked ((s.dev.port p).cfg.fec != 0) = false :=
  ⟨0, 0, .cdr, at' (linkDev upPort), rfl, by decide +kernel, by decide +kernel, by decide +kernel⟩

theorem meets_laneLockLoss : ∃ (l : Nat) (k : LockKind) (s : State), s.On ∧
    l < 96 ∧
    (s.dev.lane l).hasLock k = true ∧
    s.dev.portOfLane l = none ∧
    k = .signal :=
  ⟨95, .signal, at' { base with ports := { base.ports with lanes := ⟨[(95, { Lane.reset with signal := true })]⟩ } },
    rfl, by decide +kernel, by decide +kernel, by decide +kernel, by decide +kernel⟩

theorem meets_remoteFaultRx : ∃ (p : Nat) (_b : Bool) (s : State), s.On ∧
    p < 96 ∧
    s.dev.companion p = false :=
  ⟨95, true, at' base, rfl, by decide +kernel, by decide +kernel⟩

theorem meets_downHoldExpiry : ∃ (p t : Nat) (s : State), s.On ∧
    (s.dev.port p).lossSince = some t ∧
    s.dev.isUp p = true ∧
    t + (s.dev.port p).cfg.downHold * cyclesPerUs ≤ s.dev.now :=
  ⟨0, 299999999000, at' (linkDev { upPort with lossSince := some 299999999000 }), rfl, by decide +kernel,
    by decide +kernel, by decide +kernel⟩

theorem meets_anResolved : ∃ (p : Nat) (s : State), s.On ∧
    (s.dev.port p).link = .an :=
  ⟨0, at' (linkDev { upPort with link := .an }), rfl, by decide +kernel⟩

theorem meets_anResolved_2 : ∃ (p m f : Nat) (s : State), s.On ∧
    (s.dev.port p).link = .an ∧
    ¬(m = (s.dev.port p).cfg.mode ∧ f = (s.dev.port p).cfg.fec) :=
  ⟨0, 2, 1, at' (linkDev { upPort with link := .an }), rfl, by decide +kernel, by decide +kernel⟩

theorem meets_trainingComplete : ∃ (p : Nat) (s : State), s.On ∧
    (s.dev.port p).link = .train :=
  ⟨0, at' (linkDev { upPort with link := .train }), rfl, by decide +kernel⟩

theorem meets_trainingTimeout : ∃ (p : Nat) (s : State), s.On ∧
    (s.dev.port p).link = .train ∧
    (s.dev.port p).since + 500 * cyclesPerMs ≤ s.dev.now :=
  ⟨0, at' (linkDev { upPort with link := .train, since := 298500000000 }), rfl, by decide +kernel, by decide +kernel⟩

theorem meets_upHoldExpiry : ∃ (p : Nat) (s : State), s.On ∧
    (s.dev.port p).link = .lockedWait ∧
    (s.dev.port p).since + (s.dev.port p).cfg.upHold * cyclesPerMs ≤ s.dev.now :=
  ⟨0, at' (linkDev { upPort with link := .lockedWait, since := 299999999999 }), rfl, by decide +kernel,
    by decide +kernel⟩

theorem meets_cuffFenceDrained : ∃ (c : Nat) (m : CuffMove) (s : State), s.On ∧
    (s.dev.cuff c).move = some m ∧
    s.dev.cuffBusy c = false :=
  ⟨0, { target := 1, started := 299000000000, timeoutUs := 1000, token := tok }, at' moveDev, rfl, rfl,
    by decide +kernel⟩

theorem meets_cuffMoveTimeout : ∃ (c : Nat) (m : CuffMove) (s : State), s.On ∧
    (s.dev.cuff c).move = some m ∧
    s.dev.cuffBusy c = true ∧
    m.started + m.timeoutUs * cyclesPerUs ≤ s.dev.now :=
  ⟨0, { target := 1, started := 299000000000, timeoutUs := 1000, token := tok },
    at' (withYoke pools { moveDev with ports := { moveDev.ports with frames := ⟨[(9, { pkt with phase := .flow })]⟩ } }),
    rfl, rfl, by decide +kernel, by decide +kernel⟩

theorem meets_cuffAttach : ∃ (h : Hdr) (r : CuffAttachRec) (s : State) (x : Session), s.Serves { code := 0x0301, lenOk := exactly 8, maxBody := 0, canAsync := true, early := false } h x ∧
    x.role = .owner ∧
    r.cuff ≤ 23 ∧
    r.sleeve ≤ 6 ∧
    1 ≤ r.moveTimeout ∧
    r.moveTimeout ≤ 1000 ∧
    (s.dev.sleeve r.sleeve).enabled = true ∧
    s.dev.replayOn r.sleeve = none ∧
    s.dev.moving r.sleeve = false ∧
    (s.dev.cuff r.cuff).move = none ∧
    s.dev.barred r.sleeve = false ∧
    ((s.dev.sleeve r.sleeve).shares.oversubscribe = true ∨ withinBudget (s.dev.portsWith r.sleeve r.cuff) (s.dev.sleeve r.sleeve).shares = true) ∧
    (s.dev.cuff r.cuff).sleeve ≠ r.sleeve :=
  ⟨ask 8, { cuff := 23, sleeve := 6, moveTimeout := 1000 },
    at' { base with arch := { sleeves := ⟨[(6, { SleeveState.reset with enabled := true })]⟩ } }, own,
    served_own _ _ _ rfl rfl rfl rfl rfl (by decide) (by decide), by decide +kernel, by decide +kernel,
    by decide +kernel, by decide +kernel, by decide +kernel, by decide +kernel, by decide +kernel,
    by decide +kernel, by decide +kernel, by decide +kernel, by decide +kernel, by decide +kernel⟩

theorem meets_portConfigSet : ∃ (h : Hdr) (r : PortConfigRec) (s : State) (x : Session), s.Serves { code := 0x0302, lenOk := exactly 16, maxBody := 0 } h x ∧
    s.Hears h ∧
    firstFail (portConfigChecks (x.sends h) s.dev r) = none ∧
    restarts (s.dev.port r.port).cfg { r with flags := r.flags % 16 } = false :=
  ⟨ask 16, { upPort.cfg with flags := 36, maxFrame := 9216, linkHold := 1000 }, at' (withPort upPort base), own,
    served_own _ _ _ rfl rfl rfl rfl rfl (by decide) (by decide), hears_fn _ _ rfl (by decide) rfl rfl,
    by decide +kernel, by decide +kernel⟩

theorem meets_portSettingEffect : ∃ (p : Nat) (s : State), s.On ∧
    p < 96 ∧
    (s.dev.port p).rxFrame = none :=
  ⟨95, at' base, rfl, by decide +kernel, by decide +kernel⟩

theorem meets_portSettingEffect_2 : ∃ (p : Nat) (s : State), s.On ∧
    p < 96 ∧
    (s.dev.port p).txFrame = none :=
  ⟨95, at' base, rfl, by decide +kernel, by decide +kernel⟩

theorem meets_portStatusGet : ∃ (h : Hdr) (p : Nat) (s : State) (x : Session), s.Serves { code := 0x0303, lenOk := fun _ => true, maxBody := 2048, changes := false } h x ∧
    s.Hears h ∧
    p ≤ 95 ∧
    (x.role = .tenant → s.dev.wholly p = some x.tenancy) ∧
    (s.dev.port p).anResult = none :=
  ⟨askT 8, 4, at' { base with ten := { base.ten with ports := ⟨[(4, { PortMap.reset with tenancy := 3 })]⟩ } }, ten,
    served_ten _ _ _ rfl rfl rfl rfl rfl (by decide) (by decide), hears_fn _ _ rfl (by decide) rfl rfl,
    by decide +kernel, by decide +kernel, by decide +kernel⟩

theorem meets_macStatsGet : ∃ (h : Hdr) (p : Nat) (s : State) (x : Session), s.Serves { code := 0x0304, lenOk := fun _ => true, maxBody := 2048, changes := false } h x ∧
    s.Hears h ∧
    p ≤ 95 ∧
    (x.role = .tenant → s.dev.wholly p = some x.tenancy) :=
  ⟨askM 8, 95, at' base, mnt, served_mnt _ _ _ rfl rfl rfl rfl rfl rfl (by decide) (by decide),
    hears_fn _ _ rfl (by decide) rfl rfl, by decide +kernel, by decide +kernel⟩

end Sys2Proof.Tests.Ports
end

