-- ==== Sys2Proof/Tests/Release.lean ====
section
/-! SUPPORT. For every clause of the statements about Release, a state and operands that meet its hypotheses. -/

namespace Sys2Proof.Tests.Release

set_option Elab.async false

open Sys2Proof Sys2Proof.Machine

/-- Frame 9 bound by its flow's meta 0x8000 to profile 0 of tenancy 3. -/
def bound : Frame :=
  { pkt with phase := .release, appliedRec := true, desc := putAll 0 [(dDisp, 1)], ctx := putAll 0 [(fTenancy, 3), (fFlags, 256), (fFlowHit, 1), (fFlowMeta, 0x8000)] }
def unbound : Frame := { bound with ctx := putAll 0 [(fTenancy, 3)] }
def dropped : Frame := { bound with desc := 0 }
def prof : RelProfileRec :=
  { index := 0, mu := 4, extCp := 0, flags := 3, direction := 0, msgMask := 1, queue := 15, originS := 0, originNs := 0, openOff := 1000, closeOff := 10000 }
def port25 : Port :=
  let cfg : PortConfigRec := { portCfgReset 0 with mode := 2 }
  { upPort with cfg := cfg, rxCfg := cfg, txCfg := cfg }
/-- Tenancy 3 holds queue 15 of port 0. -/
def holder : Dev := { base with ten := { base.ten with units := base.ten.units.set (unitKey 1 15) { tenancy := some 3, epoch := 5, scrubbing := false } } }
def rel (d : Dev) : Dev := { d with rel := { RelState.reset with profiles := ⟨[(0, { data := prof, live := 1 })]⟩, enabled := [3] } }
def rdata (a b : Int) : RelData := { state := 2, profile := 0, openAt := a, latest := b, lateFwd := false, errFwd := false, queue := 15 }
def waits (n : Nat) (a b : Int) : Frame := { bound with phase := .done, refs := n, rel := some (rdata a b) }
def calDev (f : Frame) (p : Port) : Dev := withYoke { pools with calendars := ⟨[(0, [(9, 0)])]⟩, calEntries := 1, descUsed := 1 } (withPort p (withFrame f base))

theorem meets_releaseClassify : ∃ (fid : Nat) (f : Frame) (s : State), s.Plain fid f .release ∧
    releaseMeta s.dev { f with rel := none, ctx := putBits f.ctx 0 15 0 } = none :=
  ⟨9, unbound, at' (withFrame unbound base), ⟨rfl, rfl, rfl, rfl, rfl, fun _ => rfl⟩, by decide +kernel⟩

theorem meets_releaseClassify_2 : ∃ (fid m a : Nat) (r : RelProfileRec) (f : Frame) (s : State), s.Plain fid f .release ∧
    (let g := { f with rel := none, ctx := putBits f.ctx 0 15 0 }; releaseMeta s.dev g = some m) ∧
    fld f.desc dDisp = dispForward ∧
    (let g := { f with rel := none, ctx := putBits f.ctx 0 15 0 }; let t := fld g.ctx fTenancy; s.dev.relProfileAt t (fld g.ctx fVersion) (m % 4096) = (some a, some r)) ∧
    (let g := { f with rel := none, ctx := putBits f.ctx 0 15 0 }; admits r g.ctx = true) ∧
    (let g := { f with rel := none, ctx := putBits f.ctx 0 15 0 }; let t := fld g.ctx fTenancy; s.dev.holdsQueue t f.target r.queue = true) ∧
    (let g := { f with rel := none, ctx := putBits f.ctx 0 15 0 }; (radioTime g.ctx).inRange r = true) ∧
    1 ≤ modeGbps (s.dev.port f.target).cfg.mode ∧
    (let g := { f with rel := none, ctx := putBits f.ctx 0 15 0 }; let x := putAll f.desc [(dQueue, r.queue)]; let w := windowOf r (radioTime g.ctx) f.stamp.time16 (s.dev.txTime f.target (s.dev.lenTx f.target (s.dev.egressLen { g with ctx := putAll g.ctx [(fRelProfile, a)], desc := x }))).1; windowError w f.stamp.time16 = none) ∧
    (let g := { f with rel := none, ctx := putBits f.ctx 0 15 0 }; let x := putAll f.desc [(dQueue, r.queue)]; let w := windowOf r (radioTime g.ctx) f.stamp.time16 (s.dev.txTime f.target (s.dev.lenTx f.target (s.dev.egressLen { g with ctx := putAll g.ctx [(fRelProfile, a)], desc := x }))).1; windowState w f.stamp.time16 = 2) :=
  ⟨9, 0x8000, 0, prof, bound, at' (rel (withPort port25 (withFrame bound holder))),
    ⟨rfl, rfl, rfl, rfl, rfl, fun _ => rfl⟩, by decide +kernel, by decide +kernel, by decide +kernel,
    by decide +kernel, by decide +kernel, by decide +kernel, by decide +kernel, by decide +kernel,
    by decide +kernel⟩

theorem meets_releaseClassify_3 : ∃ (fid m : Nat) (f : Frame) (s : State), s.Plain fid f .release ∧
    (let g := { f with rel := none, ctx := putBits f.ctx 0 15 0 }; releaseMeta s.dev g = some m) ∧
    fld f.desc dDisp ≠ dispForward :=
  ⟨9, 0x8000, dropped, at' (rel (withFrame dropped base)), ⟨rfl, rfl, rfl, rfl, rfl, fun _ => rfl⟩,
    by decide +kernel, by decide +kernel⟩

theorem meets_calendarRelease : ∃ (p fid : Nat) (f : Frame) (r : RelData) (s : State), s.On ∧
    firstOpen s.dev.time16 (s.dev.heldFrames p) = some (fid, f, r) ∧
    0 ≤ diff16 s.dev.time16 r.openAt :=
  ⟨0, 9, waits 1 0 6553600, rdata 0 6553600, at' (calDev (waits 1 0 6553600) upPort), rfl, by decide +kernel,
    by decide +kernel⟩

theorem meets_calendarRelease_2 : ∃ (p fid : Nat) (f : Frame) (r : RelData) (s : State), s.On ∧
    firstOpen s.dev.time16 (s.dev.heldFrames p) = some (fid, f, r) ∧
    0 ≤ diff16 s.dev.time16 r.openAt ∧
    diff16 s.dev.time16 r.latest ≤ 0 ∧
    s.dev.flushes p = true ∧
    2 ≤ f.refs ∧
    s.dev.frame fid = some f :=
  ⟨0, 9, waits 2 0 6553600, rdata 0 6553600, at' (calDev (waits 2 0 6553600) (Port.reset 0)), rfl, by decide +kernel,
    by decide +kernel, by decide +kernel, by decide +kernel, by decide +kernel, rfl⟩

theorem meets_calendarRelease_3 : ∃ (p fid : Nat) (f : Frame) (r : RelData) (s : State), s.On ∧
    firstOpen s.dev.time16 (s.dev.heldFrames p) = some (fid, f, r) ∧
    diff16 s.dev.time16 r.openAt < 0 :=
  ⟨0, 9, waits 1 65536 6553600, rdata 65536 6553600, at' (calDev (waits 1 65536 6553600) upPort), rfl,
    by decide +kernel, by decide +kernel⟩

theorem meets_relProfileSet : ∃ (h : Hdr) (r : RelProfileRec) (s : State) (x : Session), s.Serves { code := 0x0C01, lenOk := exactly 32, maxBody := 0 } h x ∧
    s.Hears h ∧
    firstFail (relProfileChecks (x.sends h) s.dev r) = none :=
  ⟨askT 32, prof, at' base, ten, served_ten _ _ _ rfl rfl rfl rfl rfl (by decide) (by decide),
    hears_fn _ _ rfl (by decide) rfl rfl, by decide +kernel⟩

theorem meets_relProfileClear : ∃ (h : Hdr) (i : Nat) (p : RelProfile) (s : State) (x : Session), s.Serves { code := 0x0C02, lenOk := exactly 2, maxBody := 0 } h x ∧
    s.Hears h ∧
    firstFail (relClearChecks (x.sends h) s.dev i) = none ∧
    s.dev.rel.profiles.get? (s.dev.relAbs x.tenancy i) = some p :=
  ⟨askT 2, 0, { data := prof, live := 1 }, at' (rel base), ten,
    served_ten _ _ _ rfl rfl rfl rfl rfl (by decide) (by decide), hears_fn _ _ rfl (by decide) rfl rfl,
    by decide +kernel, rfl⟩

theorem meets_relProfileSet_2 : ∃ (h : Hdr) (r : RelProfileRec) (s : State) (x : Session), s.Serves { code := 0x0C01, lenOk := exactly 32, maxBody := 0 } h x ∧
    s.Hears h ∧
    s.dev.block x.tenancy 6 (r.index / 256) = none :=
  ⟨askT 32, { prof with index := 4095 }, at' base, ten, served_ten _ _ _ rfl rfl rfl rfl rfl (by decide) (by decide),
    hears_fn _ _ rfl (by decide) rfl rfl, by decide +kernel⟩

theorem meets_relTenancySet : ∃ (h : Hdr) (_flags : Nat) (s : State) (x : Session), s.Serves { code := 0x0C03, lenOk := exactly 4, maxBody := 0 } h x ∧
    s.Hears h ∧
    firstFail (relTenancyChecks (x.sends h) s.dev) = none :=
  ⟨askT 4, 1, at' base, ten, served_ten _ _ _ rfl rfl rfl rfl rfl (by decide) (by decide),
    hears_fn _ _ rfl (by decide) rfl rfl, by decide +kernel⟩

theorem meets_relPortSet : ∃ (h : Hdr) (p n : Nat) (s : State) (x : Session), s.Serves { code := 0x0C04, lenOk := exactly 8, maxBody := 0 } h x ∧
    s.Hears h ∧
    x.role = .owner ∧
    p ≤ 95 ∧
    n ≤ 65536 :=
  ⟨ask 8, 95, 65536, at' base, own, served_own _ _ _ rfl rfl rfl rfl rfl (by decide) (by decide),
    hears_fn _ _ rfl (by decide) rfl rfl, by decide +kernel, by decide +kernel, by decide +kernel⟩

theorem meets_relStatsGet : ∃ (h : Hdr) (kind unit : Nat) (s : State) (x : Session), s.Serves { code := 0x0C05, lenOk := fun _ => true, maxBody := 2048, changes := false } h x ∧
    s.Hears h ∧
    kind ≤ 1 ∧
    unit ≤ 6 ∧
    x.role ≠ .owner :=
  ⟨askT 8, 1, 6, at' base, ten, served_ten _ _ _ rfl rfl rfl rfl rfl (by decide) (by decide),
    hears_fn _ _ rfl (by decide) rfl rfl, by decide +kernel, by decide +kernel, by decide +kernel⟩

theorem meets_relProfileRead : ∃ (h : Hdr) (i a : Nat) (p : RelProfile) (s : State) (x : Session), s.Serves { code := 0x0C06, lenOk := fun _ => true, maxBody := 2048, changes := false } h x ∧
    s.Hears h ∧
    x.role ≠ .maint ∧
    s.dev.absIndex x.tenancy 6 256 i = some a ∧
    s.dev.rel.profiles.get? a = some p :=
  ⟨askT 8, 0, 0, { data := prof, live := 1 }, at' (rel base), ten,
    served_ten _ _ _ rfl rfl rfl rfl rfl (by decide) (by decide), hears_fn _ _ rfl (by decide) rfl rfl,
    by decide +kernel, by decide +kernel, rfl⟩

end Sys2Proof.Tests.Release
end

