-- ==== Sys2Proof/Tests/Scheduler.lean ====
section
/-! SUPPORT. For every clause of the statements about Scheduler, a state and operands that meet its hypotheses. -/

namespace Sys2Proof.Tests.Scheduler

set_option Elab.async false

open Sys2Proof Sys2Proof.Machine

/-- Port 0 at 25 Gb/s, its queue `q` holding frame 9. -/
def port25 : Port :=
  let cfg : PortConfigRec := { portCfgReset 0 with mode := 2 }
  { upPort with cfg := cfg, rxCfg := cfg, txCfg := cfg }
def ent (since : Nat) : QEntry :=
  { fid := 9, since := since, pockets := 1, spill := 0, units := [], late := false, trunc := 0, isMirror := false, len := 64 }
def queueAt (q : Nat) (es : List QEntry) : YokeState :=
  { pools with pockets := ⟨[(7, { Pocket.reset with allocated := true, pool := 2, unit := 16, refs := 1, last := true, served := some 3 })]⟩, queues := ⟨[(q, es)]⟩, descUsed := es.length }
def sent : Frame := { pkt with phase := .done, refs := 1, ctx := putAll 0 [(fTenancy, 3)], desc := putAll 0 [(dDisp, 1)] }
def qDev (q : Nat) (es : List QEntry) : Dev := withYoke (queueAt q es) (withPort port25 (withFrame sent base))
def qd (q : QueueState) (d : Dev) : Dev := { d with queues := q }
/-- A gate control list, open for 31 cycles of each 100,000 ns. -/
def gates : List GateEntry := [{ durationM1 := 30, gateStates := 255 }, { durationM1 := 99, gateStates := 0 }, { durationM1 := 9999, gateStates := 255 }]
def gateList : GateList := { entries := gates, baseNs := 0, cycleNs := 100000, extNs := 5000, longest := longestRuns gates 100000 }
def gatePort (n : Nat) (c : Option Nat) : GatePort :=
  { GatePort.reset with enabled := true, oper := some gateList, entryAt := 300000000000, nextNs := n, change := c }
def gated (x : GatePort) : QueueState := { QueueState.reset with gates := ⟨[(0, x)]⟩ }
def pick9 : Selection := { queue := 0, start := 299999999990, tx := 62, entry := ent 299999999000, overran := false }
def sampler : Sampler := { data := { port := 0, flags := 1, queueMask := 1, intervalNs := 1000 }, since := 299999997000 }
def sampled (k : Nat) : QueueState :=
  { QueueState.reset with samplers := ⟨[(samplerKey 3 0, sampler)]⟩, rings := ⟨[(3, { SampleRing.reset with kib := k })]⟩ }
def sample0 : Sample := { stamp := .zero, kind := 0, port := 0, queueMask := 1, entries := List.replicate 32 0 }
def gateRec (f : Nat) : GateConfigRec :=
  { port := 95, flags := f, adminGateStates := 255, entryCount := 1024, baseSeconds := 0, baseNs := 999999999, cycleNs := 1000000000, cycleExtNs := 1000000000 }

theorem meets_schedulerSelect : ∃ (p q : Nat) (e : QEntry) (es : List QEntry) (s : State), s.On ∧
    p < 96 ∧
    s.dev.isUp p = true ∧
    (∀ j, j < 16 → s.dev.sduCheck p j = s.dev) ∧
    (s.dev.port p).txEnds ≤ s.dev.now + 72 ∧
    s.dev.strictPick p = some q ∧
    s.dev.queue p q = e :: es ∧
    (s.dev.schedQueue p q).shaper = false ∧
    (∀ x ∈ es, x.spill ≠ 3) :=
  ⟨0, 15, ent 299999999999, [], at' (qDev 15 [ent 299999999999]), rfl, by decide +kernel, by decide +kernel,
    by decide +kernel, by decide +kernel, by decide +kernel, rfl, by decide +kernel, by decide +kernel⟩

theorem meets_schedulerSelect_2 : ∃ (p : Nat) (v : Visit) (l : List (Nat × Nat)) (e : QEntry) (x y : QEntry) (es : List QEntry) (s : State), s.On ∧
    p < 96 ∧
    s.dev.isUp p = true ∧
    (∀ j, j < 16 → s.dev.sduCheck p j = s.dev) ∧
    (s.dev.port p).txEnds ≤ s.dev.now + 72 ∧
    s.dev.strictPick p = none ∧
    drr (s.dev.visits p) (s.dev.schedPort p).pointer = some (v, l) ∧
    s.dev.queue p v.q = e :: x :: y :: es ∧
    (∀ z ∈ x :: y :: es, z.spill ≠ 3) :=
  ⟨0, { q := 0, deficit := 0, quantum := 256, len := 84 }, [(0, 256)], ent 299999999999, ent 299999999999,
    ent 299999999999, [], at' (qDev 0 [ent 299999999999, ent 299999999999, ent 299999999999]), rfl,
    by decide +kernel, by decide +kernel, by decide +kernel, by decide +kernel, by decide +kernel, (by rfl),
    by decide +kernel, by decide +kernel⟩

theorem meets_schedulerSelect_3 : ∃ (p : Nat) (s : State), s.On ∧
    p < 96 ∧
    s.dev.isUp p = true ∧
    (∀ j, j < 16 → s.dev.sduCheck p j = s.dev) ∧
    (s.dev.port p).txEnds ≤ s.dev.now ∧
    s.dev.pick p = none ∧
    (s.dev.port p).txFrame = none ∧
    s.dev.queues.guardAt.get? p ≠ some s.dev.now ∧
    (List.range 16).any (s.dev.guardWaits p) = true :=
  ⟨0, at' (qd (gated (gatePort 1000000 none)) (qDev 15 [ent 299999999999])), rfl, by decide +kernel,
    by decide +kernel, by decide +kernel, by decide +kernel, by decide +kernel, by decide +kernel,
    by decide +kernel, by decide +kernel⟩

theorem meets_sojournCheck : ∃ (p q : Nat) (e : QEntry) (es : List QEntry) (s : State), s.On ∧
    q < 16 ∧
    s.dev.queue p q = e :: es ∧
    s.dev.expired p q e = true ∧
    (∀ j, j < q → s.dev.queue p j = []) :=
  ⟨0, 0, ent 299000000000, [], at' (qDev 0 [ent 299000000000]), rfl, by decide +kernel, rfl, by decide +kernel,
    by decide +kernel⟩

theorem meets_frameTxStart : ∃ (p : Nat) (ecc : Ecc) (x : Selection) (xs : List Selection) (f : Frame) (s : State), s.On ∧
    s.dev.queues.selected.get [] p = x :: xs ∧
    x.start ≤ s.dev.now ∧
    (s.dev.port p).txFrame = none ∧
    s.dev.frame x.entry.fid = some f ∧
    s.dev.isUp p = true ∧
    ecc ≠ .uncorrectable ∧
    f.noMore = false ∧
    x.entry.spill = 0 ∧
    (let d0 : Dev := { s.dev with queues := { s.dev.queues with selected := s.dev.queues.selected.set p xs } }; let o : Outgoing := { start := x.start, sel := x, frame := f, isSeam := false }; (d0.sendFrame p o).1 = true) :=
  ⟨0, .clean, pick9, [], sent,
    at' (qd { QueueState.reset with selected := ⟨[(0, [pick9])]⟩ } (withPort port25 (withFrame sent (withYoke { queueAt 0 [] with descUsed := 1 } base)))),
    rfl, by decide +kernel, by decide +kernel, by decide +kernel, rfl, by decide +kernel, by decide +kernel,
    by decide +kernel, by decide +kernel, by decide +kernel⟩

theorem meets_frameTxEnd : ∃ (p fid : Nat) (f : Frame) (s : State), s.On ∧
    (s.dev.port p).txFrame = some fid ∧
    s.dev.frame fid = some f ∧
    f.ended = true ∧
    (s.dev.port p).txDone ≤ s.dev.now :=
  ⟨0, 9, sent,
    at' (withPort { port25 with txFrame := some 9, txDone := 300000000000 } (withFrame sent (withYoke (queueAt 0 []) base))),
    rfl, by decide +kernel, rfl, by decide +kernel, by decide +kernel⟩

theorem meets_gateEntryAdvance : ∃ (p : Nat) (l : GateList) (e : GateEntry) (s : State), s.On ∧
    (s.dev.gatePort p).oper = some l ∧
    l.entries[(s.dev.gatePort p).entry]? = some e ∧
    (s.dev.gatePort p).entry + 1 < l.entries.length ∧
    (s.dev.gatePort p).entryAt + e.durationM1 + 1 ≤ s.dev.now :=
  ⟨0, gateList, { durationM1 := 30, gateStates := 255 },
    at' (qd (gated { gatePort 1000000 none with entryAt := 299999999969 }) base), rfl, by decide +kernel,
    by decide +kernel, by decide +kernel, by decide +kernel⟩

theorem meets_gateCycleBoundary : ∃ (p : Nat) (l : GateList) (s : State), s.On ∧
    (s.dev.gatePort p).oper = some l ∧
    s.dev.untilNs (s.dev.gatePort p).nextNs ≤ 0 ∧
    (s.dev.gatePort p).change = none :=
  ⟨0, gateList, at' (qd (gated (gatePort 0 none)) base), rfl, by decide +kernel, by decide +kernel, by decide +kernel⟩

theorem meets_gateCycleBoundary_2 : ∃ (p c : Nat) (l : GateList) (s : State), s.On ∧
    (s.dev.gatePort p).oper = some l ∧
    s.dev.untilNs (s.dev.gatePort p).nextNs ≤ 0 ∧
    (s.dev.gatePort p).change = some c ∧
    (c + wrapNs - (s.dev.gatePort p).nextNs) % wrapNs < l.extNs :=
  ⟨0, 4999, gateList, at' (qd (gated (gatePort 0 (some 4999))) base), rfl, by decide +kernel, by decide +kernel,
    by decide +kernel, by decide +kernel⟩

theorem meets_gateConfigChange : ∃ (p c : Nat) (s : State), s.On ∧
    (s.dev.gatePort p).change = some c ∧
    s.dev.untilNs c ≤ 0 ∧
    s.dev.queues.selected.get [] p = [] ∧
    s.dev.queues.sending.get? p = none :=
  ⟨0, 0, at' (qd (gated (gatePort 100000 (some 0))) base), rfl, by decide +kernel, by decide +kernel,
    by decide +kernel, by decide +kernel⟩

theorem meets_samplerTick : ∃ (p t : Nat) (x : Sampler) (s : State), s.On ∧
    s.dev.queues.samplers.get? (samplerKey t p) = some x ∧
    x.since + 3 * x.data.intervalNs ≤ s.dev.now ∧
    (s.dev.sampleRing t).lost = 0 ∧
    (s.dev.sampleRing t).records.length < (s.dev.sampleRing t).room :=
  ⟨0, 3, sampler, at' (qd (sampled 4) base), rfl, rfl, by decide +kernel, by decide +kernel, by decide +kernel⟩

theorem meets_samplerTick_2 : ∃ (p t : Nat) (x : Sampler) (s : State), s.On ∧
    s.dev.queues.samplers.get? (samplerKey t p) = some x ∧
    x.since + 3 * x.data.intervalNs ≤ s.dev.now ∧
    (s.dev.sampleRing t).room ≤ (s.dev.sampleRing t).records.length :=
  ⟨0, 3, sampler, at' (qd (sampled 0) base), rfl, rfl, by decide +kernel, by decide +kernel⟩

theorem meets_schedPortSet : ∃ (h : Hdr) (r : SchedPortRec) (s : State) (x : Session), s.Serves { code := 0x0B01, lenOk := exactly 16, maxBody := 0 } h x ∧
    s.Hears h ∧
    firstFail (schedPortChecks (x.sends h) r) = none :=
  ⟨ask 16, { port := 95, strictCount := 0, quantumUnit := 4096, queueGate := 0 }, at' base, own,
    served_own _ _ _ rfl rfl rfl rfl rfl (by decide) (by decide), hears_fn _ _ rfl (by decide) rfl rfl,
    by decide +kernel⟩

theorem meets_schedQueueSet : ∃ (h : Hdr) (r : SchedQueueRec) (s : State) (x : Session), s.Serves { code := 0x0B02, lenOk := exactly 24, maxBody := 0 } h x ∧
    s.Hears h ∧
    firstFail (schedQueueChecks (x.sends h) s.dev r) = none :=
  ⟨ask 24,
    { port := 0, queue := 1, flags := 1, weight := 4095, rateBps := 400000000000, burst := 16777216, sojournMaxUs := 1000000 },
    at' base, own, served_own _ _ _ rfl rfl rfl rfl rfl (by decide) (by decide),
    hears_fn _ _ rfl (by decide) rfl rfl, by decide +kernel⟩

theorem meets_gateConfigSet : ∃ (h : Hdr) (r : GateConfigRec) (s : State) (x : Session), s.Serves { code := 0x0B03, lenOk := exactly 28, maxBody := 0 } h x ∧
    s.Hears h ∧
    firstFail (gateConfigChecks (x.sends h) s.dev r) = none ∧
    r.flags.testBit 1 = true :=
  ⟨ask 28, gateRec 3, at' base, own, served_own _ _ _ rfl rfl rfl rfl rfl (by decide) (by decide),
    hears_fn _ _ rfl (by decide) rfl rfl, by decide +kernel, by decide +kernel⟩

theorem meets_gateConfigSet_2 : ∃ (h : Hdr) (r : GateConfigRec) (s : State) (x : Session), s.Serves { code := 0x0B03, lenOk := exactly 28, maxBody := 0 } h x ∧
    s.Hears h ∧
    firstFail (gateConfigChecks (x.sends h) s.dev r) = none ∧
    r.flags.testBit 1 = false ∧
    r.flags.testBit 0 = false :=
  ⟨ask 28, gateRec 0, at' base, own, served_own _ _ _ rfl rfl rfl rfl rfl (by decide) (by decide),
    hears_fn _ _ rfl (by decide) rfl rfl, by decide +kernel, by decide +kernel, by decide +kernel⟩

theorem meets_gateEntriesSet : ∃ (h : Hdr) (r : GateEntriesRec) (s : State) (x : Session), s.Serves { code := 0x0B04, lenOk := fun n => n = 8 + 8 * r.count && r.entries.length = r.count, maxBody := 0 } h x ∧
    s.Hears h ∧
    firstFail (gateEntriesChecks (x.sends h) s.dev r) = none :=
  ⟨ask 16, { port := 95, first := 1023, count := 1, entries := [{ durationM1 := 0, gateStates := 255 }] }, at' base,
    own, served_own _ _ _ rfl rfl rfl rfl rfl (by decide) (by decide), hears_fn _ _ rfl (by decide) rfl rfl,
    by decide +kernel⟩

theorem meets_samplerQuotaSet : ∃ (h : Hdr) (r : SamplerQuotaRec) (s : State) (x : Session), s.Serves { code := 0x0B05, lenOk := exactly 96, maxBody := 0 } h x ∧
    s.Hears h ∧
    firstFail (samplerQuotaChecks (x.sends h) r) = none ∧
    s.dev.queues.samplers = .none :=
  ⟨ask 96, { ringKib := [2048 - 256 * 7, 256, 256, 256, 256, 256, 256, 256], quota := [64000000] }, at' base, own,
    served_own _ _ _ rfl rfl rfl rfl rfl (by decide) (by decide), hears_fn _ _ rfl (by decide) rfl rfl,
    by decide +kernel, by decide +kernel⟩

theorem meets_samplerSet : ∃ (h : Hdr) (r : SamplerRec) (s : State) (x : Session), s.Serves { code := 0x0B06, lenOk := exactly 8, maxBody := 0 } h x ∧
    s.Hears h ∧
    firstFail (samplerChecks (x.sends h) s.dev r) = none :=
  ⟨askT 8, { port := 0, flags := 1, queueMask := 1, intervalNs := 256 },
    at' (qd { QueueState.reset with quotas := ⟨[(3, 4000000)]⟩ } base), ten,
    served_ten _ _ _ rfl rfl rfl rfl rfl (by decide) (by decide), hears_fn _ _ rfl (by decide) rfl rfl,
    by decide +kernel⟩

theorem meets_sampleRead : ∃ (h : Hdr) (n : Nat) (s : State) (x : Session), s.Serves { code := 0x0B07, lenOk := exactly 4, maxBody := 12 + 64 * 144 } h x ∧
    s.Hears h ∧
    1 ≤ n ∧
    n ≤ 64 ∧
    (s.dev.sampleRing x.tenancy).lost = 0 :=
  ⟨askT 4, 64,
    at' (qd { QueueState.reset with rings := ⟨[(3, { SampleRing.reset with kib := 4, records := [sample0] })]⟩ } base),
    ten, served_ten _ _ _ rfl rfl rfl rfl rfl (by decide) (by decide), hears_fn _ _ rfl (by decide) rfl rfl,
    by decide +kernel, by decide +kernel, by decide +kernel⟩

theorem meets_schedStatsGet : ∃ (h : Hdr) (p : Nat) (s : State) (x : Session), s.Serves { code := 0x0B08, lenOk := fun _ => true, maxBody := 2048, changes := false } h x ∧
    s.Hears h ∧
    x.role = .maint ∧
    p ≤ 95 :=
  ⟨askM 4, 95, at' base, mnt, served_mnt _ _ _ rfl rfl rfl rfl rfl rfl (by decide) (by decide),
    hears_fn _ _ rfl (by decide) rfl rfl, by decide +kernel, by decide +kernel⟩

theorem meets_schedStatsGet_2 : ∃ (h : Hdr) (p q : Nat) (s : State) (x : Session), s.Serves { code := 0x0B08, lenOk := fun _ => true, maxBody := 2048, changes := false } h x ∧
    s.Hears h ∧
    x.role = .tenant ∧
    p ≤ 95 ∧
    q < 16 ∧
    s.dev.holdsQueue x.tenancy p q = true :=
  ⟨askT 4, 0, 0, at' (qd { QueueState.reset with maxSojourn := ⟨[(0, 77)]⟩ } base), ten,
    served_ten _ _ _ rfl rfl rfl rfl rfl (by decide) (by decide), hears_fn _ _ rfl (by decide) rfl rfl,
    by decide +kernel, by decide +kernel, by decide +kernel, by decide +kernel⟩

theorem meets_gateStatusGet : ∃ (h : Hdr) (p : Nat) (s : State) (x : Session), s.Serves { code := 0x0B09, lenOk := fun _ => true, maxBody := 2048, changes := false } h x ∧
    s.Hears h ∧
    x.role = .maint ∧
    p ≤ 95 :=
  ⟨askM 4, 95, at' base, mnt, served_mnt _ _ _ rfl rfl rfl rfl rfl rfl (by decide) (by decide),
    hears_fn _ _ rfl (by decide) rfl rfl, by decide +kernel, by decide +kernel⟩

end Sys2Proof.Tests.Scheduler
end

