-- ==== Sys2Proof/Tests/Slice0.lean ====
section
/-! SUPPORT. Every check of well-formedness refuses a term that is ill-formed in its field alone. -/

namespace Sys2Proof.Tests

set_option Elab.async false

open Sys2Proof

theorem ill_Hdr (r : Hdr) : [({ r with session := 2 ^ 16 } : Hdr), { r with tenancy := 2 ^ 8 },
    { r with flags := 2 ^ 8 }, { r with epoch := 2 ^ 16 }, { r with seq := 2 ^ 64 }, { r with length := 2 ^ 32 },
    { r with fn := 32 }].all (fun x => !x.wf) = true := by
  simp [Hdr.wf, fits]

theorem ill_Extract (r : Extract) : [({ r with base := 2 ^ 8 } : Extract), { r with offset := 2 ^ 8 },
    { r with len := 2 ^ 8 }].all (fun x => !x.wf) = true := by
  simp [Extract.wf, fits]

theorem ill_SlotShareRec (r : SlotShareRec) : [({ r with sleeve := 2 ^ 8 } : SlotShareRec), { r with flags := 2 ^ 8 },
    { r with recirc := 2 ^ 16 }, { r with inject := 2 ^ 16 }, { r with housekeeping := 2 ^ 16 },
    { r with replay := 2 ^ 16 }, { r with updateGap := 2 ^ 16 }].all (fun x => !x.wf) = true := by
  simp [SlotShareRec.wf, fits]

theorem ill_PtpPortRec (r : PtpPortRec) : [({ r with port := 2 ^ 8 } : PtpPortRec), { r with flags := 2 ^ 8 },
    { r with domain := 2 ^ 8 }, { r with ingressAsym := 2 ^ 31 }, { r with egressAsym := 2 ^ 31 }].all
    (fun x => !x.wf) = true := by
  simp [PtpPortRec.wf, fits, fitsInt]

theorem ill_TimeIoRec (r : TimeIoRec) : [({ r with source := 2 ^ 8 } : TimeIoRec), { r with servoMode := 2 ^ 8 },
    { r with sourcePort := 2 ^ 16 }, { r with stepThreshold := 2 ^ 32 }, { r with slewMax := 2 ^ 32 },
    { r with ppsOutFlags := 2 ^ 8 }, { r with todDir := 2 ^ 8 }, { r with ppsOutWidth := 2 ^ 32 },
    { r with ppsInDelay := 2 ^ 32 }, { r with synce0Port := 2 ^ 16 }, { r with synce0Freq := 2 ^ 8 },
    { r with synce1Port := 2 ^ 16 }, { r with synce1Freq := 2 ^ 8 }, { r with ppsOutOffset := 2 ^ 31 }].all
    (fun x => !x.wf) = true := by
  simp [TimeIoRec.wf, fits, fitsInt]

theorem ill_TimeAdjustRec (r : TimeAdjustRec) : [({ r with op := 2 ^ 8 } : TimeAdjustRec), { r with state := 2 ^ 8 },
    { r with nanoseconds := 2 ^ 32 }, { r with fraction := 2 ^ 16 }, { r with value := 2 ^ 63 },
    { r with freqAdj := 2 ^ 31 }].all (fun x => !x.wf) = true := by
  simp [TimeAdjustRec.wf, fits, fitsInt]

theorem ill_CuffAttachRec (r : CuffAttachRec) : [({ r with cuff := 2 ^ 8 } : CuffAttachRec),
    { r with sleeve := 2 ^ 8 }, { r with moveTimeout := 2 ^ 32 }].all (fun x => !x.wf) = true := by
  simp [CuffAttachRec.wf, fits]

theorem ill_PortConfigRec (r : PortConfigRec) : [({ r with port := 2 ^ 8 } : PortConfigRec), { r with mode := 2 ^ 8 },
    { r with fec := 2 ^ 8 }, { r with flags := 2 ^ 8 }, { r with maxFrame := 2 ^ 16 }, { r with sliceLen := 2 ^ 16 },
    { r with urgentPcp := 2 ^ 8 }, { r with urgentUntagged := 2 ^ 8 }, { r with linkHold := 2 ^ 16 },
    { r with downHold := 2 ^ 16 }, { r with upHold := 2 ^ 16 }].all (fun x => !x.wf) = true := by
  simp [PortConfigRec.wf, fits]

theorem ill_ParsePortRec (r : ParsePortRec) : [({ r with port := 2 ^ 8 } : ParsePortRec), { r with flags := 2 ^ 8 },
    { r with stdLayers := 2 ^ 8 }, { r with deepLayers := 2 ^ 8 }, { r with deepBytes := 2 ^ 16 },
    { r with windowMax := 2 ^ 16 }, { r with ecpriUdpPort := 2 ^ 16 }, { r with malformedAction := 2 ^ 8 },
    { r with orphanAction := 2 ^ 8 }].all (fun x => !x.wf) = true := by
  simp [ParsePortRec.wf, fits]

theorem ill_PatternRec (r : PatternRec) : [({ r with index := 2 ^ 16 } : PatternRec), { r with vectorBit := 2 ^ 8 },
    { r with len := 2 ^ 8 }, { r with offsetMin := 2 ^ 8 }, { r with offsetMax := 2 ^ 8 },
    { r with nibbleMask := 2 ^ 64 }, { r with value := [] }, { r with value := List.replicate 32 (2 ^ 8) }].all
    (fun x => !x.wf) = true := by
  simp [PatternRec.wf, fits]

theorem ill_FragConfigRec (r : FragConfigRec) : [({ r with sleeve := 2 ^ 8 } : FragConfigRec),
    { r with timeoutUs := 2 ^ 32 }, { r with quota := [] }, { r with quota := List.replicate 16 (2 ^ 16) }].all
    (fun x => !x.wf) = true := by
  simp [FragConfigRec.wf, fits]

theorem ill_ProfileRec (r : ProfileRec) : [({ r with profile := 2 ^ 8 } : ProfileRec), { r with count := 2 ^ 8 },
    { r with selectMask := 2 ^ 8 }, { r with keyMask := 2 ^ 8 :: r.keyMask },
    { r with extract := ⟨256, 0, 0⟩ :: r.extract }].all (fun x => !x.wf) = true := by
  simp [ProfileRec.wf, fits, Extract.wf]

theorem ill_FlowAddRec (r : FlowAddRec) : [({ r with profile := 2 ^ 8 } : FlowAddRec), { r with flags := 2 ^ 8 },
    { r with actionRef := 2 ^ 32 }, { r with flowContext := 2 ^ 16 }, { r with metaVal := 2 ^ 16 },
    { r with key := [] }, { r with key := List.replicate 16 (2 ^ 8) }].all (fun x => !x.wf) = true := by
  simp [FlowAddRec.wf, fits]

theorem ill_FlowDelRec (r : FlowDelRec) : [({ r with profile := 2 ^ 8 } : FlowDelRec), { r with flags := 2 ^ 8 },
    { r with key := [] }, { r with key := List.replicate 16 (2 ^ 8) }].all (fun x => !x.wf) = true := by
  simp [FlowDelRec.wf, fits]

theorem ill_LearnPolicyRec (r : LearnPolicyRec) : [({ r with ageingS := 2 ^ 32 } : LearnPolicyRec),
    { r with flowIdleS := 2 ^ 32 }, { r with eviction := 2 ^ 8 }, { r with flags := 2 ^ 8 },
    { r with flowEviction := 2 ^ 8 }].all (fun x => !x.wf) = true := by
  simp [LearnPolicyRec.wf, fits]

theorem ill_LearnQuotaRec (r : LearnQuotaRec) : [({ r with reseedS := 2 ^ 32 } : LearnQuotaRec),
    { r with quota := [] }, { r with quota := List.replicate 16 (2 ^ 32) }].all (fun x => !x.wf) = true := by
  simp [LearnQuotaRec.wf, fits]

theorem ill_LearnPortRec (r : LearnPortRec) : [({ r with port := 2 ^ 8 } : LearnPortRec), { r with flags := 2 ^ 8 },
    { r with defaultBd := 2 ^ 16 }].all (fun x => !x.wf) = true := by
  simp [LearnPortRec.wf, fits]

theorem ill_LearnStaticRec (r : LearnStaticRec) : [({ r with mac := 2 ^ 48 } : LearnStaticRec),
    { r with bd := 2 ^ 16 }, { r with port := 2 ^ 8 }].all (fun x => !x.wf) = true := by
  simp [LearnStaticRec.wf, fits]

theorem ill_LearnFlushRec (r : LearnFlushRec) : [({ r with sleeves := 2 ^ 8 } : LearnFlushRec),
    { r with flags := 2 ^ 8 }, { r with port := 2 ^ 8 }, { r with bd := 2 ^ 16 }, { r with mac := 2 ^ 48 }].all
    (fun x => !x.wf) = true := by
  simp [LearnFlushRec.wf, fits]

theorem ill_TcamIterateRec (r : TcamIterateRec) : [({ r with sleeve := 2 ^ 8 } : TcamIterateRec),
    { r with version := 2 ^ 8 }, { r with profile := 2 ^ 8 }, { r with startIndex := 2 ^ 16 },
    { r with maxResults := 2 ^ 16 }, { r with epoch := 2 ^ 16 }, { r with key := [] },
    { r with key := List.replicate 76 (2 ^ 8) }].all (fun x => !x.wf) = true := by
  simp [TcamIterateRec.wf, fits]

theorem ill_TcamWriteRec (r : TcamWriteRec) : [({ r with index := 2 ^ 16 } : TcamWriteRec),
    { r with profile := 2 ^ 8 }, { r with actionRef := 2 ^ 32 }, { r with metaVal := 2 ^ 16 }, { r with value := [] },
    { r with mask := [] }, { r with value := List.replicate 76 (2 ^ 8) },
    { r with mask := List.replicate 76 (2 ^ 8) }].all (fun x => !x.wf) = true := by
  simp [TcamWriteRec.wf, fits]

theorem ill_TcamThrottleRec (r : TcamThrottleRec) : [({ r with sleeve := 2 ^ 8 } : TcamThrottleRec),
    { r with tcReserve := 2 ^ 8 }, { r with scrubMs := 2 ^ 32 }].all (fun x => !x.wf) = true := by
  simp [TcamThrottleRec.wf, fits]

theorem ill_ActTenancyRec (r : ActTenancyRec) : [({ r with precedence := 2 ^ 8 } : ActTenancyRec),
    { r with flags := 2 ^ 8 }, { r with missRef := 2 ^ 32 }, { r with pcpMap := 2 ^ 32 }].all (fun x => !x.wf) = true
    := by
  simp [ActTenancyRec.wf, fits]

theorem ill_FloodGroupRec (r : FloodGroupRec) : [({ r with group := 2 ^ 16 } : FloodGroupRec),
    { r with queue := 2 ^ 8 }, { r with ports := 2 ^ 96 }, { r with bdFirst := 2 ^ 16 },
    { r with bdCount := 2 ^ 16 }].all (fun x => !x.wf) = true := by
  simp [FloodGroupRec.wf, fits]

theorem ill_MirrorSessionRec (r : MirrorSessionRec) : [({ r with session := 2 ^ 8 } : MirrorSessionRec),
    { r with target := 2 ^ 8 }, { r with port := 2 ^ 8 }, { r with queue := 2 ^ 8 }, { r with sourcePort := 2 ^ 8 },
    { r with sourceDir := 2 ^ 8 }, { r with trunc := 2 ^ 8 }, { r with rateMbps := 2 ^ 32 },
    { r with burst := 2 ^ 32 }].all (fun x => !x.wf) = true := by
  simp [MirrorSessionRec.wf, fits]

theorem ill_CopyLimitRec (r : CopyLimitRec) : [({ r with tenancy := 2 ^ 8 } : CopyLimitRec),
    { r with sessions := 2 ^ 8 }, { r with burst := 2 ^ 16 }, { r with ratePps := 2 ^ 32 },
    { r with mirrorMaxMbps := 2 ^ 32 }].all (fun x => !x.wf) = true := by
  simp [CopyLimitRec.wf, fits]

theorem ill_ActionRec (r : ActionRec) : [({ r with index := 2 ^ 16 } : ActionRec), { r with disposition := 2 ^ 3 },
    { r with port := 2 ^ 7 }, { r with queue := 2 ^ 4 }, { r with queueSel := 2 ^ 2 },
    { r with floodGroup := 2 ^ 10 }, { r with collarQueue := 2 ^ 3 }, { r with copyLen := 2 ^ 8 },
    { r with mirrorSession := 2 ^ 4 }, { r with dropReason := 2 ^ 6 }, { r with rewrite := [] },
    { r with rewrite := List.replicate 3 (2 ^ 64) }].all (fun x => !x.wf) = true := by
  simp [ActionRec.wf, fits]

theorem ill_TemplateRec (r : TemplateRec) : [({ r with index := 2 ^ 16 } : TemplateRec), { r with len := 2 ^ 8 },
    { r with bytes := [] }, { r with bytes := List.replicate 64 (2 ^ 8) }].all (fun x => !x.wf) = true := by
  simp [TemplateRec.wf, fits]

theorem ill_Binding (r : Binding) : [({ r with tenancy := 2 ^ 8 } : Binding), { r with stage := 2 ^ 8 },
    { r with profile := 2 ^ 8 }, { r with word := 2 ^ 16 }].all (fun x => !x.wf) = true := by
  simp [Binding.wf, fits]

theorem ill_UcodeImage (r : UcodeImage) : [({ r with digest := 2 ^ 384 } : UcodeImage),
    { r with bindings := ⟨256, 0, 0, 0⟩ :: r.bindings }, { r with words := [(256, 0, 0)] }].all (fun x => !x.wf) =
    true := by
  simp [UcodeImage.wf, fits, Binding.wf]

theorem ill_UcodeLoadRec (r : UcodeLoadRec) : [({ r with imageAddr := 2 ^ 64 } : UcodeLoadRec),
    { r with imageLen := 2 ^ 32 }].all (fun x => !x.wf) = true := by
  simp [UcodeLoadRec.wf, fits]

theorem ill_UcodeAcceptRec (r : UcodeAcceptRec) : [({ r with digest := 2 ^ 384 } : UcodeAcceptRec),
    { r with flags := 2 ^ 8 }].all (fun x => !x.wf) = true := by
  simp [UcodeAcceptRec.wf, fits]

theorem ill_UcodeActivateRec (r : UcodeActivateRec) : [({ r with digest := 2 ^ 384 } : UcodeActivateRec),
    { r with deadlineMs := 2 ^ 32 }].all (fun x => !x.wf) = true := by
  simp [UcodeActivateRec.wf, fits]

theorem ill_CustMemRec (r : CustMemRec) : [({ r with sleeves := 2 ^ 8 } : CustMemRec), { r with stage := 2 ^ 8 },
    { r with index := 2 ^ 16 }, { r with count := 2 ^ 16 }, { r with data := 2 ^ 64 :: r.data }].all (fun x => !x.wf)
    = true := by
  simp [CustMemRec.wf, fits]

theorem ill_PoolRec (r : PoolRec) : [({ r with pool := 2 ^ 8 } : PoolRec), { r with tenancy := 2 ^ 8 },
    { r with flags := 2 ^ 8 }, { r with size := 2 ^ 32 }].all (fun x => !x.wf) = true := by
  simp [PoolRec.wf, fits]

theorem ill_QueueBufRec (r : QueueBufRec) : [({ r with port := 2 ^ 8 } : QueueBufRec), { r with queue := 2 ^ 8 },
    { r with flags := 2 ^ 8 }, { r with limit := 2 ^ 32 }, { r with spillMark := 2 ^ 32 },
    { r with returnMark := 2 ^ 32 }, { r with spillMax := 2 ^ 32 }].all (fun x => !x.wf) = true := by
  simp [QueueBufRec.wf, fits]

theorem ill_MeterBindRec (r : MeterBindRec) : [({ r with index := 2 ^ 16 } : MeterBindRec), { r with mode := 2 ^ 8 },
    { r with flags := 2 ^ 8 }, { r with rate1 := 2 ^ 64 }, { r with rate2 := 2 ^ 64 }, { r with burst1 := 2 ^ 32 },
    { r with burst2 := 2 ^ 32 }, { r with dscp := [] }, { r with pcp := [] }, { r with queue := [] },
    { r with dscp := List.replicate 3 (2 ^ 8) }, { r with pcp := List.replicate 3 (2 ^ 8) },
    { r with queue := List.replicate 3 (2 ^ 8) }].all (fun x => !x.wf) = true := by
  simp [MeterBindRec.wf, fits]

theorem ill_MeterTenancyRec (r : MeterTenancyRec) : [({ r with flags := 2 ^ 8 } : MeterTenancyRec),
    { r with untaggedColour := 2 ^ 8 }, { r with nonipColour := 2 ^ 8 }, { r with defaultCtx := 2 ^ 16 },
    { r with pcpDeiMap := 2 ^ 32 }, { r with dscpMap := 2 ^ 128 }].all (fun x => !x.wf) = true := by
  simp [MeterTenancyRec.wf, fits]

theorem ill_SchedPortRec (r : SchedPortRec) : [({ r with port := 2 ^ 8 } : SchedPortRec),
    { r with strictCount := 2 ^ 8 }, { r with quantumUnit := 2 ^ 16 }, { r with queueGate := 2 ^ 64 }].all
    (fun x => !x.wf) = true := by
  simp [SchedPortRec.wf, fits]

theorem ill_SchedQueueRec (r : SchedQueueRec) : [({ r with port := 2 ^ 8 } : SchedQueueRec),
    { r with queue := 2 ^ 8 }, { r with flags := 2 ^ 8 }, { r with weight := 2 ^ 16 }, { r with rateBps := 2 ^ 64 },
    { r with burst := 2 ^ 32 }, { r with sojournMaxUs := 2 ^ 32 }].all (fun x => !x.wf) = true := by
  simp [SchedQueueRec.wf, fits]

theorem ill_GateConfigRec (r : GateConfigRec) : [({ r with port := 2 ^ 8 } : GateConfigRec),
    { r with flags := 2 ^ 8 }, { r with adminGateStates := 2 ^ 8 }, { r with entryCount := 2 ^ 16 },
    { r with baseSeconds := 2 ^ 48 }, { r with baseNs := 2 ^ 32 }, { r with cycleNs := 2 ^ 32 },
    { r with cycleExtNs := 2 ^ 32 }].all (fun x => !x.wf) = true := by
  simp [GateConfigRec.wf, fits]

theorem ill_GateEntry (r : GateEntry) : [({ r with durationM1 := 2 ^ 32 } : GateEntry),
    { r with gateStates := 2 ^ 8 }].all (fun x => !x.wf) = true := by
  simp [GateEntry.wf, fits]

theorem ill_GateEntriesRec (r : GateEntriesRec) : [({ r with port := 2 ^ 8 } : GateEntriesRec),
    { r with first := 2 ^ 16 }, { r with count := 2 ^ 16 }, { r with entries := ⟨0, 256⟩ :: r.entries }].all
    (fun x => !x.wf) = true := by
  simp [GateEntriesRec.wf, fits, GateEntry.wf]

theorem ill_SamplerQuotaRec (r : SamplerQuotaRec) : [({ r with ringKib := [] } : SamplerQuotaRec),
    { r with quota := [] }, { r with ringKib := List.replicate 16 (2 ^ 16) },
    { r with quota := List.replicate 16 (2 ^ 32) }].all (fun x => !x.wf) = true := by
  simp [SamplerQuotaRec.wf, fits]

theorem ill_SamplerRec (r : SamplerRec) : [({ r with port := 2 ^ 8 } : SamplerRec), { r with flags := 2 ^ 8 },
    { r with queueMask := 2 ^ 16 }, { r with intervalNs := 2 ^ 32 }].all (fun x => !x.wf) = true := by
  simp [SamplerRec.wf, fits]

theorem ill_RelProfileRec (r : RelProfileRec) : [({ r with index := 2 ^ 16 } : RelProfileRec), { r with mu := 2 ^ 8 },
    { r with extCp := 2 ^ 8 }, { r with flags := 2 ^ 8 }, { r with direction := 2 ^ 8 }, { r with msgMask := 2 ^ 8 },
    { r with queue := 2 ^ 8 }, { r with originS := 2 ^ 48 }, { r with originNs := 2 ^ 32 },
    { r with openOff := 2 ^ 31 }, { r with closeOff := 2 ^ 31 }].all (fun x => !x.wf) = true := by
  simp [RelProfileRec.wf, fits, fitsInt]

theorem ill_MacsecPortRec (r : MacsecPortRec) : [({ r with port := 2 ^ 8 } : MacsecPortRec),
    { r with flags := 2 ^ 8 }, { r with validate := 2 ^ 8 }, { r with txSc := 2 ^ 16 },
    { r with defaultRxSc := 2 ^ 16 }].all (fun x => !x.wf) = true := by
  simp [MacsecPortRec.wf, fits]

theorem ill_MacsecScRec (r : MacsecScRec) : [({ r with sc := 2 ^ 16 } : MacsecScRec), { r with port := 2 ^ 8 },
    { r with flags := 2 ^ 8 }, { r with sci := 2 ^ 64 }, { r with replayWindow := 2 ^ 32 },
    { r with pnThreshold := 2 ^ 64 }].all (fun x => !x.wf) = true := by
  simp [MacsecScRec.wf, fits]

theorem ill_KeyLoadRec (r : KeyLoadRec) : [({ r with target := 2 ^ 8 } : KeyLoadRec), { r with suite := 2 ^ 8 },
    { r with slot := 2 ^ 16 }, { r with sc := 2 ^ 16 }, { r with an := 2 ^ 8 }, { r with dir := 2 ^ 8 },
    { r with ssci := 2 ^ 32 }, { r with lowestPn := 2 ^ 64 }, { r with salt := 2 ^ 96 },
    { r with key := 2 ^ 256 }].all (fun x => !x.wf) = true := by
  simp [KeyLoadRec.wf, fits]

theorem ill_KeyEraseRec (r : KeyEraseRec) : [({ r with target := 2 ^ 8 } : KeyEraseRec),
    { r with slot := 2 ^ 16 }].all (fun x => !x.wf) = true := by
  simp [KeyEraseRec.wf, fits]

theorem ill_BulkOpenRec (r : BulkOpenRec) : [({ r with keySlot := 2 ^ 16 } : BulkOpenRec), { r with mode := 2 ^ 8 },
    { r with flags := 2 ^ 8 }, { r with nonce := 2 ^ 96 }].all (fun x => !x.wf) = true := by
  simp [BulkOpenRec.wf, fits]

theorem ill_Blob (r : Blob) : [({ r with segment := 2 ^ 32 } : Blob)].all (fun x => !x.wf) = true := by
  simp [Blob.wf, fits]

theorem ill_BulkSegmentRec (r : BulkSegmentRec) : [({ r with message := 2 ^ 32 } : BulkSegmentRec),
    { r with aadLen := 2 ^ 32 }, { r with dataLen := 2 ^ 32 }, { r with flags := 2 ^ 8 },
    { r with outAddr := 2 ^ 64 }, { r with tag := 2 ^ 128 }, { r with input := 2 ^ 8 :: r.input },
    { r with blob := { r.blob with segment := 2 ^ 32 } }].all (fun x => !x.wf) = true := by
  simp [BulkSegmentRec.wf, fits, Blob.wf]

theorem ill_DramConfigRec (r : DramConfigRec) : [({ r with rate := 2 ^ 8 } : DramConfigRec),
    { r with drfmK := 2 ^ 8 }, { r with ueFence := 2 ^ 16 }, { r with ageLimitNs := 2 ^ 32 },
    { r with idleSrUs := 2 ^ 32 }, { r with srMinNs := 2 ^ 32 }].all (fun x => !x.wf) = true := by
  simp [DramConfigRec.wf, fits]

theorem ill_DramChannelRec (r : DramChannelRec) : [({ r with channel := 2 ^ 8 } : DramChannelRec),
    { r with op := 2 ^ 8 }, { r with deadlineMs := 2 ^ 32 }].all (fun x => !x.wf) = true := by
  simp [DramChannelRec.wf, fits]

theorem ill_RecStoreRec (r : RecStoreRec) : [({ r with storeMib := 2 ^ 32 } : RecStoreRec), { r with quotaMib := [] },
    { r with ratePps := [] }, { r with quotaMib := List.replicate 16 (2 ^ 16) },
    { r with ratePps := List.replicate 16 (2 ^ 32) }].all (fun x => !x.wf) = true := by
  simp [RecStoreRec.wf, fits]

theorem ill_RecArmRec (r : RecArmRec) : [({ r with sleeveMask := 2 ^ 8 } : RecArmRec), { r with mode := 2 ^ 8 },
    { r with flags := 2 ^ 8 }, { r with capUnits := 2 ^ 8 }, { r with ports := 2 ^ 96 }, { r with ratePps := 2 ^ 32 },
    { r with preDepth := 2 ^ 32 }, { r with postDepth := 2 ^ 32 }, { r with trigger := 2 ^ 8 },
    { r with eventCode := 2 ^ 16 }, { r with refValue := 2 ^ 32 }, { r with refMask := 2 ^ 32 },
    { r with dropMask := 2 ^ 64 }, { r with trigRef := 2 ^ 32 }, { r with trigDropMask := 2 ^ 64 }].all
    (fun x => !x.wf) = true := by
  simp [RecArmRec.wf, fits]

theorem ill_RecExportRec (r : RecExportRec) : [({ r with firstIndex := 2 ^ 64 } : RecExportRec),
    { r with count := 2 ^ 32 }, { r with keySlot := 2 ^ 16 }, { r with hostAddr := 2 ^ 64 }].all (fun x => !x.wf) =
    true := by
  simp [RecExportRec.wf, fits]

theorem ill_ReplayRunRec (r : ReplayRunRec) : [({ r with liveSleeve := 2 ^ 8 } : ReplayRunRec),
    { r with replaySleeve := 2 ^ 8 }, { r with pool := 2 ^ 8 }, { r with flags := 2 ^ 8 },
    { r with firstIndex := 2 ^ 64 }, { r with count := 2 ^ 32 }].all (fun x => !x.wf) = true := by
  simp [ReplayRunRec.wf, fits]

theorem ill_PortTenancyRec (r : PortTenancyRec) : [({ r with port := 2 ^ 8 } : PortTenancyRec),
    { r with mode := 2 ^ 8 }, { r with tenancy := 2 ^ 8 }, { r with firstVid := 2 ^ 16 }, { r with count := 2 ^ 16 },
    { r with entries := 2 ^ 8 :: r.entries }].all (fun x => !x.wf) = true := by
  simp [PortTenancyRec.wf, fits]

theorem ill_ResAssignRec (r : ResAssignRec) : [({ r with kind := 2 ^ 8 } : ResAssignRec), { r with tenancy := 2 ^ 8 },
    { r with flags := 2 ^ 8 }, { r with first := 2 ^ 16 }, { r with count := 2 ^ 16 },
    { r with queueMask := 2 ^ 16 }].all (fun x => !x.wf) = true := by
  simp [ResAssignRec.wf, fits]

theorem ill_TenantEnrolRec (r : TenantEnrolRec) : [({ r with tenancy := 2 ^ 8 } : TenantEnrolRec),
    { r with flags := 2 ^ 8 }, { r with key := 2 ^ 384 }].all (fun x => !x.wf) = true := by
  simp [TenantEnrolRec.wf, fits]

theorem ill_Token (r : Token) : [({ r with version := 2 ^ 16 } : Token), { r with scope := 2 ^ 16 },
    { r with flags := 2 ^ 16 }, { r with subject := 2 ^ 384 }, { r with notAfter := 2 ^ 48 },
    { r with maxDurationS := 2 ^ 32 }, { r with nonce := 2 ^ 128 }].all (fun x => !x.wf) = true := by
  simp [Token.wf, fits]

theorem ill_SessionOpenRec (r : SessionOpenRec) : [({ r with role := 2 ^ 8 } : SessionOpenRec),
    { r with tenancy := 2 ^ 8 }, { r with hostEph := 2 ^ 768 }, { r with signer := 2 ^ 384 },
    { r with token := { r.token with version := 2 ^ 16 } }].all (fun x => !x.wf) = true := by
  simp [SessionOpenRec.wf, fits, Token.wf]

theorem ill_GusConfigRec (r : GusConfigRec) : [({ r with pmbusAddr := 2 ^ 8 } : GusConfigRec),
    { r with flags := 2 ^ 8 }, { r with capUf := 2 ^ 32 }, { r with vcutMv := 2 ^ 16 }, { r with holdDiv := 2 ^ 16 },
    { r with pHoldMw := 2 ^ 16 }, { r with effPct := 2 ^ 8 }].all (fun x => !x.wf) = true := by
  simp [GusConfigRec.wf, fits]

theorem ill_SvcUnitRec (r : SvcUnitRec) : [({ r with kind := 2 ^ 8 } : SvcUnitRec), { r with op := 2 ^ 8 },
    { r with unit := 2 ^ 16 }, { r with deadlineMs := 2 ^ 32 }].all (fun x => !x.wf) = true := by
  simp [SvcUnitRec.wf, fits]

theorem ill_SvcTestRec (r : SvcTestRec) : [({ r with kind := 2 ^ 8 } : SvcTestRec), { r with unit := 2 ^ 16 }].all
    (fun x => !x.wf) = true := by
  simp [SvcTestRec.wf, fits]

theorem ill_FwImage (r : FwImage) : [({ r with digest := 2 ^ 384 } : FwImage), { r with imageType := 2 ^ 8 },
    { r with securityVersion := 2 ^ 8 }].all (fun x => !x.wf) = true := by
  simp [FwImage.wf, fits]

theorem ill_FwStoreRec (r : FwStoreRec) : [({ r with target := 2 ^ 8 } : FwStoreRec), { r with imageLen := 2 ^ 32 },
    { r with ucode := some ⟨2 ^ 384, true, [], []⟩ }, { r with image := { r.image with digest := 2 ^ 384 } }].all
    (fun x => !x.wf) = true := by
  simp [FwStoreRec.wf, fits, FwImage.wf, UcodeImage.wf]

theorem ill_EjectConfigRec (r : EjectConfigRec) : [({ r with mode := 2 ^ 8 } : EjectConfigRec),
    { r with graceMs := 2 ^ 16 }].all (fun x => !x.wf) = true := by
  simp [EjectConfigRec.wf, fits]

theorem ill_InjectRec (r : InjectRec) : [({ r with bytes := 2 ^ 8 :: r.bytes } : InjectRec)].all (fun x => !x.wf) =
    true := by
  simp [InjectRec.wf, fits]

/-- A well-formed header. -/
def hdr0 : Hdr :=
  { fn := 0, session := 0, tenancy := 0, flags := 0, epoch := 0, seq := 1, length := 0, sealOk := false, boot := false }

theorem test_hdr0 : hdr0.wf = true := by decide +kernel

theorem ill_units_1 :
    ([.frameRxStart 96 0 0 [], .fecCodewordDecode 96 .clean, .slotGrant 7 [], .fragSweepVisit 7, .seamClaim 96,
     .seamLaunch 96, .rxRingCopyWrite 32, .spillReturn 96 0, .spillReturn 0 16, .spillReturnRetry 96 0,
     .spillReturnRetry 0 16, .calendarRelease 96, .schedulerSelect 96, .frameTxStart 96 .clean, .frameTxEnd 96,
     .cachePrefetch 15 0, .cachePrefetch 0 32, .cacheIdleReturn 15, .cacheLowWaterReturn 32, .sojournCheck 96,
     .linkDownFlush 96, .linkHoldExpiry 96, .laneLockAcquire 96 .signal, .laneLockLoss 96 .signal, .synceResume 2,
     .remoteFaultRx 96 true, .downHoldExpiry 96, .anResolved 96 0 0, .trainingComplete 96, .trainingTimeout 96] : List Instr).all
      (fun i => !i.wf) = true := by
  decide

theorem ill_units_2 :
    ([.upHoldExpiry 96, .cuffFenceDrained 24, .cuffMoveTimeout 24, .portSettingEffect 96 .rx,
     .ptpSettingEffect 96 .rx, .macsecSettingEffect 96 .rx, .tenancyLossEffect 96 .rx, .sourceLost 5, .sourceValid 5,
     .flowIdleScan 16, .learnEngineTurn 7, .learnScannerVisit 7, .tcamScrubPassStart 7 [], .searchWindowBoundary 7,
     .slotDrainComplete 4, .overlayDrain 7 0, .overlayDrain 0 20, .csScrubRead 7 0 .clean, .csScrubRead 0 20 .clean,
     .csWordRepair 7 0 0, .csWordRepair 0 20 0, .gateEntryAdvance 96, .gateCycleBoundary 96, .gateConfigChange 96,
     .samplerTick 96 0, .samplerTick 0 16, .bulkJobComplete 4, .dramCommandIssue 6, .dramReadComplete 6 .clean,
     .dramRefreshSlot 6] : List Instr).all
      (fun i => !i.wf) = true := by
  decide

theorem ill_units_3 :
    ([.dramIdleSrEntry 6, .dramSrExit 6, .dramRateChannelDone 6, .dramSweepDone 6 [], .dramSystemScrub 6 0,
     .liningRecordWrite 16 true, .snapshotSweepDone 16, .replayEpochSwitch 7, .replayStreamEnd 7,
     .replayRestoreDone 7, .maintSessionExpiry 32 0, .maintSessionExpiry 0 5, .helloExpiry 32, .watchdogExpiry 5,
     .heartbeatExpiry 32, .irqCoalesceTimeout 32 0, .irqCoalesceTimeout 0 2, .reqRingEnableWrite 32 true,
     .rspRingEnableWrite 32 true, .rxRingEnableWrite 32 true, .reqDoorbell 32 0 [], .rspHeadWrite 32 0,
     .rxHeadWrite 32 0, .heartbeatKick 32, .bootGo 32, .bootDoneClear 32, .hostLostClear 32, .irqStatusClear 32 0,
     .registerWrite 32 .reqBase 0, .drcSetSwap 6] : List Instr).all
      (fun i => !i.wf) = true := by
  decide

theorem ill_units_4 :
    ([.drcModeRegisterAccess 6 true, .drcTrainingRowAccess 6 true, .drcReadCompare 6 0, .barMisalignedAccess 32 true,
     .functionLevelReset 32, .busMasterClear 32, .busMasterSet 32, .d3hotEntry 32, .d0Return 32,
     .configRequest 32 true 0, .configRequest 0 true 16, .dmaCompletionArrival 512 .ok, .completionTimeout 512,
     .tagQuarantineEnd 512, .reqRingFetchRetry 32, .teardownFinish 32, .ringOscSample 64 0 0, .serdesAdaptStep 96 0,
     .dramWindowCheck 6 [] [], .tcamMarginTest 7 0 0, .tcamMarginTest 0 16 0, .flashOpCheck 4096,
     .flashDeferRecheck 4096, .powerFailAssert 4096, .srdRefclkLoss 6, .scrubQueueDiscard 96 0,
     .scrubQueueDiscard 0 16, .frameRxStart 0 0 0 [256], .todRx [256]] : List Instr).all
      (fun i => !i.wf) = true := by
  decide

theorem ill_operands_1 :
    ([.anResolved 0 (2 ^ 8) 0, .anResolved 0 0 (2 ^ 8), .csWordRepair 0 0 (2 ^ 16), .bootEpochAdvance (2 ^ 64),
     .bootEpochRetry (2 ^ 64), .reqDoorbell 0 (2 ^ 32) [], .rspHeadWrite 0 (2 ^ 32), .rxHeadWrite 0 (2 ^ 32),
     .irqStatusClear 0 (2 ^ 32), .registerWrite 0 .reqBase (2 ^ 64), .vfEnableSet (2 ^ 16),
     .pmbusReadback (2 ^ 16) true, .historyAppend (2 ^ 8), .slotStatusGet hdr0 (2 ^ 8), .portStatusGet hdr0 (2 ^ 8),
     .macStatsGet hdr0 (2 ^ 8), .patternClear hdr0 (2 ^ 16), .parseStatsGet hdr0 (2 ^ 8) 0 0,
     .parseStatsGet hdr0 0 (2 ^ 16) 0, .parseStatsGet hdr0 0 0 (2 ^ 8), .learnRead hdr0 (2 ^ 8),
     .tableStatsGet hdr0 (2 ^ 8), .tcamClear hdr0 (2 ^ 16), .tcamStatusGet hdr0 (2 ^ 8), .tblCommit hdr0 (2 ^ 32),
     .actionClear hdr0 (2 ^ 16), .bufGlobalSet hdr0 (2 ^ 32), .poolStatusGet hdr0 (2 ^ 8) 0,
     .poolStatusGet hdr0 0 (2 ^ 32), .meterUnbind hdr0 (2 ^ 16)] : List Instr).all
      (fun i => !i.wf) = true := by
  decide +kernel

theorem ill_operands_2 :
    ([.meterStatsGet hdr0 (2 ^ 16), .sampleRead hdr0 (2 ^ 16), .schedStatsGet hdr0 (2 ^ 8) 0, .schedStatsGet hdr0 0 (2 ^ 8),
     .gateStatusGet hdr0 (2 ^ 8), .relProfileClear hdr0 (2 ^ 16), .relTenancySet hdr0 (2 ^ 8),
     .relPortSet hdr0 (2 ^ 8) 0, .relPortSet hdr0 0 (2 ^ 32), .relStatsGet hdr0 (2 ^ 8) 0,
     .relStatsGet hdr0 0 (2 ^ 16), .relProfileRead hdr0 (2 ^ 16), .macsecTxAnSet hdr0 (2 ^ 16) 0,
     .macsecTxAnSet hdr0 0 (2 ^ 8), .macsecSaStatusGet hdr0 (2 ^ 16), .bulkClose hdr0 (2 ^ 32),
     .macsecStatsGet hdr0 (2 ^ 8), .replayAbort hdr0 (2 ^ 8), .replayReportRead hdr0 (2 ^ 16),
     .resStatusGet hdr0 (2 ^ 8), .ownerKeySet hdr0 (2 ^ 384) true, .rollbackAdvance hdr0 (2 ^ 8),
     .attestGet hdr0 (2 ^ 128), .sessionHello hdr0 (2 ^ 256), .eventMaskSet hdr0 (2 ^ 32),
     .gusHistoryRead hdr0 (2 ^ 32) 0, .gusHistoryRead hdr0 0 (2 ^ 16), .gusPostmortemRead hdr0 (2 ^ 8),
     .fwSwitch hdr0 (2 ^ 384), .fwCommit hdr0 (2 ^ 384), .patchRoll hdr0 (2 ^ 384)] : List Instr).all
      (fun i => !i.wf) = true := by
  decide +kernel

theorem ill_operands_3 :
    ([.svcEject hdr0 (2 ^ 8), .bootImageLoad hdr0 (2 ^ 32) ⟨0, true, 1, 0, true, true⟩, .bulkConfigSet hdr0 [],
     .bulkConfigSet hdr0 (List.replicate 16 65536)] : List Instr).all
      (fun i => !i.wf) = true := by
  decide +kernel

theorem ill_header (h : Hdr) (b : h.wf = false) : Instr.wf (.slotStatusGet h 0) = false ∧ ∀ r, Instr.wf
    (.slotShareSet h r) = false := by
  simp [Instr.wf, b]

theorem ill_record (h : Hdr) (r : SlotShareRec) (b : r.wf = false) : Instr.wf (.slotShareSet h r) = false := by
  simp [Instr.wf, b]

end Sys2Proof.Tests
end

