-- ==== Sys2Proof/Tests/Slots.lean ====
section
/-! SUPPORT. For every clause of the statements about Slots, a state and operands that meet its hypotheses. -/

namespace Sys2Proof.Tests.Slots

set_option Elab.async false

open Sys2Proof Sys2Proof.Machine

/-- Sleeve 0 enabled, its latest slot granted a cycle or more ago. -/
def slotDev : Dev := withSleeve { SleeveState.reset with enabled := true, lastGrant := some 299999999990 } base

theorem meets_slotGrant : ∃ (k n : Nat) (_work : List SlotWork) (s : State), s.On ∧
    k < 7 ∧
    (s.dev.sleeve k).lastGrant = some n ∧
    n < s.dev.now ∧
    (s.dev.sleeve k).owed = none :=
  ⟨0, 299999999990, [.routine 3 0 0], at' slotDev, rfl, by decide +kernel, by decide +kernel, by decide +kernel,
    by decide +kernel⟩

theorem meets_slotShareSet : ∃ (h : Hdr) (r : SlotShareRec) (s : State) (x : Session), s.Serves { code := 0x0101, lenOk := exactly 16, maxBody := 0 } h x ∧
    s.Hears h ∧
    x.role = .owner ∧
    r.sleeve ≤ 6 ∧
    1 ≤ r.replay ∧
    r.replay ≤ 1024 ∧
    r.recirc + r.inject + r.housekeeping ≤ 256 ∧
    16 ≤ r.updateGap ∧
    r.updateGap ≤ 65535 ∧
    (r.flags.testBit 0 = true ∨ withinBudget (s.dev.portsOf r.sleeve) (sharesOf r) = true) :=
  ⟨ask 16,
    { sleeve := 6, flags := 0, recirc := 32, inject := 16, housekeeping := 208, replay := 1024, updateGap := 65535 },
    at' base, own, served_own _ _ _ rfl rfl rfl rfl rfl (by decide) (by decide),
    hears_fn _ _ rfl (by decide) rfl rfl, by decide +kernel, by decide +kernel, by decide +kernel,
    by decide +kernel, by decide +kernel, by decide +kernel, by decide +kernel, by decide +kernel⟩

theorem meets_slotStatusGet : ∃ (h : Hdr) (k : Nat) (s : State) (x : Session), s.Serves { code := 0x0102, lenOk := fun _ => true, maxBody := 256, changes := false } h x ∧
    s.Hears h ∧
    x.role ≠ .tenant ∧
    k ≤ 6 :=
  ⟨ask 8, 6, at' slotDev, own, served_own _ _ _ rfl rfl rfl rfl rfl (by decide) (by decide),
    hears_fn _ _ rfl (by decide) rfl rfl, by decide +kernel, by decide +kernel⟩

end Sys2Proof.Tests.Slots
end

