-- ==== Sys2Proof/Tests/Startup.lean ====
section
/-! SUPPORT. For every clause of the statements about Startup, a state and operands that meet its hypotheses. -/

namespace Sys2Proof.Tests.Startup

set_option Elab.async false

open Sys2Proof Sys2Proof.Machine

/-- The device at another stage of start-up or with other service state. -/
def bt (x : BootState) : Dev := { base with boot := x }
def stage (n : Nat) : BootState := { BootState.reset with stage := n }
def up : BootState := { stage 3 with ready := true }
def fwImg (g : Nat) : FwImage :=
  { digest := g, accepted := true, imageType := 1, securityVersion := 2, handoverOk := true, mixedOk := true }
def patchImg : FwImage := { fwImg 9 with imageType := 2 }
def dirA (g : Nat) : BootDir := { valid := true, sequence := 4, active := 0, digestA := g, digestB := 6 }
def island (g : Nat) (x : List (Nat × FwImage)) : IslandState :=
  { IslandState.reset with dir0 := dirA g, images := ⟨x⟩, service := [6, 20], ownerKey := some 77 }
def isl (i : IslandState) (d : Dev) : Dev := { d with island := i }
def rom : Dev :=
  { bt (stage 0x0E) with mbx := { boxes with fwReady := false, fns := ⟨[(0, { box own with bootWaiting := true })]⟩ } }
def askRom : Hdr := { ask 32 with session := 0, flags := 0, sealOk := false, boot := true }
def spare6 (d : Dev) : Dev := { d with arch := { sleeves := ⟨[(6, { SleeveState.reset with enabled := true })]⟩ } }
def op (k u o : Nat) : SvcOp := { kind := k, unit := u, op := o, deadline := 300000000000, before := .inService, token := none }
def unitAt (k : Nat) (st : SvcState) : BootState := { up with units := ⟨[(k, { state := st, lastTest := 0 })]⟩ }
def flash (u : FlashUse) : FlashReq := { op := .pageProgram, use := u, since := 0, recheckAt := some 0 }
def storing9 : FwStoring := { target := 0, area := 1, image := fwImg 6, ucode := none }
def sw (b : Bool) : FwSwitching :=
  { token := { tok with code := 0x1405 }, image := fwImg 6, area := 1, stopped := b, at4 := 0 }

theorem meets_islandPowerOnReset : ∃ (s : State), s.Settled :=
  ⟨at' (isl { island 5 [(0, fwImg 5)] with waiting := [flash (.bootEpoch 3)], busy := some (flash (.bootEpoch 2)) } (withPort upPort base)),
    rfl⟩

theorem meets_perstAssert : ∃ (_s : State), True :=
  ⟨at' (isl (island 5 [(0, fwImg 5)]) (withPort upPort base)), trivial⟩

theorem meets_perstRelease : ∃ (s : State), s.dev.power = .reset :=
  ⟨at' { isl (island 5 [(0, fwImg 5)]) (withPort upPort base) with power := .reset }, by decide +kernel⟩

theorem meets_perstRelease_2 : ∃ (s : State), s.dev.power = .reset :=
  ⟨at' { base with power := .reset }, by decide +kernel⟩

theorem meets_railFault : ∃ (s : State), s.dev.power ≠ .reset :=
  ⟨at' { base with power := .shutdown }, by decide +kernel⟩

theorem meets_romImageSelect : ∃ (s : State), s.On ∧
    s.dev.boot.stage = 0 ∧
    s.dev.tryArea s.dev.island.activeArea (s.dev.island.directory.map fun b => b.digestOf s.dev.island.activeArea) = 1 :=
  ⟨at' (isl (island 5 [(0, fwImg 5)]) (bt (stage 0))), rfl, by decide +kernel, by decide +kernel⟩

theorem meets_romImageSelect_2 : ∃ (r : Nat) (s : State), s.On ∧
    s.dev.boot.stage = 0 ∧
    r ≠ 1 ∧
    s.dev.tryArea s.dev.island.activeArea (s.dev.island.directory.map fun b => b.digestOf s.dev.island.activeArea) = r ∧
    s.dev.tryArea (1 - s.dev.island.activeArea) (s.dev.island.directory.map fun b => b.digestOf (1 - s.dev.island.activeArea)) = 1 :=
  ⟨4, at' (isl (island 8 [(0, fwImg 5), (1, fwImg 6)]) (bt (stage 0))), rfl, by decide +kernel, by decide +kernel,
    by decide +kernel, by decide +kernel⟩

theorem meets_romImageSelect_3 : ∃ (s : State), s.On ∧
    s.dev.boot.stage = 0 :=
  ⟨at' (bt (stage 0)), rfl, by decide +kernel⟩

theorem meets_bootInfo : ∃ (h : Hdr) (s : State), s.On ∧
    s.Settled ∧
    s.dev.romHolds h = true :=
  ⟨askRom, at' rom, rfl, rfl, by decide +kernel⟩

theorem meets_bootImageLoad : ∃ (h : Hdr) (n : Nat) (_i : FwImage) (s : State), s.On ∧
    s.Settled ∧
    s.dev.romHolds h = true ∧
    h.fn = 0 ∧
    512 ≤ n ∧
    n ≤ 1573376 ∧
    s.dev.mayRequest 0 = true ∧
    s.dev.host.reads = [] ∧
    s.dev.host.quarantine = [] :=
  ⟨askRom, 512, fwImg 5, at' rom, rfl, rfl, by decide +kernel, by decide +kernel, by decide +kernel,
    by decide +kernel, by decide +kernel, by decide +kernel, by decide +kernel⟩

theorem meets_bootImageLoad_2 : ∃ (h : Hdr) (n : Nat) (_i : FwImage) (s : State), s.On ∧
    s.Settled ∧
    s.dev.romHolds h = true ∧
    h.fn = 0 ∧
    512 ≤ n ∧
    n ≤ 1573376 ∧
    s.dev.mayRequest 0 = false :=
  ⟨askRom, 512, fwImg 5, at' { rom with host := { ends with fns := .none } }, rfl, rfl, by decide +kernel,
    by decide +kernel, by decide +kernel, by decide +kernel, by decide +kernel⟩

theorem meets_firmwareStart : ∃ (s : State), s.On ∧
    s.dev.boot.stage = 1 ∧
    s.dev.ten.rngOk = true :=
  ⟨at' (isl (island 5 [(0, fwImg 5)]) (bt (stage 1))), rfl, by decide +kernel, by decide +kernel⟩

theorem meets_firmwareReady : ∃ (s : State), s.On ∧
    s.dev.boot.stage = 2 :=
  ⟨at' (isl (island 5 [(0, fwImg 5)]) (bt (stage 2))), rfl, by decide +kernel⟩

theorem meets_sleevesEnable : ∃ (s : State), s.On ∧
    s.dev.boot.stage = 3 ∧
    s.dev.boot.ready = false ∧
    s.dev.dram.enabled = true ∧
    (∀ o ∈ s.dev.boot.ops, o.op ≠ 3) :=
  ⟨at' { bt (stage 3) with dram := { DramState.reset with enabled := true } }, rfl, by decide +kernel,
    by decide +kernel, by decide +kernel, by decide +kernel⟩

theorem meets_svcTestDone : ∃ (o : SvcOp) (os : List SvcOp) (s : State), s.On ∧
    s.dev.boot.ops = o :: os ∧
    o.op = 3 ∧
    s.dev.boot.ready = true :=
  ⟨op 1 6 3, [op 4 111 3], at' (bt { unitAt 6 .testing with ops := [op 1 6 3, op 4 111 3] }), rfl, by decide +kernel,
    by decide +kernel, by decide +kernel⟩

theorem meets_svcTestDone_2 : ∃ (o : SvcOp) (os : List SvcOp) (s : State), s.On ∧
    s.dev.boot.ops = o :: os ∧
    o.op = 3 :=
  ⟨op 4 111 3, [], at' (bt { unitAt 143 .testing with ops := [op 4 111 3] }), rfl, by decide +kernel,
    by decide +kernel⟩

theorem meets_svcOutOfServiceDone : ∃ (o : SvcOp) (os : List SvcOp) (s : State), s.On ∧
    s.dev.boot.ops = o :: os ∧
    o.kind = 1 ∧
    o.op = 1 ∧
    s.dev.drained o.unit = true ∧
    s.dev.isSpare o.unit = true :=
  ⟨op 1 6 1, [], at' (spare6 (bt { up with ops := [op 1 6 1] })), rfl, by decide +kernel, by decide +kernel,
    by decide +kernel, by decide +kernel, by decide +kernel⟩

theorem meets_svcDeadline : ∃ (o : SvcOp) (os : List SvcOp) (s : State), s.On ∧
    s.dev.boot.ops = o :: os ∧
    o.op = 1 ∧
    o.deadline ≤ s.dev.now :=
  ⟨op 2 0 1, [op 1 6 3], at' (bt { up with ops := [op 2 0 1, op 1 6 3] }), rfl, by decide +kernel, by decide +kernel,
    by decide +kernel⟩

theorem meets_coreHandoverDone : ∃ (o : SvcOp) (os : List SvcOp) (q : Nat) (s : State), s.On ∧
    s.dev.mbx.spare = some q ∧
    s.dev.boot.ops = o :: os ∧
    o.kind = 2 ∧
    o.op = 1 :=
  ⟨op 2 0 1, [], 4, at' (bt { up with ops := [op 2 0 1] }), rfl, by decide +kernel, by decide +kernel,
    by decide +kernel, by decide +kernel⟩

theorem meets_svcUnitSet : ∃ (h : Hdr) (r : SvcUnitRec) (s : State) (x : Session), s.Serves { code := 0x1401, lenOk := exactly 8, maxBody := 0 } h x ∧
    s.Hears h ∧
    firstFail (svcUnitChecks (x.sends h) s.dev r) = none ∧
    r.op = 2 :=
  ⟨ask 8, { kind := 1, op := 2, unit := 6, deadlineMs := 10000 }, at' (bt (unitAt 6 .outOfService)), own,
    served_own _ _ _ rfl rfl rfl rfl rfl (by decide) (by decide), hears_fn _ _ rfl (by decide) rfl rfl,
    by decide +kernel, by decide +kernel⟩

theorem meets_svcUnitSet_2 : ∃ (h : Hdr) (r : SvcUnitRec) (s : State) (x : Session), s.Serves { code := 0x1401, lenOk := exactly 8, maxBody := 0 } h x ∧
    firstFail (svcUnitChecks (x.sends h) s.dev r) = none ∧
    r.op = 1 ∧
    r.kind ≠ 4 :=
  ⟨ask 8, { kind := 1, op := 1, unit := 6, deadlineMs := 1 }, at' (spare6 base), own,
    served_own _ _ _ rfl rfl rfl rfl rfl (by decide) (by decide), by decide +kernel, by decide +kernel,
    by decide +kernel⟩

theorem meets_svcTest : ∃ (h : Hdr) (r : SvcTestRec) (s : State) (x : Session), s.Serves { code := 0x1402, lenOk := exactly 4, maxBody := 0 } h x ∧
    s.Hears h ∧
    firstFail (svcTestChecks (x.sends h) s.dev r) = none :=
  ⟨ask 4, { kind := 4, unit := 111 }, at' (bt (unitAt 143 .failed)), own,
    served_own _ _ _ rfl rfl rfl rfl rfl (by decide) (by decide), hears_fn _ _ rfl (by decide) rfl rfl,
    by decide +kernel⟩

theorem meets_svcStatusGet : ∃ (h : Hdr) (s : State) (x : Session), s.Serves { code := 0x1403, lenOk := exactly 0, maxBody := 2048, changes := false } h x ∧
    s.Hears h ∧
    x.role ≠ .tenant :=
  ⟨askM 0, at' base, mnt, served_mnt _ _ _ rfl rfl rfl rfl rfl rfl (by decide) (by decide),
    hears_fn _ _ rfl (by decide) rfl rfl, by decide +kernel⟩

theorem meets_ejectRequest : ∃ (s : State), s.On ∧
    s.dev.boot.eject = .idle ∧
    s.dev.boot.ejectMode = 0 ∧
    s.dev.boot.ready = true :=
  ⟨at' base, rfl, by decide +kernel, by decide +kernel, by decide +kernel⟩

theorem meets_ejectCancel : ∃ (s : State), s.On ∧
    (s.dev.boot.eject = .requested ∨ s.dev.boot.eject = .held) :=
  ⟨at' (bt { up with eject := .held, ejectReqLow := true }), rfl, by decide +kernel⟩

theorem meets_ejectGraceExpiry : ∃ (s : State), s.On ∧
    s.dev.boot.eject = .requested ∧
    s.dev.ejectWaits = false ∧
    s.dev.boot.ejectAt + s.dev.boot.ejectGrace * cyclesPerMs ≤ s.dev.now :=
  ⟨at' (withPort upPort (bt { up with eject := .requested, ejectGrace := 1000 })), rfl, by decide +kernel,
    by decide +kernel, by decide +kernel⟩

theorem meets_ejectFlashAbandon : ∃ (r : FlashReq) (n : Nat) (s : State), s.On ∧
    s.dev.boot.eject = .proceeding ∧
    s.dev.boot.ejectAt + 100 * cyclesPerMs ≤ s.dev.now ∧
    s.dev.island.waiting = [r] ∧
    r.recheckAt.isSome = true ∧
    r.use = .bootEpoch n :=
  ⟨flash (.bootEpoch 3), 3,
    at' (isl { island 5 [] with waiting := [flash (.bootEpoch 3)] } (bt { up with eject := .proceeding })), rfl,
    by decide +kernel, by decide +kernel, by decide +kernel, by decide +kernel, by decide +kernel⟩

theorem meets_ejectReady : ∃ (s : State), s.On ∧
    s.dev.boot.eject = .proceeding ∧
    s.dev.island.busy = none ∧
    s.dev.island.waiting = [] :=
  ⟨at' { bt { up with eject := .proceeding } with dram := { DramState.reset with enabled := true, channels := ⟨[(0, { DramChannel.reset with state := .active, logical := some 0 })]⟩ } },
    rfl, by decide +kernel, by decide +kernel, by decide +kernel⟩

theorem meets_ejectConfigSet : ∃ (h : Hdr) (r : EjectConfigRec) (s : State) (x : Session), s.Serves { code := 0x1408, lenOk := exactly 4, maxBody := 0 } h x ∧
    s.Hears h ∧
    x.role = .owner ∧
    r.mode = 0 ∧
    r.graceMs ≤ 60000 :=
  ⟨ask 4, { mode := 0, graceMs := 60000 }, at' base, own,
    served_own _ _ _ rfl rfl rfl rfl rfl (by decide) (by decide), hears_fn _ _ rfl (by decide) rfl rfl,
    by decide +kernel, by decide +kernel, by decide +kernel⟩

theorem meets_svcEject : ∃ (h : Hdr) (s : State) (x : Session), s.Serves { code := 0x1409, lenOk := exactly 1, maxBody := 0 } h x ∧
    s.Hears h ∧
    x.role = .owner ∧
    s.dev.boot.eject = .requested :=
  ⟨ask 1, at' (bt { up with eject := .requested }), own,
    served_own _ _ _ rfl rfl rfl rfl rfl (by decide) (by decide), hears_fn _ _ rfl (by decide) rfl rfl,
    by decide +kernel, by decide +kernel⟩

theorem meets_fwStore : ∃ (h : Hdr) (r : FwStoreRec) (s : State) (x : Session), s.Serves { code := 0x1404, lenOk := exactly 16, maxBody := 0 } h x ∧
    firstFail (fwStoreChecks (x.sends h) s.dev r) = none ∧
    s.dev.mayRequest h.fn = true ∧
    s.dev.host.reads = [] ∧
    s.dev.host.quarantine = [] :=
  ⟨ask 16, { target := 0, imageLen := 1573376, image := fwImg 6, ucode := none }, at' base, own,
    served_own _ _ _ rfl rfl rfl rfl rfl (by decide) (by decide), by decide +kernel, by decide +kernel,
    by decide +kernel, by decide +kernel⟩

theorem meets_fwStoreComplete : ∃ (w : FwStoring) (s : State), s.On ∧
    s.dev.boot.storing = some w ∧
    s.dev.island.waiting = [] ∧
    s.dev.island.busy = none ∧
    w.area ≠ 3 :=
  ⟨storing9, at' (bt { up with storing := some storing9 }), rfl, by decide +kernel, by decide +kernel,
    by decide +kernel, by decide +kernel⟩

theorem meets_fwStoreComplete_2 : ∃ (w : FwStoring) (s : State), s.On ∧
    s.dev.boot.storing = some w ∧
    s.dev.island.waiting = [] ∧
    s.dev.island.busy = none :=
  ⟨storing9, at' (bt { up with storing := some storing9 }), rfl, by decide +kernel, by decide +kernel,
    by decide +kernel⟩

theorem meets_fwSwitch : ∃ (h : Hdr) (g a : Nat) (i : FwImage) (s : State) (x : Session), s.Serves { code := 0x1405, lenOk := exactly 48, maxBody := 0 } h x ∧
    x.role = .owner ∧
    h.session ≠ 0 ∧
    s.dev.inactiveArea g = some a ∧
    s.dev.island.images.get? a = some i ∧
    s.dev.imageOk 1 i = true ∧
    i.handoverOk = true ∧
    s.dev.boot.ready = true ∧
    s.dev.fwBusy = false :=
  ⟨ask 48, 6, 1, fwImg 6,
    at' (isl (island 5 [(0, fwImg 5), (1, fwImg 6)]) (bt { up with running := some (fwImg 5), runningArea := some 0 })),
    own, served_own _ _ _ rfl rfl rfl rfl rfl (by decide) (by decide), by decide +kernel, by decide +kernel,
    by decide +kernel, rfl, by decide +kernel, by decide +kernel, by decide +kernel, by decide +kernel⟩

theorem meets_fwSwitchLoaded : ∃ (w : FwSwitching) (s : State), s.On ∧
    s.dev.boot.switching = some w ∧
    w.stopped = false :=
  ⟨sw false, at' (bt { up with switching := some (sw false) }), rfl, by decide +kernel, by decide +kernel⟩

theorem meets_fwSwitchResume : ∃ (w : FwSwitching) (s : State), s.On ∧
    s.dev.boot.switching = some w ∧
    w.stopped = true ∧
    s.dev.boot.eject = .idle :=
  ⟨sw true, at' (bt { up with switching := some (sw true) }), rfl, by decide +kernel, by decide +kernel,
    by decide +kernel⟩

theorem meets_fwSwitchTimeout : ∃ (w : FwSwitching) (s : State), s.On ∧
    s.dev.boot.switching = some w ∧
    w.stopped = true ∧
    w.at4 + 200 * cyclesPerMs ≤ s.dev.now ∧
    s.dev.boot.eject = .idle :=
  ⟨sw true, at' (bt { up with switching := some (sw true) }), rfl, by decide +kernel, by decide +kernel,
    by decide +kernel, by decide +kernel⟩

theorem meets_fwCommit : ∃ (h : Hdr) (g a : Nat) (i : FwImage) (s : State) (x : Session), s.Serves { code := 0x1406, lenOk := exactly 48, maxBody := 0 } h x ∧
    x.role = .owner ∧
    h.session ≠ 0 ∧
    s.dev.boot.running = some i ∧
    i.digest = g ∧
    s.dev.imageOk 1 i = true ∧
    s.dev.boot.runningArea = some a ∧
    s.dev.island.images.get? a = some i ∧
    s.dev.boot.ready = true :=
  ⟨ask 48, 6, 1, fwImg 6,
    at' (isl (island 5 [(0, fwImg 5), (1, fwImg 6)]) (bt { up with running := some (fwImg 6), runningArea := some 1 })),
    own, served_own _ _ _ rfl rfl rfl rfl rfl (by decide) (by decide), by decide +kernel, by decide +kernel,
    by decide +kernel, by decide +kernel, by decide +kernel, by decide +kernel, rfl, by decide +kernel⟩

theorem meets_patchRoll : ∃ (h : Hdr) (g : Nat) (i : FwImage) (s : State) (x : Session), s.Serves { code := 0x1407, lenOk := exactly 48, maxBody := 0 } h x ∧
    s.Hears h ∧
    x.role = .owner ∧
    h.session ≠ 0 ∧
    s.dev.island.images.get? 2 = some i ∧
    i.digest = g ∧
    s.dev.imageOk 2 i = true ∧
    i.mixedOk = true ∧
    s.dev.boot.ready = true ∧
    s.dev.fwBusy = false :=
  ⟨ask 48, 9, patchImg, at' (spare6 (isl (island 5 [(2, patchImg)]) base)), own,
    served_own _ _ _ rfl rfl rfl rfl rfl (by decide) (by decide), hears_fn _ _ rfl (by decide) rfl rfl,
    by decide +kernel, by decide +kernel, rfl, by decide +kernel, by decide +kernel, by decide +kernel,
    by decide +kernel, by decide +kernel⟩

theorem meets_patchRollSleeveDone : ∃ (t : Nat) (ts : List Nat) (g : Nat) (s : State), s.On ∧
    s.dev.boot.rolling = some { digest := g, left := t :: ts } ∧
    t < 7 ∧
    s.dev.serving t = false ∧
    s.dev.drained t = true ∧
    s.dev.svcBusy 1 t = false ∧
    s.dev.boot.eject = .idle :=
  ⟨6, [0, 1], 9, at' (spare6 (bt { up with rolling := some { digest := 9, left := [6, 0, 1] } })), rfl,
    by decide +kernel, by decide +kernel, by decide +kernel, by decide +kernel, by decide +kernel,
    by decide +kernel⟩

end Sys2Proof.Tests.Startup
end

