-- ==== Sys2Proof/Tests/Steps.lean ====
section
/-! SUPPORT. For every clause of the statements about steps, power, requests and version slots, a state and operands that meet its hypotheses. -/

namespace Sys2Proof.Tests.Steps

set_option Elab.async false

open Sys2Proof Sys2Proof.Machine

/-- The facts of an opcode that changes state and may run asynchronously, and work that does nothing. -/
def plainOp : OpSpec := { code := 0x0101, lenOk := exactly 0, maxBody := 0 }
def lateOp : OpSpec := { plainOp with early := false }
def asyncOp : OpSpec := { code := 0x0101, lenOk := exactly 0, maxBody := 0, canAsync := true }
def idleAct (_ : Sender) (d : Dev) : Reply × Dev := (.done .ok 0 [], d)
def notReady : Dev := { base with boot := { base.boot with ready := false } }
def askAsync : Hdr := { ask 0 with flags := 3 }
def full : Dev := { base with mbx := { boxes with fns := ⟨[(0, { box own with asyncs := List.replicate 32 tok })]⟩ } }
def held (b : Bool) : Dev :=
  { base with mbx := { boxes with fns := ⟨[(2, { box ten with req := { ring with enabled := b, size := if b then 14 else 6 }, rsp := { ring with enabled := b }, rx := { ring with enabled := b, size := if b then 14 else 16 } })]⟩ } }

/-- A request starts on a mailbox with 100 slots read, whatever its seal and sequence are. -/
theorem starts_own (h : Hdr) (h0 : h.fn = 0) (h1 : h.boot = false) (h2 : h.length = 0) (h3 : h.flags = 2) :
    (at' base).Starts plainOp h := by
  have s := served_own base plainOp 0 rfl rfl rfl rfl rfl (by decide) (by decide)
  obtain ⟨fn, session, tenancy, flags, epoch, seq, length, sealOk, boot⟩ := h
  simp only at h0 h1 h2 h3
  subst h0 h1 h2 h3
  exact ⟨s.power, s.rom, s.first, s.start, s.framed⟩

theorem meets_StepRunsTheFrontCommand : ∃ (c : Instr) (cs : List Instr) (s : State), s.pending = c :: cs :=
  ⟨.commitCycle, [.commitCycle], { at' base with pending := [.commitCycle, .commitCycle] }, rfl⟩

theorem meets_StepRunsTheFrontCommand_2 : ∃ s : State, s.pending = [] := ⟨at' base, rfl⟩

theorem meets_CommandsObeyThePowerState :
    ∃ (c : Instr) (s : State), s.dev.power = .undefined ∧ alwaysTakes c = false :=
  ⟨.smbusTj, at' { base with power := .undefined }, rfl, rfl⟩

theorem meets_CommandsObeyThePowerState_2 :
    ∃ (c : Instr) (s : State), s.dev.power ≠ .undefined ∨ alwaysTakes c = true :=
  ⟨.railFault, at' { base with power := .undefined }, .inr rfl⟩

theorem meets_CommandsObeyThePowerState_3 : ∃ (c : Instr) (s : State),
    (s.dev.power = .reset ∨ s.dev.power = .shutdown) ∧ atRest c = false ∧ alwaysTakes c = false :=
  ⟨.commitCycle, at' { base with power := .shutdown }, .inr rfl, rfl, rfl⟩

theorem meets_EveryStepSettles : ∃ s t : State, s.Settled ∧ step s = .next t := ⟨at' base, at' base, rfl, rfl⟩

theorem meets_EveryStepSettles_2 : ∃ (c : Instr) (s t : State), s.Settled ∧ exec c s = .next t :=
  ⟨.powerFailDeassert, at' base, at' base, rfl, rfl⟩

theorem meets_SequenceWindow : ∃ (o : OpSpec) (h : Hdr) (s : State) (x : Session),
    s.Starts o h ∧ s.Hears h ∧ s.dev.session h.fn h.session = some x ∧ sealGood h ∧ x.accepts h.seq = false :=
  ⟨plainOp, { ask 0 with seq := 0 }, at' base, own, starts_own _ rfl rfl rfl rfl, hears_fn _ _ rfl (by decide) rfl rfl, rfl,
    ⟨by decide, fun _ => rfl⟩, by decide⟩

theorem meets_SequenceWindow_2 : ∃ (o : OpSpec) (h : Hdr) (s : State) (x : Session),
    s.Starts o h ∧ s.Hears h ∧ s.dev.session h.fn h.session = some x ∧ ¬ sealGood h :=
  ⟨plainOp, { ask 0 with sealOk := false }, at' base, own, starts_own _ rfl rfl rfl rfl, hears_fn _ _ rfl (by decide) rfl rfl,
    rfl, fun h => nomatch h.2 (by decide)⟩

theorem meets_SequenceWindow_3 : ∃ (o : OpSpec) (h : Hdr) (act : Sender → Dev → Reply × Dev) (s : State) (x : Session),
    s.Starts o h ∧ s.Hears h ∧ s.dev.session h.fn h.session = some x ∧ sealGood h ∧ x.accepts h.seq = true ∧
    (∀ w d, (act w d).2.mbx = d.mbx ∧ ∃ st n body, (act w d).1 = .done st n body) :=
  ⟨plainOp, ask 0, idleAct, at' base, own, starts_own _ rfl rfl rfl rfl, hears_fn _ _ rfl (by decide) rfl rfl, rfl,
    ⟨by decide, fun _ => rfl⟩, by decide, fun _ _ => ⟨rfl, .ok, 0, [], rfl⟩⟩

theorem meets_RejectedRequestsChangeNothing : ∃ (o : OpSpec) (h : Hdr) (s : State) (st : Status) (known : Bool),
    s.Starts o h ∧ s.Hears h ∧ envelope o h s.dev = some (st, known) :=
  ⟨plainOp, { ask 0 with seq := 0 }, at' base, .badSequence, true, starts_own _ rfl rfl rfl rfl,
    hears_fn _ _ rfl (by decide) rfl rfl, rfl⟩

theorem meets_RejectedRequestsChangeNothing_2 : ∃ (o : OpSpec) (h : Hdr) (s : State) (x : Session),
    s.Starts o h ∧ s.Hears h ∧ envelope o h s.dev = none ∧ s.dev.session h.fn h.session = some x ∧
    (o.canAsync = true → h.flags.testBit 0 = true → (s.dev.mbox h.fn).asyncs.length < 32) ∧
    ((x.role = .maint ∧ o.changes = true) ∨ (o.early = false ∧ s.dev.boot.ready = false)) :=
  ⟨lateOp, ask 0, at' notReady, own,
    ⟨rfl, rfl, .inr rfl, (starts_own (ask 0) rfl rfl rfl rfl).start, .inr (by decide)⟩,
    hears_fn _ _ rfl (by decide) rfl rfl, rfl, rfl, nofun, .inr ⟨rfl, rfl⟩⟩

theorem meets_RejectedRequestsChangeNothing_3 : ∃ (o : OpSpec) (h : Hdr) (s : State) (x : Session),
    s.Starts o h ∧ s.Hears h ∧ envelope o h s.dev = none ∧ s.dev.session h.fn h.session = some x ∧
    o.canAsync = true ∧ h.flags.testBit 0 = true ∧ 32 ≤ (s.dev.mbox h.fn).asyncs.length :=
  ⟨asyncOp, askAsync, at' full, own, ⟨rfl, rfl, .inr rfl, by decide +kernel, .inr (by decide +kernel)⟩, ⟨rfl, rfl⟩, rfl, rfl, rfl,
    rfl, by decide⟩

theorem meets_RejectedRequestsChangeNothing_4 : ∃ (o : OpSpec) (h : Hdr) (s : State), s.On ∧ s.Settled ∧
    s.dev.romHolds h = false ∧ (h.boot = true ∨ (s.dev.mbox h.fn).unknown = []) ∧ s.dev.canStart o h = false :=
  ⟨plainOp, askT 0, at' (held false), rfl, rfl, rfl, .inr rfl, by decide +kernel⟩

theorem meets_RejectedRequestsChangeNothing_5 : ∃ (o : OpSpec) (h : Hdr) (s : State), s.On ∧ h.boot = false ∧
    (s.dev.mbox h.fn).unknown = [] ∧ s.dev.canStart o h = true ∧ misframed h (s.dev.mbox h.fn) = true :=
  ⟨plainOp, askT 65520, at' base, rfl, rfl, rfl, by decide +kernel, by decide +kernel⟩

theorem meets_RingsFollowTheirEnables : ∃ (f : Nat) (s : State), s.On ∧ s.Settled ∧ s.dev.fnExists f = true ∧
    (s.dev.mbox f).req.enabled = false ∧ (s.dev.mbox f).rsp.enabled = false ∧ (s.dev.mbox f).rx.enabled = false ∧
    6 ≤ (s.dev.mbox f).req.size ∧ (s.dev.mbox f).req.size ≤ 14 ∧ 6 ≤ (s.dev.mbox f).rsp.size ∧
    (s.dev.mbox f).rsp.size ≤ 14 ∧ 6 ≤ (s.dev.mbox f).rx.size ∧ (s.dev.mbox f).rx.size ≤ 16 :=
  ⟨2, at' (held false), rfl, rfl, rfl, rfl, rfl, rfl, by decide, by decide, by decide, by decide, by decide, by decide⟩

theorem meets_SlotStatesStayLegal : ∃ s : State, s.On ∧ s.dev.slotsLegal := by
  refine ⟨at' base, rfl, ⟨0, by decide, by decide +kernel⟩, fun u v hu hv => ?_⟩
  have h : ∀ u : Fin 4, ∀ v : Fin 4, ((at' base).dev.vslot u).state ∈ [SlotState.preparing, .prepared] → u.val = v.val := by
    decide +kernel
  exact fun a _ => h ⟨u, hu⟩ ⟨v, hv⟩ a

end Sys2Proof.Tests.Steps
end

