-- ==== Sys2Proof/Tests/Tables.lean ====
section
/-! SUPPORT. For every clause of the statements about Tables, a state and operands that meet its hypotheses. -/

namespace Sys2Proof.Tests.Tables

set_option Elab.async false

open Sys2Proof Sys2Proof.Machine

def stageCtx5 : BitVec 512 := putAll 0 [(fTenancy, 3), (fBd, 1)]
def at5 (ph : Phase) : Frame := { pkt with phase := ph, ctx := stageCtx5 }
/-- A profile of tenancy 3 that takes the first two bytes of the context as its key. -/
def flowProf : ProfileRec :=
  { profile := 3, count := 1, selectMask := 1, extract := [{ base := 7, offset := 62, len := 2 }] ++ List.replicate 7 { base := 0, offset := 0, len := 0 },
    keyMask := List.replicate 16 255 }
def profDev : Dev := { base with tables := { TableState.reset with profiles := ⟨[(15, flowProf)]⟩ } }
def zeroKey : List Nat := List.replicate 16 0
/-- The flow entry of the key of zeros under profile 0, in the first way of its even bucket 457. -/
def flowEnt : FlowEntry :=
  { key := 0, tenancy := 3, profile := 0, live := 1, actionRef := 77, flowContext := 8, metaVal := 9, idle := false,
    insertEpoch := 0, serial := 1 }
def prof0 : ProfileRec := { flowProf with profile := 0 }
def flowDev : Dev :=
  { base with tables := { TableState.reset with profiles := ⟨[(12, prof0)]⟩, flow := ⟨[(457 * 4, flowEnt)]⟩ } }
/-- The learning entries of the two addresses of `plainBytes` in bridge domain 1. -/
def learnt (mac port : Nat) : LearnEntry :=
  { mac := mac, bd := 1, tenancy := 3, isStatic := false, port := port, age := 0, hit := false }
def learnDev : Dev :=
  { base with tables := { TableState.reset with
      learn := ⟨[(40268, learnt 0x020000000001 4), (48108, learnt 0x020000000002 0)]⟩
      quotas := ⟨[(3, 100)]⟩, quotaEpochs := ⟨[(3, 5)]⟩ } }
/-- A learn request that waits in Sleeve 0. -/
def learnReq : LearnReq := { tenancy := 3, bd := 1, mac := 0x020000000001, port := 0 }
def engineDev (quota : Nat) : Dev :=
  { base with tables := { TableState.reset with
      engines := ⟨[(0, { LearnSleeve.reset with queue := [learnReq], lastTurn := some 299999999992 })]⟩
      quotas := ⟨[(3, quota)]⟩ } }

theorem meets_flowKeyBuild : ∃ (fid p : Nat) (r : ProfileRec) (bs : List Nat) (f : Frame) (s : State), s.Plain fid f .keyBuild ∧
    fld f.ctx fFragState = 0 ∧
    stopsMalformed s.dev f = false ∧
    (let g := { f with flowKey := none, ctx := putBits (putBits f.ctx 96 80 0) fBd.lo fBd.w (bridgeDomain s.dev f) }; selectProfile s.dev.tables.profiles (fld g.ctx fTenancy) (fld g.ctx fL3Type) = some (p, r)) ∧
    (let g := { f with flowKey := none, ctx := putBits (putBits f.ctx 96 80 0) fBd.lo fBd.w (bridgeDomain s.dev f) }; extractAll g (r.extract.take r.count) = some bs) :=
  ⟨9, 3, flowProf, [0, 0], at5 .keyBuild, at' (withFrame (at5 .keyBuild) profDev),
    ⟨rfl, rfl, rfl, rfl, rfl, fun _ => rfl⟩, by decide +kernel, by decide +kernel, by decide +kernel,
    by decide +kernel⟩

theorem meets_flowKeyBuild_2 : ∃ (fid : Nat) (f : Frame) (s : State), s.Plain fid f .keyBuild ∧
    fld f.ctx fFragState = 3 :=
  ⟨9, { at5 .keyBuild with ctx := putAll stageCtx5 [(fFragState, 3)] },
    at' (withFrame { at5 .keyBuild with ctx := putAll stageCtx5 [(fFragState, 3)] } base),
    ⟨rfl, rfl, rfl, rfl, rfl, fun _ => rfl⟩, by decide +kernel⟩

theorem meets_flowLookup : ∃ (fid p i : Nat) (key : List Nat) (e : FlowEntry) (f : Frame) (s : State), s.Plain fid f .flow ∧
    f.flowKey = some (p, key) ∧
    s.dev.flowFind f.sleeve p (fld f.ctx fTenancy) (fld f.ctx fVersion) key = some (i, e) :=
  ⟨9, 0, 457 * 4, zeroKey, flowEnt, { at5 .flow with flowKey := some (0, zeroKey) },
    at' (withFrame { at5 .flow with flowKey := some (0, zeroKey) } flowDev),
    ⟨rfl, rfl, rfl, rfl, rfl, fun _ => rfl⟩, by decide +kernel, (by decide +kernel)⟩

theorem meets_flowLookup_2 : ∃ (fid p : Nat) (key : List Nat) (_ecc : Ecc) (f : Frame) (s : State), s.Plain fid f .flow ∧
    f.flowKey = some (p, key) ∧
    s.dev.flowFind f.sleeve p (fld f.ctx fTenancy) (fld f.ctx fVersion) key = none :=
  ⟨9, 0, zeroKey, .uncorrectable, { at5 .flow with flowKey := some (0, zeroKey) },
    at' (withFrame { at5 .flow with flowKey := some (0, zeroKey) } base), ⟨rfl, rfl, rfl, rfl, rfl, fun _ => rfl⟩,
    by decide +kernel, (by decide +kernel)⟩

theorem meets_learnLookup : ∃ (fid i j : Nat) (dst src : LearnEntry) (f : Frame) (s : State), s.Plain fid f .learn ∧
    skipsLookups f = false ∧
    stopsMalformed s.dev f = false ∧
    (byteAt f.bytes 6).testBit 0 = false ∧
    s.dev.learnFind f.sleeve (fld f.ctx fTenancy) (fld f.ctx fBd) (beAt f.bytes 0 6) = some (i, dst) ∧
    s.dev.learnFind f.sleeve (fld f.ctx fTenancy) (fld f.ctx fBd) (beAt f.bytes 6 6) = some (j, src) ∧
    src.port = f.port :=
  ⟨9, 40268, 48108, learnt 0x020000000001 4, learnt 0x020000000002 0, at5 .learn,
    at' (withFrame (at5 .learn) learnDev), ⟨rfl, rfl, rfl, rfl, rfl, fun _ => rfl⟩, by decide +kernel,
    by decide +kernel, by decide +kernel, (by decide +kernel), (by decide +kernel), by decide +kernel⟩

theorem meets_learnLookup_2 : ∃ (fid : Nat) (f : Frame) (s : State), s.Plain fid f .learn ∧
    skipsLookups f = false ∧
    stopsMalformed s.dev f = false ∧
    (byteAt f.bytes 6).testBit 0 = false ∧
    raisesLearn s.dev f (fld f.ctx fTenancy) = true ∧
    s.dev.learnFind f.sleeve (fld f.ctx fTenancy) (fld f.ctx fBd) (beAt f.bytes 0 6) = none ∧
    s.dev.learnFind f.sleeve (fld f.ctx fTenancy) (fld f.ctx fBd) (beAt f.bytes 6 6) = none :=
  ⟨9, at5 .learn, at' (withFrame (at5 .learn) base), ⟨rfl, rfl, rfl, rfl, rfl, fun _ => rfl⟩, by decide +kernel,
    by decide +kernel, by decide +kernel, by decide +kernel, (by decide +kernel), (by decide +kernel)⟩

theorem meets_learnEngineTurn : ∃ (k i : Nat) (r : LearnReq) (rs : List LearnReq) (s : State), s.On ∧
    k < 7 ∧
    (∀ t, (s.dev.learner k).lastTurn = some t → t + 8 ≤ s.dev.now) ∧
    (s.dev.learner k).statics = [] ∧
    (s.dev.learner k).queue = r :: rs ∧
    s.dev.learnFind k r.tenancy r.bd r.mac = none ∧
    s.dev.atQuota k r.tenancy = false ∧
    s.dev.freeWay k (s.dev.learnBuckets r.tenancy r.bd r.mac).1 = some i :=
  ⟨0, 40268, learnReq, [], at' (engineDev 1), rfl, by decide +kernel, opt_all (by decide), by decide +kernel,
    by decide +kernel, (by decide +kernel), by decide +kernel, (by decide +kernel)⟩

theorem meets_learnEngineTurn_2 : ∃ (k : Nat) (r : LearnReq) (rs : List LearnReq) (s : State), s.On ∧
    k < 7 ∧
    (∀ t, (s.dev.learner k).lastTurn = some t → t + 8 ≤ s.dev.now) ∧
    (s.dev.learner k).statics = [] ∧
    (s.dev.learner k).queue = r :: rs ∧
    s.dev.learnFind k r.tenancy r.bd r.mac = none ∧
    s.dev.atQuota k r.tenancy = true :=
  ⟨0, learnReq, [], at' (engineDev 0), rfl, by decide +kernel, opt_all (by decide), by decide +kernel,
    by decide +kernel, (by decide +kernel), by decide +kernel⟩

theorem meets_learnScannerVisit : ∃ (k n : Nat) (s : State), s.On ∧
    k < 7 ∧
    s.dev.replayOn k = none ∧
    (s.dev.learner k).scanSlot = n ∧
    n ≠ 0 ∧
    n < 65551 ∧
    (s.dev.learner k).scanFrom + n * ((s.dev.learner k).shortest * cyclesPerS / 4) / 65552 ≤ s.dev.now :=
  ⟨6, 65550,
    at' { base with tables := { TableState.reset with engines := ⟨[(6, { LearnSleeve.reset with scanSlot := 65550 })]⟩ } },
    rfl, by decide +kernel, by decide +kernel, by decide +kernel, by decide +kernel, by decide +kernel,
    by decide +kernel⟩

theorem meets_generatorReseed : ∃ (s : State), s.On ∧
    s.dev.ten.rngOk = true :=
  ⟨at' base, rfl, by decide +kernel⟩

theorem meets_flowIdleScan : ∃ (t : Nat) (s : State), s.On ∧
    t < 16 ∧
    s.dev.tables.idleAt.get 0 t + (s.dev.learnPolicy t).flowIdleS * cyclesPerS ≤ s.dev.now :=
  ⟨15, at' base, rfl, by decide +kernel, by decide +kernel⟩

theorem meets_flowProfileSet : ∃ (h : Hdr) (r : ProfileRec) (s : State) (x : Session), s.Serves { code := 0x0501, lenOk := exactly 52, maxBody := 0 } h x ∧
    s.Hears h ∧
    firstFail (flowProfileChecks (x.sends h) s.dev r) = none :=
  ⟨askT 52, flowProf, at' base, ten, served_ten _ _ _ rfl rfl rfl rfl rfl (by decide) (by decide),
    hears_fn _ _ rfl (by decide) rfl rfl, by decide +kernel⟩

theorem meets_flowAdd : ∃ (h : Hdr) (r : FlowAddRec) (s : State) (x : Session) (b0 b1 i : Nat), s.Serves { code := 0x0502, lenOk := exactly 32, maxBody := 32 } h x ∧
    s.Hears h ∧
    firstFail (flowAddChecks (x.sends h) s.dev r) = none ∧
    s.dev.flowBuckets r.profile x.tenancy (s.dev.flowMasked x.tenancy r.profile r.key) = some (b0, b1) ∧
    s.dev.nextFlow x.tenancy r.profile (s.dev.flowMasked x.tenancy r.profile r.key) = none ∧
    s.dev.flowWay b0 = some i :=
  ⟨askT 32,
    { profile := 0, flags := 0, key := zeroKey, actionRef := 16777215, flowContext := 4095, metaVal := 65535 },
    at' { base with tables := { TableState.reset with profiles := ⟨[(12, prof0)]⟩ } }, ten, 457, 1714, 1828,
    served_ten _ _ _ rfl rfl rfl rfl rfl (by decide) (by decide), hears_fn _ _ rfl (by decide) rfl rfl,
    (by decide +kernel), (by decide +kernel), (by decide +kernel), (by decide +kernel)⟩

theorem meets_flowDel : ∃ (h : Hdr) (r : FlowDelRec) (s : State) (x : Session) (i : Nat), s.Serves { code := 0x0503, lenOk := exactly 20, maxBody := 0 } h x ∧
    s.Hears h ∧
    firstFail (flowDelChecks (x.sends h) s.dev r) = none ∧
    s.dev.nextFlow x.tenancy r.profile (s.dev.flowMasked x.tenancy r.profile r.key) = some i :=
  ⟨askT 20, { profile := 0, flags := 0, key := zeroKey }, at' flowDev, ten, 1828,
    served_ten _ _ _ rfl rfl rfl rfl rfl (by decide) (by decide), hears_fn _ _ rfl (by decide) rfl rfl,
    (by decide +kernel), (by decide +kernel)⟩

theorem meets_flowRead : ∃ (h : Hdr) (s : State) (x : Session), s.Serves { code := 0x0504, lenOk := fun _ => true, maxBody := 2048, changes := false } h x ∧
    s.Hears h ∧
    x.role ≠ .maint ∧
    s.dev.hasRegion x.tenancy = true :=
  ⟨askT 0, at' flowDev, ten, served_ten _ _ _ rfl rfl rfl rfl rfl (by decide) (by decide),
    hears_fn _ _ rfl (by decide) rfl rfl, by decide +kernel, by decide +kernel⟩

theorem meets_learnPolicySet : ∃ (h : Hdr) (r : LearnPolicyRec) (s : State) (x : Session), s.Serves { code := 0x0505, lenOk := exactly 12, maxBody := 0 } h x ∧
    s.Hears h ∧
    firstFail (learnPolicyChecks (x.sends h) s.dev r) = none :=
  ⟨askT 12, { ageingS := 1000000, flowIdleS := 65535, eviction := 2, flags := 3, flowEviction := 2 }, at' learnDev,
    ten, served_ten _ _ _ rfl rfl rfl rfl rfl (by decide) (by decide), hears_fn _ _ rfl (by decide) rfl rfl,
    by decide +kernel⟩

theorem meets_learnQuotaSet : ∃ (h : Hdr) (r : LearnQuotaRec) (s : State) (x : Session) (t : Nat), s.Serves { code := 0x0506, lenOk := exactly 68, maxBody := 0 } h x ∧
    s.Hears h ∧
    firstFail (learnQuotaChecks (x.sends h) r) = none ∧
    renewsQuota s.dev r = false ∧
    t < 16 :=
  ⟨ask 68, { quota := [0, 0, 0, 262208] ++ List.replicate 12 0, reseedS := 3600 }, at' learnDev, own, 15,
    served_own _ _ _ rfl rfl rfl rfl rfl (by decide) (by decide), hears_fn _ _ rfl (by decide) rfl rfl,
    by decide +kernel, by decide +kernel, by decide +kernel⟩

theorem meets_learnPortSet : ∃ (h : Hdr) (r : LearnPortRec) (s : State) (x : Session), s.Serves { code := 0x0507, lenOk := exactly 4, maxBody := 0 } h x ∧
    s.Hears h ∧
    x.role = .owner ∧
    r.port ≤ 95 ∧
    r.defaultBd ≤ 4095 :=
  ⟨ask 4, { port := 95, flags := 1, defaultBd := 4095 }, at' base, own,
    served_own _ _ _ rfl rfl rfl rfl rfl (by decide) (by decide), hears_fn _ _ rfl (by decide) rfl rfl,
    by decide +kernel, by decide +kernel, by decide +kernel⟩

theorem meets_learnStaticSet : ∃ (h : Hdr) (r : LearnStaticRec) (s : State) (x : Session) (k : Nat), s.Serves { code := 0x0508, lenOk := fun _ => true, maxBody := 0, canAsync := true } h x ∧
    firstFail (learnStaticChecks (x.sends h) s.dev r) = none ∧
    k < 7 :=
  ⟨askT 16, { mac := 0x020000000009, bd := 4095, port := 4 },
    at' { learnDev with ten := { base.ten with ports := ⟨[(4, { PortMap.reset with tenancy := 3 })]⟩ } }, ten, 6,
    served_ten _ _ _ rfl rfl rfl rfl rfl (by decide) (by decide), by decide +kernel, by decide +kernel⟩

theorem meets_learnFlush : ∃ (h : Hdr) (r : LearnFlushRec) (s : State) (x : Session) (k : Nat) (e : LearnEntry), s.Serves { code := 0x0509, lenOk := fun _ => true, maxBody := 0, canAsync := true } h x ∧
    s.Hears h ∧
    h.flags.testBit 0 = false ∧
    x.role ≠ .maint ∧
    s.dev.learnQuota x.tenancy ≠ 0 ∧
    (x.sends h).stale (s.dev.tables.quotaEpochs.get 0 x.tenancy) = false ∧
    r.sleeves < 128 ∧
    r.port ≤ 95 ∧
    r.bd ≤ 4095 ∧
    r.mac < 2 ^ 48 ∧
    (k, e) ∈ s.dev.tables.learn.cells ∧
    r.sleeves.testBit (k / 2 ^ 19) = true ∧
    e.tenancy = x.tenancy ∧
    flushTakes r e = true :=
  ⟨askT 16, { sleeves := 127, flags := 7, port := 4, bd := 1, mac := 0x020000000001 }, at' learnDev, ten, 40268,
    learnt 0x020000000001 4, served_ten _ _ _ rfl rfl rfl rfl rfl (by decide) (by decide),
    hears_fn _ _ rfl (by decide) rfl rfl, by decide +kernel, by decide +kernel, by decide +kernel,
    by decide +kernel, by decide +kernel, by decide +kernel, by decide +kernel, by decide +kernel,
    by decide +kernel, by decide +kernel, by decide +kernel, by decide +kernel⟩

theorem meets_learnRead : ∃ (h : Hdr) (k : Nat) (s : State) (x : Session), s.Serves { code := 0x050A, lenOk := fun _ => true, maxBody := 2048, changes := false } h x ∧
    s.Hears h ∧
    k ≤ 6 ∧
    firstFail (learnSender (x.sends h) s.dev) = none :=
  ⟨askT 8, 6, at' learnDev, ten, served_ten _ _ _ rfl rfl rfl rfl rfl (by decide) (by decide),
    hears_fn _ _ rfl (by decide) rfl rfl, by decide +kernel, by decide +kernel⟩

theorem meets_tableStatsGet : ∃ (h : Hdr) (k : Nat) (s : State) (x : Session), s.Serves { code := 0x050B, lenOk := fun _ => true, maxBody := 2048, changes := false } h x ∧
    s.Hears h ∧
    k ≤ 6 ∧
    x.role = .tenant :=
  ⟨askT 8, 6, at' learnDev, ten, served_ten _ _ _ rfl rfl rfl rfl rfl (by decide) (by decide),
    hears_fn _ _ rfl (by decide) rfl rfl, by decide +kernel, by decide +kernel⟩

end Sys2Proof.Tests.Tables
end

