-- ==== Sys2Proof/Tests/Tcam.lean ====
section
/-! SUPPORT. For every clause of the statements about Tcam, a state and operands that meet its hypotheses. -/

namespace Sys2Proof.Tests.Tcam

set_option Elab.async false

open Sys2Proof Sys2Proof.Machine

def stageCtx6 : BitVec 512 := putAll 0 [(fTenancy, 3)]
def at6 : Frame := { pkt with phase := .tcam, ctx := stageCtx6 }
/-- A profile of tenancy 3 that takes two bytes of the context, and an entry of bank 0 that matches them. -/
def tcamProf : ProfileRec :=
  { profile := 3, count := 1, selectMask := 1, extract := [{ base := 7, offset := 62, len := 2 }] ++ List.replicate 7 { base := 0, offset := 0, len := 0 },
    keyMask := List.replicate 76 255 }
def tcamRec : TcamWriteRec :=
  { index := 2047, profile := 3, actionRef := 16777215, metaVal := 65535, value := List.replicate 76 0, mask := List.replicate 38 255 ++ List.replicate 38 0 }
def tcamEnt : TcamEntry := { data := tcamRec, tenancy := 3, paired := false, live := 1 }
def tcamDev : Dev :=
  { base with tcam := { TcamState.reset with profiles := ⟨[(15, tcamProf)]⟩, entries := ⟨[(2047, tcamEnt)]⟩ } }

theorem meets_tcamSearch : ∃ (fid p i : Nat) (r : ProfileRec) (bs : List Nat) (e : TcamEntry) (f : Frame) (s : State), s.Plain fid f .tcam ∧
    skipsLookups f = false ∧
    (let g := { f with ctx := putBits f.ctx 37 59 0 }; let t := fld g.ctx fTenancy; s.dev.held t 3 ≠ []) ∧
    (let g := { f with ctx := putBits f.ctx 37 59 0 }; let t := fld g.ctx fTenancy; selectProfile s.dev.tcam.profiles t (fld g.ctx fL3Type) = some (p, r)) ∧
    (let g := { f with ctx := putBits f.ctx 37 59 0 }; extractAll g (r.extract.take r.count) = some bs) ∧
    (let g := { f with ctx := putBits f.ctx 37 59 0 }; let t := fld g.ctx fTenancy; tcamCandidates s.dev f.sleeve t p (fld g.ctx fVersion) (maskedKey 76 r.keyMask bs) [] [] = [i]) ∧
    s.dev.tcam.entries.get? i = some e ∧
    (let g := { f with ctx := putBits f.ctx 37 59 0 }; let t := fld g.ctx fTenancy; tcamMatches e t p (maskedKey 76 r.keyMask bs) = true) :=
  ⟨9, 3, 2047, tcamProf, [0, 0], tcamEnt, at6, at' (withFrame at6 tcamDev), ⟨rfl, rfl, rfl, rfl, rfl, fun _ => rfl⟩,
    by decide +kernel, by decide +kernel, by decide +kernel, by decide +kernel, by decide +kernel, rfl,
    by decide +kernel⟩

theorem meets_tcamSearch_2 : ∃ (fid : Nat) (_sp _ms : List Nat) (f : Frame) (s : State), s.Plain fid f .tcam ∧
    skipsLookups f = false ∧
    s.dev.held (fld (putBits f.ctx 37 59 0) fTenancy) 3 = [] :=
  ⟨9, [3], [4], { at6 with ctx := 0 }, at' (withFrame { at6 with ctx := 0 } { base with ten := TenState.reset }),
    ⟨rfl, rfl, rfl, rfl, rfl, fun _ => rfl⟩, by decide +kernel, by decide +kernel⟩

theorem meets_tcamScrubPassStart : ∃ (k : Nat) (_rows : List Nat) (s : State), s.On ∧
    k < 7 ∧
    (∀ t, (s.dev.tcamSleeve k).scrubAt = some t → t + (s.dev.tcamSleeve k).scrubMs * cyclesPerMs ≤ s.dev.now) :=
  ⟨6, [0, 7],
    at' { base with tcam := { TcamState.reset with sleeves := ⟨[(6, { TcamSleeve.reset with scrubAt := some 297000000000 })]⟩ } },
    rfl, by decide +kernel, opt_all (by decide)⟩

theorem meets_tcamBandEval : ∃ (k : Nat) (t : Int) (s : State), s.On ∧
    s.dev.gus.bandAt + 300000 ≤ s.dev.now ∧
    k < 7 ∧
    s.dev.tcamTemp k = some t :=
  ⟨6, 420,
    at' { base with gus := { base.gus with temps := List.replicate 13 400 ++ [420], bandAt := 299999700000 } },
    rfl, by decide +kernel, by decide +kernel, by decide +kernel⟩

theorem meets_searchWindowBoundary : ∃ (k : Nat) (s : State), s.On ∧
    k < 7 ∧
    (s.dev.sleeve k).enabled = true ∧
    (s.dev.tcamSleeve k).window < (s.dev.now - (s.dev.sleeve k).enabledAt) / 64 :=
  ⟨6,
    at' { base with arch := { sleeves := ⟨[(6, { SleeveState.reset with enabled := true, enabledAt := 299999999936 })]⟩ } },
    rfl, by decide +kernel, by decide +kernel, by decide +kernel⟩

theorem meets_tcamProfileSet : ∃ (h : Hdr) (r : ProfileRec) (s : State) (x : Session), s.Serves { code := 0x0601, lenOk := exactly 112, maxBody := 0 } h x ∧
    s.Hears h ∧
    firstFail (tcamProfileChecks (x.sends h) s.dev r) = none :=
  ⟨askT 112, tcamProf, at' base, ten, served_ten _ _ _ rfl rfl rfl rfl rfl (by decide) (by decide),
    hears_fn _ _ rfl (by decide) rfl rfl, by decide +kernel⟩

theorem meets_tcamWrite : ∃ (h : Hdr) (r : TcamWriteRec) (s : State) (x : Session), s.Serves { code := 0x0602, lenOk := exactly 168, maxBody := 0 } h x ∧
    s.Hears h ∧
    firstFail (tcamWriteChecks (x.sends h) s.dev r) = none :=
  ⟨askT 168, tcamRec, at' base, ten, served_ten _ _ _ rfl rfl rfl rfl rfl (by decide) (by decide),
    hears_fn _ _ rfl (by decide) rfl rfl, by decide +kernel⟩

theorem meets_tcamClear : ∃ (h : Hdr) (i : Nat) (e : TcamEntry) (s : State) (x : Session), s.Serves { code := 0x0603, lenOk := exactly 2, maxBody := 0 } h x ∧
    s.Hears h ∧
    firstFail (tcamClearChecks (x.sends h) s.dev i) = none ∧
    s.dev.tcam.entries.get? i = some e :=
  ⟨askT 2, 2047, tcamEnt, at' tcamDev, ten, served_ten _ _ _ rfl rfl rfl rfl rfl (by decide) (by decide),
    hears_fn _ _ rfl (by decide) rfl rfl, by decide +kernel, rfl⟩

theorem meets_tcamIterate : ∃ (h : Hdr) (r : TcamIterateRec) (s : State) (x : Session), s.Serves { code := 0x0604, lenOk := exactly 88, maxBody := 264, changes := false } h x ∧
    firstFail (tcamSender (x.sends h) s.dev) = none ∧
    r.sleeve ≤ 6 ∧
    (r.version ≤ 3 ∨ r.version = 255) ∧
    r.profile ≤ 3 ∧
    r.startIndex ≤ 32767 ∧
    1 ≤ r.maxResults ∧
    r.maxResults ≤ 64 :=
  ⟨askT 88,
    { sleeve := 6, version := 255, profile := 3, startIndex := 32767, maxResults := 64, epoch := 0, key := List.replicate 76 0 },
    at' base, ten, served_ten _ _ _ rfl rfl rfl rfl rfl (by decide) (by decide), by decide +kernel,
    by decide +kernel, by decide +kernel, by decide +kernel, by decide +kernel, by decide +kernel,
    by decide +kernel⟩

theorem meets_tcamThrottleSet : ∃ (h : Hdr) (r : TcamThrottleRec) (s : State) (x : Session) (k : Nat), s.Serves { code := 0x0605, lenOk := exactly 8, maxBody := 0 } h x ∧
    s.Hears h ∧
    x.role = .owner ∧
    (r.sleeve ≤ 6 ∨ r.sleeve = 255) ∧
    r.tcReserve ≤ 32 ∧
    100 ≤ r.scrubMs ∧
    r.scrubMs ≤ 60000 ∧
    k ∈ sleevesNamed r.sleeve :=
  ⟨ask 8, { sleeve := 255, tcReserve := 32, scrubMs := 60000 }, at' base, own, 6,
    served_own _ _ _ rfl rfl rfl rfl rfl (by decide) (by decide), hears_fn _ _ rfl (by decide) rfl rfl,
    by decide +kernel, by decide +kernel, by decide +kernel, by decide +kernel, by decide +kernel,
    by decide +kernel⟩

theorem meets_tcamStatusGet : ∃ (h : Hdr) (k : Nat) (s : State) (x : Session), s.Serves { code := 0x0606, lenOk := fun _ => true, maxBody := 2048, changes := false } h x ∧
    s.Hears h ∧
    k ≤ 6 ∧
    x.role = .maint :=
  ⟨askM 8, 6, at' base, mnt, served_mnt _ _ _ rfl rfl rfl rfl rfl rfl (by decide) (by decide),
    hears_fn _ _ rfl (by decide) rfl rfl, by decide +kernel, by decide +kernel⟩

end Sys2Proof.Tests.Tcam
end

