-- ==== Sys2Proof/Tests/Tenancy.lean ====
section
/-! SUPPORT. For every clause of the statements about Tenancy, a state and operands that meet its hypotheses. -/

namespace Sys2Proof.Tests.Tenancy

set_option Elab.async false

open Sys2Proof Sys2Proof.Machine

/-- The device with this tenancy state or these versions. -/
def td (t : TenState) : Dev := { base with ten := t }
def vd (v : VersState) (d : Dev) : Dev := { d with vers := v }
def scrubbed : Commit := { id := 0, token := none, tenancy := 3, changes := [], step := 2, deadline := none, scrub := some 7 }
def twoSlots : VersState :=
  { VersState.reset with slots := ⟨[(0, { state := .current, epoch := 16383 }), (1, { state := .prepared, epoch := 0 })]⟩, commits := [scrubbed] }
/-- A reassignment that moves unit 0 of a kind, standing at a step. -/
def mv (kind step : Nat) : Reassign :=
  { id := 7, kind := kind, moving := [0], kept := [], newTenancy := some 3, holders := [(0, 3)], paired := false, value := none, enrol := none, step := step, waitSlots := [], fence := 299999000000, token := some tok }
def md (m : Reassign) : Dev := td { base.ten with moves := [m] }
def mirrored : QEntry :=
  { fid := 9, since := 299999999000, pockets := 1, spill := 0, units := [], late := false, trunc := 0, isMirror := true, len := 64 }
def queueDev : Dev :=
  withYoke { pools with queues := ⟨[(0, [mirrored])]⟩, descUsed := 1 } (withFrame { pkt with refs := 1, phase := .done } (td { base.ten with units := base.ten.units.set (unitKey 1 0) { tenancy := some 3, epoch := 0, scrubbing := true } }))
def portRec (t : Nat) : PortTenancyRec := { port := 95, mode := 0, tenancy := t, firstVid := 0, count := 0, entries := [] }
def turn (t : Nat) : WaitingTurn := { token := tok, cmd := .portTenancy (portRec t) }
def maint9 : Session := { mnt with maxDuration := 100, timeFree := false, notAfter := 0 }
def expired (a : Nat) : Dev :=
  { base with mbx := { boxes with fns := ⟨[(0, box own), (1, box maint9), (2, box ten)]⟩ }, hem := { base.hem with acc := a } }
def token9 : Sys2Proof.Token :=
  { version := 1, scope := 2, flags := 0, deviceOk := true, subject := 0, notAfter := 0, maxDurationS := 0, nonce := 77, sigOk := true }
def nonced : Dev := td { base.ten with debugNonce := some (77, 0) }
def assign (t : Nat) : ResAssignRec := { kind := 4, tenancy := t, flags := 0, first := 0, count := 1, queueMask := 0 }

theorem meets_tenancyLossEffect : ∃ (p : Nat) (ts : List Nat) (s : State), s.On ∧
    s.dev.ten.lossRx.get? p = some ts ∧
    (s.dev.port p).rxFrame = none :=
  ⟨95, [3], at' (td { base.ten with lossRx := ⟨[(95, [3])]⟩ }), rfl, rfl, by decide +kernel⟩

theorem meets_tenancyLossEffect_2 : ∃ (p : Nat) (ts : List Nat) (s : State), s.On ∧
    s.dev.ten.lossTx.get? p = some ts ∧
    (s.dev.port p).txFrame = none :=
  ⟨95, [3], at' (td { base.ten with lossTx := ⟨[(95, [3])]⟩ }), rfl, rfl, by decide +kernel⟩

theorem meets_resScrubCommit : ∃ (i v : Nat) (c : Commit) (cs : List Commit) (s : State), s.On ∧
    s.dev.vers.commits = c :: cs ∧
    s.dev.preparedSlot = some v ∧
    c.scrub = some i ∧
    c.changes = [] ∧
    s.dev.current ≠ v ∧
    s.dev.current < 4 :=
  ⟨7, 1, scrubbed, [], at' (vd twoSlots (md (mv 4 2))), rfl, by decide +kernel, by decide +kernel, by decide +kernel,
    by decide +kernel, by decide +kernel, by decide +kernel⟩

theorem meets_resDrainDone : ∃ (i : Nat) (m : Reassign) (s : State), s.On ∧
    s.dev.move i = some m ∧
    m.step = 3 ∧
    m.waitSlots = [] :=
  ⟨7, mv 4 3, at' (md (mv 4 3)), rfl, by decide +kernel, by decide +kernel, by decide +kernel⟩

theorem meets_resUnitScrubDone : ∃ (i : Nat) (m : Reassign) (s : State), s.On ∧
    s.dev.move i = some m ∧
    m.step = 4 ∧
    m.kind = 8 :=
  ⟨7, mv 8 4, at' (md (mv 8 4)), rfl, by decide +kernel, by decide +kernel, by decide +kernel⟩

theorem meets_scrubQueueDiscard : ∃ (p q : Nat) (e : QEntry) (es : List QEntry) (s : State), s.On ∧
    p < 96 ∧
    q < 16 ∧
    (s.dev.unit 1 (qKey p q)).scrubbing = true ∧
    s.dev.queue p q = e :: es ∧
    e.isMirror = true :=
  ⟨0, 0, mirrored, [], at' queueDev, rfl, by decide +kernel, by decide +kernel, by decide +kernel, rfl,
    by decide +kernel⟩

theorem meets_resEpochIssue : ∃ (i u : Nat) (m : Reassign) (s : State), s.On ∧
    s.dev.move i = some m ∧
    m.step = 5 ∧
    m.moving = [u] ∧
    m.kept = [] ∧
    m.value = none ∧
    m.newTenancy = some 3 ∧
    m.kind = 4 ∧
    m.enrol = none ∧
    s.dev.turnReady = true :=
  ⟨7, 0, mv 4 5, at' (td { base.ten with moves := [mv 4 5], counter := 65535 }), rfl, by decide +kernel,
    by decide +kernel, by decide +kernel, by decide +kernel, by decide +kernel, by decide +kernel,
    by decide +kernel, by decide +kernel, by decide +kernel⟩

theorem meets_assignCounterTurn : ∃ (w : WaitingTurn) (ws : List WaitingTurn) (r : PortTenancyRec) (s : State), s.On ∧
    s.dev.ten.turns = w :: ws ∧
    w.cmd = .portTenancy r ∧
    s.dev.turnReady = true :=
  ⟨turn 3, [], portRec 3, at' (td { base.ten with turns := [turn 3] }), rfl, by decide +kernel, by decide +kernel,
    by decide +kernel⟩

theorem meets_rollbackFuseBlow : ∃ (n t : Nat) (tok : Machine.Token) (s : State), s.On ∧
    s.dev.ten.rollbackTarget = some (n, tok, t) ∧
    t + cyclesPerMs ≤ s.dev.now ∧
    s.dev.ten.rollback + 1 < n :=
  ⟨64, 299997000000, tok, at' (td { base.ten with rollback := 62, rollbackTarget := some (64, tok, 299997000000) }),
    rfl, by decide +kernel, by decide +kernel, by decide +kernel⟩

theorem meets_rollbackFuseBlow_2 : ∃ (n t : Nat) (tok : Machine.Token) (s : State), s.On ∧
    s.dev.ten.rollbackTarget = some (n, tok, t) ∧
    t + cyclesPerMs ≤ s.dev.now ∧
    n ≤ s.dev.ten.rollback + 1 :=
  ⟨64, 299997000000, tok, at' (td { base.ten with rollback := 63, rollbackTarget := some (64, tok, 299997000000) }),
    rfl, by decide +kernel, by decide +kernel, by decide +kernel⟩

theorem meets_debugNonceExpiry : ∃ (n t : Nat) (s : State), s.On ∧
    s.dev.ten.debugNonce = some (n, t) ∧
    t + 300 * cyclesPerS ≤ s.dev.now :=
  ⟨77, 0, at' { nonced with now := 900000000000 }, rfl, by decide +kernel, by decide +kernel⟩

theorem meets_claspHealthTestFail : ∃ (s : State), s.On :=
  ⟨at' base, rfl⟩

theorem meets_drawTimeout : ∃ (s : State), s.On :=
  ⟨at' (td { base.ten with draws := [(tok, 297000000000), (tok, 299999999999)] }), rfl⟩

theorem meets_maintSessionExpiry : ∃ (f k : Nat) (x : Session) (s : State), s.On ∧
    (s.dev.mbox f).sealed.get? k = some x ∧
    x.role = .maint ∧
    x.openedAt + x.maxDuration * cyclesPerS ≤ s.dev.now :=
  ⟨1, 1, maint9, at' (expired 0), rfl, rfl, by decide +kernel, by decide +kernel⟩

theorem meets_maintNotAfterCheck : ∃ (f k : Nat) (x : Session) (s : State), s.On ∧
    (f, k, x) ∈ s.dev.openSessions ∧
    k ≠ 0 ∧
    x.role = .maint ∧
    x.timeFree = false ∧
    x.notAfter < s.dev.stamp.sec :=
  ⟨1, 1, maint9, at' (expired (unitNs * 1000000000)), rfl, by decide +kernel, by decide +kernel, by decide +kernel,
    by decide +kernel, by decide +kernel⟩

theorem meets_portTenancySet : ∃ (h : Hdr) (r : PortTenancyRec) (s : State) (x : Session), s.Serves { code := 0x1001, lenOk := exactly (8 + r.count), maxBody := 0 } h x ∧
    s.Hears h ∧
    firstFail (portTenancyChecks (x.sends h) s.dev r) = none ∧
    s.dev.turnReady = true ∧
    s.dev.ten.turns = [] ∧
    r.mode = 0 ∧
    r.tenancy < 16 ∧
    (s.dev.portMap r.port).mode = 0 ∧
    (s.dev.portMap r.port).tenancy ≠ r.tenancy :=
  ⟨ask 8, portRec 15, at' base, own, served_own _ _ _ rfl rfl rfl rfl rfl (by decide) (by decide),
    hears_fn _ _ rfl (by decide) rfl rfl, by decide +kernel, by decide +kernel, by decide +kernel,
    by decide +kernel, by decide +kernel, by decide +kernel, by decide +kernel⟩

theorem meets_portTenancySet_2 : ∃ (h : Hdr) (r : PortTenancyRec) (s : State) (x : Session), s.Serves { code := 0x1001, lenOk := exactly (8 + r.count), maxBody := 0 } h x ∧
    s.Hears h ∧
    firstFail (portTenancyChecks (x.sends h) s.dev r) = none ∧
    r.mode = 0 ∧
    r.tenancy = 255 :=
  ⟨ask 8, portRec 255, at' base, own, served_own _ _ _ rfl rfl rfl rfl rfl (by decide) (by decide),
    hears_fn _ _ rfl (by decide) rfl rfl, by decide +kernel, by decide +kernel, by decide +kernel⟩

theorem meets_resAssign : ∃ (h : Hdr) (r : ResAssignRec) (s : State) (x : Session), s.Serves { code := 0x1002, lenOk := exactly 12, maxBody := 8, canAsync := true } h x ∧
    s.Hears h ∧
    firstFail (resAssignChecks (x.sends h) s.dev r) = none ∧
    (s.dev.movePlan r).moving = [] :=
  ⟨ask 12, assign 3, at' base, own, served_own _ _ _ rfl rfl rfl rfl rfl (by decide) (by decide),
    hears_fn _ _ rfl (by decide) rfl rfl, by decide +kernel, by decide +kernel⟩

theorem meets_resAssign_2 : ∃ (h : Hdr) (r : ResAssignRec) (u : Nat) (s : State) (x : Session), s.Serves { code := 0x1002, lenOk := exactly 12, maxBody := 8, canAsync := true } h x ∧
    firstFail (resAssignChecks (x.sends h) s.dev r) = none ∧
    r.kind = 4 ∧
    u ∈ (s.dev.movePlan r).moving ∧
    s.dev.commitUnderWay = false ∧
    s.dev.holdersOf 4 (s.dev.movePlan r).moving ≠ [] ∧
    (∀ m ∈ s.dev.ten.moves, m.id ≠ s.dev.ten.moveSeq) :=
  ⟨ask 12, assign 255, 0, at' base, own, served_own _ _ _ rfl rfl rfl rfl rfl (by decide) (by decide),
    by decide +kernel, by decide +kernel, by decide +kernel, by decide +kernel, by decide +kernel,
    by decide +kernel⟩

theorem meets_resStatusGet : ∃ (h : Hdr) (kind : Nat) (s : State) (x : Session), s.Serves { code := 0x1003, lenOk := exactly 4, maxBody := 2048, changes := false } h x ∧
    s.Hears h ∧
    x.role ≠ .maint ∧
    1 ≤ kind ∧
    kind ≤ 14 :=
  ⟨ask 4, 14, at' base, own, served_own _ _ _ rfl rfl rfl rfl rfl (by decide) (by decide),
    hears_fn _ _ rfl (by decide) rfl rfl, by decide +kernel, by decide +kernel, by decide +kernel⟩

theorem meets_ownerKeySet : ∃ (h : Hdr) (_key : Nat) (_ok : Bool) (s : State) (x : Session), s.Serves { code := 0x1004, lenOk := fun l => l = 96 || l = 192, maxBody := 0 } h x ∧
    s.dev.ten.ownerKey = none ∧
    h.fn = 0 ∧
    h.session = 0 :=
  ⟨askZero 96, 5, true, at' base, Session.zero, served_zero _ _ _ rfl rfl rfl rfl rfl (by decide) (by decide) rfl,
    by decide +kernel, by decide +kernel, by decide +kernel⟩

theorem meets_ownerKeySet_2 : ∃ (h : Hdr) (_key k : Nat) (s : State) (x : Session), s.Serves { code := 0x1004, lenOk := fun l => l = 96 || l = 192, maxBody := 0 } h x ∧
    s.Hears h ∧
    s.dev.ten.ownerKey = some k :=
  ⟨ask 192, 5, 6, at' (td { base.ten with ownerKey := some 6 }), own,
    served_own _ _ _ rfl rfl rfl rfl rfl (by decide) (by decide), hears_fn _ _ rfl (by decide) rfl rfl,
    by decide +kernel⟩

theorem meets_tenantEnrol : ∃ (h : Hdr) (r : TenantEnrolRec) (s : State) (x : Session), s.Serves { code := 0x1005, lenOk := fun _ => true, maxBody := 0, canAsync := true } h x ∧
    x.role = .owner ∧
    1 ≤ r.tenancy ∧
    r.tenancy ≤ 15 ∧
    s.dev.ten.tenantKeys.get? r.tenancy = none :=
  ⟨ask 104, { tenancy := 15, flags := 0, key := 5 }, at' base, own,
    served_own _ _ _ rfl rfl rfl rfl rfl (by decide) (by decide), by decide +kernel, by decide +kernel,
    by decide +kernel, by decide +kernel⟩

theorem meets_rollbackAdvance : ∃ (h : Hdr) (n : Nat) (s : State) (x : Session), s.Serves { code := 0x1006, lenOk := fun _ => true, maxBody := 0, canAsync := true, sealedOnly := true } h x ∧
    x.role = .owner ∧
    s.dev.ten.rollback < n ∧
    n ≤ 64 ∧
    (∀ v ∈ s.dev.imageVersions, n ≤ v) ∧
    s.dev.ten.rollbackTarget = none :=
  ⟨ask 1, 64, at' base, own, served_own _ _ _ rfl rfl rfl rfl rfl (by decide) (by decide), by decide +kernel,
    by decide +kernel, by decide +kernel, by decide +kernel, by decide +kernel⟩

theorem meets_attestGet : ∃ (h : Hdr) (_n : Nat) (s : State) (x : Session), s.Serves { code := 0x1007, lenOk := exactly 16, maxBody := 2048, open0 := true, changes := false } h x ∧
    s.Hears h :=
  ⟨askT 16, 9, at' base, ten, served_ten _ _ _ rfl rfl rfl rfl rfl (by decide) (by decide),
    hears_fn _ _ rfl (by decide) rfl rfl⟩

theorem meets_debugNonceGet : ∃ (h : Hdr) (s : State) (x : Session), s.Serves { code := 0x1008, lenOk := exactly 0, maxBody := 16 } h x ∧
    s.Hears h ∧
    x.role = .owner ∧
    s.dev.ten.rngOk = true :=
  ⟨ask 0, at' base, own, served_own _ _ _ rfl rfl rfl rfl rfl (by decide) (by decide),
    hears_fn _ _ rfl (by decide) rfl rfl, by decide +kernel, by decide +kernel⟩

theorem meets_debugUnlock : ∃ (h : Hdr) (a b : Sys2Proof.Token) (s : State) (x : Session), s.Serves { code := 0x1009, lenOk := exactly 464, maxBody := 0, canAsync := true, sealedOnly := true } h x ∧
    x.role = .owner ∧
    s.dev.ten.lifecycle.testBit 1 = false ∧
    unlockToken s.dev.ten.debugNonce a = true ∧
    unlockToken s.dev.ten.debugNonce b = true :=
  ⟨ask 464, token9, token9, at' nonced, own, served_own _ _ _ rfl rfl rfl rfl rfl (by decide) (by decide),
    by decide +kernel, by decide +kernel, by decide +kernel, by decide +kernel⟩

theorem meets_debugUnlock_2 : ∃ (h : Hdr) (a _b : Sys2Proof.Token) (s : State) (x : Session), s.Serves { code := 0x1009, lenOk := exactly 464, maxBody := 0, canAsync := true, sealedOnly := true } h x ∧
    s.Hears h ∧
    x.role = .owner ∧
    s.dev.ten.lifecycle.testBit 1 = false ∧
    unlockToken s.dev.ten.debugNonce a = false :=
  ⟨ask 464, { token9 with sigOk := false }, token9, at' nonced, own,
    served_own _ _ _ rfl rfl rfl rfl rfl (by decide) (by decide), hears_fn _ _ rfl (by decide) rfl rfl,
    by decide +kernel, by decide +kernel, by decide +kernel⟩

end Sys2Proof.Tests.Tenancy
end

