-- ==== Sys2Proof/Tests/Yoke.lean ====
section
/-! SUPPORT. For every clause of the statements about Yoke, a state and operands that meet its hypotheses. -/

namespace Sys2Proof.Tests.Yoke

set_option Elab.async false

open Sys2Proof Sys2Proof.Machine

/-- Frame 9 for queue 0 of port 0, at a phase. -/
def out9 (ph : Phase) (disp : Nat) : Frame :=
  { pkt with phase := ph, ctx := putAll 0 [(fTenancy, 3)], desc := putAll 0 [(dDisp, disp)], sof := 299999999900 }
/-- Ports 0 at 25 Gb/s up, its queue 0 time-critical. -/
def port25 : Port :=
  let cfg : PortConfigRec := { portCfgReset 0 with mode := 2 }
  { upPort with cfg := cfg, rxCfg := cfg, txCfg := cfg }
def seamDev : Dev := withYoke { pools with bufs := ⟨[(0, { queueBufReset 0 0 with flags := 1 })]⟩ } (withPort port25 base)
def claimed : Frame := { out9 .yoke 1 with seam := .claimed, ended := false }
def lateClaim : Frame := { claimed with sof := 299999999863 }
/-- Pocket 7 held by the queue manager, and frame 9 in queue 0 of port 0. -/
def held9 : YokeState :=
  { pools with pockets := ⟨[(7, { Pocket.reset with allocated := true, pool := 2, unit := 16, refs := 1, last := true, served := some 3 })]⟩ }
def ent9 (spill : Nat) : QEntry :=
  { fid := 9, since := 299999999999, pockets := 1, spill := spill, units := [], late := false, trunc := 0, isMirror := false, len := 64 }
def queued (spill : Nat) : YokeState := { held9 with queues := ⟨[(0, [ent9 spill])]⟩, descUsed := 1 }
def job9 (t : CopyTarget) : CopyJob := { target := t, tenancy := 3, len := 0, whole := false }
def entry9 : RxEntry :=
  { index := 0, slots := 2, phase := false, length := 64, port := 0, tenancy := 3, flags := 0, stepGen := 0, decision := 0, seconds := 0, frameLen := 64, nanos := 0, fraction := 0, bytes := plainBytes }
def served9 (n : Nat) : Served := { pool := 2, held := List.range n, used := 299999995904 }
def lowPool : Pool := { Pool.reset with tenancy := 3, epoch := 5, size := 895, total := 895, free := [(100, 895)] }

theorem meets_enqueueDecision : ∃ (fid : Nat) (f : Frame) (s : State), s.Plain fid f .enqueue ∧
    fld (settledDesc f) dDisp = dispForward ∧
    s.dev.claims { f with desc := settledDesc f } = false ∧
    (∀ t, s.dev.lining.captures.get? t = none) :=
  ⟨9, out9 .enqueue 1, at' (withFrame (out9 .enqueue 1) (withPort port25 base)),
    ⟨rfl, rfl, rfl, rfl, rfl, fun _ => rfl⟩, by decide +kernel, by decide +kernel, fun _ => rfl⟩

theorem meets_enqueueDecision_2 : ∃ (fid : Nat) (f : Frame) (s : State), s.Plain fid f .enqueue ∧
    fld (settledDesc f) dDisp = dispRecirc ∧
    f.place = true ∧
    f.fragWaits = none :=
  ⟨9, { out9 .enqueue 4 with place := true }, at' (withFrame { out9 .enqueue 4 with place := true } base),
    ⟨rfl, rfl, rfl, rfl, rfl, fun _ => rfl⟩, by decide +kernel, by decide +kernel, by decide +kernel⟩

theorem meets_egressHandoff : ∃ (fid : Nat) (f : Frame) (s : State), s.Plain fid f .handoff :=
  ⟨9, out9 .handoff 1, at' (withFrame (out9 .handoff 1) base), ⟨rfl, rfl, rfl, rfl, rfl, fun _ => rfl⟩⟩

theorem meets_seamClaim : ∃ (p fid : Nat) (f : Frame) (s : State), s.On ∧
    s.dev.claimsOn p = [(fid, f)] ∧
    s.dev.judge f = .grant :=
  ⟨0, 9, claimed, at' (withFrame claimed seamDev), rfl, by decide +kernel, by decide +kernel⟩

theorem meets_seamClaim_2 : ∃ (p fid : Nat) (f : Frame) (s : State), s.On ∧
    s.dev.claimsOn p = [(fid, f)] ∧
    s.dev.judge f = .miss :=
  ⟨0, 9, lateClaim, at' (withFrame lateClaim seamDev), rfl, by decide +kernel, by decide +kernel⟩

theorem meets_enqueue : ∃ (fid : Nat) (f : Frame) (s : State), s.On ∧
    s.dev.frame fid = some f ∧
    f.phase = .yoke ∧
    f.ended = true ∧
    f.seam = .none ∧
    f.bad = false ∧
    f.noMore = false ∧
    lateMalformed f = false ∧
    f.learn = none ∧
    f.rel = none ∧
    fld f.desc dDisp = dispForward ∧
    s.dev.flushes f.target = false ∧
    s.dev.yoke.descUsed < descTotal ∧
    s.dev.elastic f.target (fld f.desc dQueue) = false ∧
    queuePockets (s.dev.queue f.target (fld f.desc dQueue)) + f.pockets.length ≤ (s.dev.buf f.target (fld f.desc dQueue)).limit :=
  ⟨9, out9 .yoke 1, at' (withYoke pools (withPort upPort (withFrame (out9 .yoke 1) base))), rfl, rfl,
    by decide +kernel, by decide +kernel, by decide +kernel, by decide +kernel, by decide +kernel,
    by decide +kernel, by decide +kernel, by decide +kernel, by decide +kernel, by decide +kernel,
    by decide +kernel, by decide +kernel, by decide +kernel⟩

theorem meets_enqueue_2 : ∃ (fid : Nat) (f : Frame) (s : State), s.On ∧
    s.dev.frame fid = some f ∧
    f.phase = .yoke ∧
    f.ended = true ∧
    f.seam = .none ∧
    f.bad = false ∧
    f.noMore = false ∧
    lateMalformed f = false ∧
    f.learn = none ∧
    f.rel = none ∧
    fld f.desc dDisp = dispForward ∧
    s.dev.flushes f.target = false ∧
    descTotal ≤ s.dev.yoke.descUsed :=
  ⟨9, out9 .yoke 1,
    at' (withYoke { pools with descUsed := 1048576 } (withPort upPort (withFrame (out9 .yoke 1) base))), rfl, rfl,
    by decide +kernel, by decide +kernel, by decide +kernel, by decide +kernel, by decide +kernel,
    by decide +kernel, by decide +kernel, by decide +kernel, by decide +kernel, by decide +kernel,
    by decide +kernel⟩

theorem meets_seamLaunch : ∃ (p fid tx : Nat) (f : Frame) (s : State), s.On ∧
    s.dev.grantsOn p = [(fid, s.dev.now, tx)] ∧
    s.dev.frame fid = some f ∧
    (s.dev.port p).txFrame = none :=
  ⟨0, 9, 62, { claimed with seam := .granted 300000000000 62 },
    at' (withFrame { claimed with seam := .granted 300000000000 62 } seamDev), rfl, by decide +kernel, rfl,
    by decide +kernel⟩

theorem meets_copyMirrorRead : ∃ (fid k : Nat) (j : CopyJob) (js : List CopyJob) (f : Frame) (s : State), s.On ∧
    s.dev.frame fid = some f ∧
    f.phase = .done ∧
    f.ended = true ∧
    f.copies = j :: js ∧
    j.target = .collar k :=
  ⟨9, 7, job9 (.collar 7), [], { out9 .done 1 with copies := [job9 (.collar 7)], refs := 2 },
    at' (withYoke held9 (withFrame { out9 .done 1 with copies := [job9 (.collar 7)], refs := 2 } base)), rfl, rfl,
    by decide +kernel, by decide +kernel, by decide +kernel, by decide +kernel⟩

theorem meets_copyMirrorRead_2 : ∃ (fid t : Nat) (j : CopyJob) (js : List CopyJob) (f : Frame) (s : State), s.On ∧
    s.dev.frame fid = some f ∧
    f.phase = .done ∧
    f.ended = true ∧
    f.copies = j :: js ∧
    j.target = .host t ∧
    2 ≤ f.refs :=
  ⟨9, 3, job9 (.host 3), [], { out9 .done 1 with copies := [job9 (.host 3)], refs := 2 },
    at' (withYoke held9 (withFrame { out9 .done 1 with copies := [job9 (.host 3)], refs := 2 } base)), rfl, rfl,
    by decide +kernel, by decide +kernel, by decide +kernel, by decide +kernel, by decide +kernel⟩

theorem meets_rxRingCopyWrite : ∃ (fn : Nat) (e : RxEntry) (d' : Dev) (s : State), s.On ∧
    s.dev.nextCopy fn = some (e, d') ∧
    (s.dev.mbox fn).rx.enabled = true ∧
    (s.dev.mbox fn).hostLost = false ∧
    (s.dev.fend fn).busMaster = true ∧
    e.slots ≤ (s.dev.mbox fn).rx.room :=
  ⟨2, entry9, { base with mbx := { boxes with rxQueue := [] } },
    at' { base with mbx := { boxes with rxQueue := [(2, entry9)] } }, rfl, by decide +kernel, by decide +kernel,
    by decide +kernel, by decide +kernel, by decide +kernel⟩

theorem meets_spillWriteDone : ∃ (fid k : Nat) (es : List QEntry) (f : Frame) (s : State), s.On ∧
    s.dev.frame fid = some f ∧
    s.dev.spillQueue fid 1 = some (k, es) ∧
    f.refs = 1 ∧
    f.copies = [] :=
  ⟨9, 0, [ent9 1], { out9 .done 1 with refs := 1 },
    at' (withYoke (queued 1) (withFrame { out9 .done 1 with refs := 1 } base)), rfl, rfl, by decide +kernel,
    by decide +kernel, by decide +kernel⟩

theorem meets_spillReturn : ∃ (p q n : Nat) (e : QEntry) (d' : Dev) (s : State), s.On ∧
    s.dev.yoke.retryAt.get? (qKey p q) = none ∧
    (s.dev.queue p q).length = n + 1 ∧
    spilledHead (s.dev.queue p q) 0 = some (e, 0) ∧
    s.dev.returnOne p q e = (false, d') :=
  ⟨0, 0, 0, ent9 2,
    (Dev.returnOne (withYoke { queued 2 with pools := .none } (withFrame { out9 .done 1 with refs := 1, pockets := [] } base)) 0 0 (ent9 2)).2,
    at' (withYoke { queued 2 with pools := .none } (withFrame { out9 .done 1 with refs := 1, pockets := [] } base)),
    rfl, by decide +kernel, by decide +kernel, by decide +kernel, rfl⟩

theorem meets_spillReturnRetry : ∃ (p q t : Nat) (s : State), s.On ∧
    s.dev.yoke.retryAt.get? (qKey p q) = some t ∧
    t ≤ s.dev.now :=
  ⟨0, 0, 300000000000, at' (withYoke { pools with retryAt := ⟨[(0, 300000000000)]⟩ } base), rfl, rfl,
    by decide +kernel⟩

theorem meets_cachePrefetch : ∃ (u k : Nat) (x : Served) (s : State), s.On ∧
    (s.dev.pool k).scarce = false ∧
    s.dev.mayServe u k = true ∧
    (s.dev.cache u).find? (fun x => x.pool = k) = some x ∧
    x.held.length < 4 :=
  ⟨8, 2, served9 3, at' (withYoke { pools with inPool := ⟨[(0, 2)]⟩, caches := ⟨[(8, [served9 3])]⟩ } base), rfl,
    by decide +kernel, by decide +kernel, by decide +kernel, by decide +kernel⟩

theorem meets_cacheIdleReturn : ∃ (u : Nat) (x : Served) (s : State), s.On ∧
    longestIdle (s.dev.cache u) = some x ∧
    (∀ y ∈ s.dev.cache u, y.used + 4096 ≤ s.dev.now) :=
  ⟨8, served9 3, at' (withYoke { pools with caches := ⟨[(8, [served9 3])]⟩ } base), rfl, by decide +kernel,
    by decide +kernel⟩

theorem meets_cacheLowWaterReturn : ∃ (k u : Nat) (s : State), s.On ∧
    (s.dev.pool k).scarce = true ∧
    u < 15 :=
  ⟨2, 14, at' (withYoke { pools with pools := ⟨[(2, lowPool)]⟩, caches := ⟨[(14, [served9 3])]⟩ } base), rfl,
    by decide +kernel, by decide +kernel⟩

theorem meets_poolSet : ∃ (h : Hdr) (r : PoolRec) (s : State) (x : Session), s.Serves { code := 0x0901, lenOk := exactly 8, maxBody := 0 } h x ∧
    s.Hears h ∧
    firstFail (poolChecks (x.sends h) s.dev r) = none ∧
    r.tenancy = (s.dev.pool r.pool).tenancy :=
  ⟨ask 8, { pool := 2, tenancy := 3, flags := 0, size := 524288 }, at' (withYoke pools base), own,
    served_own _ _ _ rfl rfl rfl rfl rfl (by decide) (by decide), hears_fn _ _ rfl (by decide) rfl rfl,
    by decide +kernel, by decide +kernel⟩

theorem meets_queueBufSet : ∃ (h : Hdr) (r : QueueBufRec) (s : State) (x : Session), s.Serves { code := 0x0902, lenOk := exactly 20, maxBody := 0 } h x ∧
    s.Hears h ∧
    firstFail (queueBufChecks (x.sends h) s.dev r) = none :=
  ⟨ask 20,
    { port := 0, queue := 1, flags := 2, limit := 524288, spillMark := 524288, returnMark := 524287, spillMax := 16777216 },
    at' base, own, served_own _ _ _ rfl rfl rfl rfl rfl (by decide) (by decide),
    hears_fn _ _ rfl (by decide) rfl rfl, by decide +kernel⟩

theorem meets_bufGlobalSet : ∃ (h : Hdr) (mib : Nat) (s : State) (x : Session), s.Serves { code := 0x0903, lenOk := exactly 4, maxBody := 0, early := false } h x ∧
    s.Hears h ∧
    x.role = .owner ∧
    mib ≤ 32768 ∧
    mib + s.dev.lining.storeMib ≤ stripedMib Config.dramDense ∧
    s.dev.yoke.spillUnits = [] :=
  ⟨ask 4, 0, at' base, own, served_own _ _ _ rfl rfl rfl rfl rfl (by decide) (by decide),
    hears_fn _ _ rfl (by decide) rfl rfl, by decide +kernel, by decide +kernel, Nat.zero_le _, by decide +kernel⟩

theorem meets_yokeStatsGet : ∃ (h : Hdr) (s : State) (x : Session), s.Serves { code := 0x0904, lenOk := exactly 0, maxBody := 2048, changes := false } h x ∧
    s.Hears h :=
  ⟨askT 0, at' (withYoke pools base), ten, served_ten _ _ _ rfl rfl rfl rfl rfl (by decide) (by decide),
    hears_fn _ _ rfl (by decide) rfl rfl⟩

theorem meets_poolStatusGet : ∃ (h : Hdr) (k n : Nat) (s : State) (x : Session), s.Serves { code := 0x0905, lenOk := fun _ => true, maxBody := 8, changes := false } h x ∧
    s.Hears h ∧
    x.role ≠ .tenant ∧
    k ≤ 31 ∧
    n < 524288 :=
  ⟨askM 8, 31, 524287, at' base, mnt, served_mnt _ _ _ rfl rfl rfl rfl rfl rfl (by decide) (by decide),
    hears_fn _ _ rfl (by decide) rfl rfl, by decide +kernel, by decide +kernel, by decide +kernel⟩

end Sys2Proof.Tests.Yoke
end

section
/-! PROOF. The sequence window of a session (R415): what moves it and what leaves it alone. -/

namespace Sys2Proof.Machine

/-! ### The window -/

/-- The part of a session that R415 speaks of: its highest sequence and its record. -/
def Session.window (y : Session) : Nat × List Nat := (y.highest, y.seen)

theorem Session.window_eq_iff {y z : Session} : y.window = z.window ↔ y.highest = z.highest ∧ y.seen = z.seen := by
  simp [Session.window]

theorem Session.accepts_iff (x : Session) (n : Nat) :
    x.accepts n = true ↔ n ≠ 0 ∧ (x.highest < n ∨ (x.highest < n + 64 ∧ n ≤ x.highest ∧ n ∉ x.seen)) := by
  have hw : (x.highest < n ∨ (x.highest < n + 64 ∧ n ∉ x.seen)) ↔
      (x.highest < n ∨ (x.highest < n + 64 ∧ n ≤ x.highest ∧ n ∉ x.seen)) := by
    rcases Nat.lt_or_ge x.highest n with h | h <;> simp [h]
  simp [Session.accepts, ← hw]

@[simp] theorem Session.accept_highest (x : Session) (n : Nat) : (x.accept n).highest = max x.highest n := rfl

theorem Session.mem_accept_seen (x : Session) (n m : Nat) :
    m ∈ (x.accept n).seen ↔ (m = n ∨ m ∈ x.seen) ∧ max x.highest n < m + 64 := by
  simp only [Session.accept, List.mem_filter, List.mem_cons, decide_eq_true_eq]

/-! ### What leaves every window alone -/

/-- Every session open in `d` is open in `e` with the same window, and no other is. -/
def SameWindows (d e : Dev) : Prop :=
  ∀ f k, (e.session f k).map Session.window = (d.session f k).map Session.window

namespace SameWindows

theorem refl (d : Dev) : SameWindows d d := fun _ _ => rfl

theorem trans {a b c : Dev} (h : SameWindows a b) (g : SameWindows b c) : SameWindows a c :=
  fun f k => (g f k).trans (h f k)

theorem of_mbx {d e : Dev} (h : e.mbx = d.mbx) : SameWindows d e := fun f k => by rw [session_of_mbx h]

theorem foldl {α : Type} (f : Dev → α → Dev) (hf : ∀ d a, SameWindows d (f d a)) (l : List α) (d : Dev) :
    SameWindows d (l.foldl f d) := by
  induction l generalizing d with
  | nil => exact refl d
  | cons a l ih => exact (hf d a).trans (ih (f d a))

/-- The window that a session of `d` has, a session of `e` has. -/
theorem session {d e : Dev} (h : SameWindows d e) {f k : Nat} {x : Session} (hx : d.session f k = some x) :
    ∃ y, e.session f k = some y ∧ y.highest = x.highest ∧ y.seen = x.seen := by
  have hm := h f k
  rw [hx, Option.map_some, Option.map_eq_some_iff] at hm
  obtain ⟨y, hy, hw⟩ := hm
  exact ⟨y, hy, Session.window_eq_iff.mp hw⟩

/-- A mailbox replaced by one with the same sessions. -/
theorem setMbox (d : Dev) (f : Nat) (m : Mailbox) (ho : m.zeroOpen = (d.mbox f).zeroOpen)
    (hz : m.zero.window = (d.mbox f).zero.window)
    (hs : ∀ k, (m.sealed.get? k).map Session.window = ((d.mbox f).sealed.get? k).map Session.window) :
    SameWindows d (d.setMbox f m) := by
  intro g k
  by_cases hg : g = f
  · subst hg
    simp only [Dev.session, mbox_setMbox_self, ho]
    split
    · split <;> simp [hz]
    · exact hs k
  · simp [Dev.session, mbox_setMbox_ne _ _ _ _ hg]

/-- A session replaced by one with the same window. -/
theorem setSession {d : Dev} {f k : Nat} {y z : Session} (h : d.session f k = some z) (hy : y.window = z.window) :
    SameWindows d (d.setSession f k y) := by
  unfold Dev.session at h
  unfold Dev.setSession
  by_cases hk : k = 0
  · simp only [hk, ↓reduceIte] at h ⊢
    split at h
    · cases h; exact setMbox _ _ _ rfl hy fun _ => rfl
    · cases h
  · simp only [hk, ↓reduceIte] at h ⊢
    refine setMbox _ _ _ rfl rfl fun j => ?_
    by_cases hj : j = k
    · subst hj; simp [h, hy]
    · rw [Tab.get?_set_ne _ _ _ _ hj]

theorem inc (d : Dev) (c : Ctr) (a b : Nat) : SameWindows d (d.inc c a b) := of_mbx rfl

theorem writeEntry (d : Dev) (f n : Nat) (e : Entry) : SameWindows d (d.writeEntry f n e) := by
  intro g k
  by_cases hg : g = f
  · subst hg; simp only [Dev.session, writeEntry_mbox]
  · simp only [Dev.session, writeEntry_mbox_ne _ _ _ _ _ hg]

theorem nextSeq (d : Dev) (f k : Nat) : SameWindows d (d.nextSeq f k).2 := by
  unfold Dev.nextSeq
  split
  · next z hz => exact setSession hz rfl
  · exact refl d

/-- A response in a ring moves no window, whether it is written or discarded. -/
theorem respond (d : Dev) {tok : Token} (st : Status) (b : Bool) (n : Nat) (body : List Nat)
    (hb : tok.boot = false) : SameWindows d (d.respond tok st b n body) := by
  unfold Dev.respond
  simp only [hb, Bool.false_eq_true, ↓reduceIte]
  split
  · exact inc _ _ _ _
  · exact ((nextSeq _ _ _).trans (writeEntry _ _ _ _)).trans (inc _ _ _ _)

/-- Nor does the end of a message, whether its status is written, discarded or waits for its core. -/
theorem finish (d : Dev) {tok : Token} (st : Status) (n : Nat) (body : List Nat) (hb : tok.boot = false) :
    SameWindows d (d.finish tok st n body) := by
  unfold Dev.finish
  split
  · exact fun _ _ => rfl
  · unfold Dev.finishNow
    simp only
    generalize hm : ({ d.mbox tok.fn with busy := _, asyncs := _, reserved := _ } : Mailbox) = m
    have hplace : SameWindows d ((d.setMbox tok.fn m).countReject tok.tenancy st) := by
      refine trans ?_ (of_mbx (countReject_mbx _ _ _))
      subst hm
      exact setMbox _ _ _ rfl rfl fun _ => rfl
    refine hplace.trans ?_
    split
    · exact respond _ _ _ _ _ hb
    · exact inc _ _ _ _

theorem deliver (d : Dev) (f k : Nat) (e : EventMsg) : SameWindows d (d.deliver f k e) := by
  unfold Dev.deliver
  split
  · exact refl d
  · next z hz =>
    split
    · exact refl d
    · split
      · exact ((nextSeq _ _ _).trans (writeEntry _ _ _ _)).trans (inc _ _ _ _)
      · split
        · exact setSession hz rfl
        · refine trans ?_ (inc _ _ _ _)
          exact setSession hz rfl

theorem countLost (d : Dev) (aud : List Aud) (o : List (Nat × Nat × Session)) : SameWindows d (d.countLost aud o) := by
  unfold Dev.countLost
  refine foldl _ (fun d a => ?_) aud d
  simp only
  split
  · split
    · exact refl d
    · exact inc _ _ _ _
  · exact refl d

theorem linTrigger (d : Dev) (t source code seq : Nat) : SameWindows d (d.linTrigger t source code seq) := by
  unfold Dev.linTrigger
  split
  · exact refl d
  · split
    · exact refl d
    · exact of_mbx rfl

theorem eventTrigger (d : Dev) (c : Nat) (l : List (Nat × Nat × Session)) : SameWindows d (d.eventTrigger c l) := by
  unfold Dev.eventTrigger
  refine foldl _ (fun d t => ?_) _ d
  split
  · split
    · exact linTrigger _ _ _ _ _
    · exact refl d
  · exact refl d

/-- The delivery of events moves no window. -/
theorem flush (d : Dev) : SameWindows d d.flush := by
  refine foldl _ (fun d _ => ?_) _ d
  refine trans (b := { d with outbox := [] }) (of_mbx rfl) (foldl _ (fun d o => ?_) _ _)
  exact ((countLost d o.1 _).trans (foldl _ (fun d p => deliver _ _ _ _) _ _)).trans (eventTrigger _ _ _)

end SameWindows

/-! ### A request that its checks refuse -/

/-- What a refused request does before its response is written: its counter, and its window unless its session or its
sequence is what failed. -/
def Dev.refuse (d : Dev) (h : Hdr) (st : Status) (known : Bool) : Dev :=
  let d := if st = .badSeal && !known then d.inc .badSeal h.fn 0
    else if st = .badSequence then d.inc .badSequence h.fn 0 else d
  let d := if known && st != .badSequence then
      match d.session h.fn h.session with
      | some s => d.setSession h.fn h.session (s.accept h.seq)
      | none => d
    else d
  d.countReject h.tenancy st

theorem reject_eq_respond (d : Dev) (tok : Token) (h : Hdr) (st : Status) (known : Bool) :
    d.reject tok h st known = (d.refuse h st known).respond tok st (known && h.session != 0) 0 [] := rfl

/-- A refusal before the session is known, or for the sequence itself, moves no window. -/
theorem SameWindows.reject (d : Dev) {tok : Token} (h : Hdr) {st : Status} {known : Bool} (hb : tok.boot = false)
    (hk : (known && st != .badSequence) = false) : SameWindows d (d.reject tok h st known) := by
  have hr : SameWindows d (d.refuse h st known) := by
    refine of_mbx ((countReject_mbx _ _ _).trans ?_)
    simp only [hk, Bool.false_eq_true, ↓reduceIte]
    split
    · rfl
    · split <;> rfl
  exact hr.trans (respond _ _ _ _ _ hb)

/-- Every other refusal accepts the sequence. -/
theorem SameWindows.reject_accepts (d : Dev) {tok : Token} (h : Hdr) {st : Status} {x : Session}
    (hb : tok.boot = false) (hst : st ≠ .badSequence) (hx : d.session h.fn h.session = some x) :
    SameWindows (d.setSession h.fn h.session (x.accept h.seq)) (d.reject tok h st true) := by
  have hr : SameWindows (d.setSession h.fn h.session (x.accept h.seq)) (d.refuse h st true) := by
    refine of_mbx ((countReject_mbx _ _ _).trans ?_)
    simp [hst, hx]
  exact hr.trans (respond _ _ _ _ _ hb)

theorem Keeps.refuse (d : Dev) (h : Hdr) (st : Status) (known : Bool) : Keeps d (d.refuse h st known) := by
  refine Keeps.trans ?_ (Keeps.of_eq (countReject_mbx _ _ _) (SameEnds.of_host (countReject_host _ _ _))
    (congrArg _ (countReject_boot _ _ _)))
  generalize he : (if st = .badSeal && !known then d.inc .badSeal h.fn 0
      else if st = .badSequence then d.inc .badSequence h.fn 0 else d) = e
  have hc : Keeps d e := by
    subst he
    split
    · exact Keeps.inc _ _ _ _
    · split
      · exact Keeps.inc _ _ _ _
      · exact Keeps.refl d
  refine hc.trans ?_
  split
  · split
    · next x hx => exact Keeps.setSession _ _ _ _ x hx rfl
    · exact Keeps.refl e
  · exact Keeps.refl e

/-- A refused request of a ring is answered with the status of the check. -/
theorem rejected_replied {h : Hdr} {s : State} (o : OpSpec) (N : s.Hears h) (a : Bool) (st : Status) (known : Bool) :
    ((s.dev.take h).reject (tokenOf (s.dev.take h) h o a) h st known).flush.Replied h st [] := by
  refine Replied.keeps (Keeps.flush _) ?_
  rw [reject_eq_respond]
  have k := (take_keeps s.dev h).trans (Keeps.refuse _ h st known)
  exact respond_replied _ _ _ _ _ _ h N.ring rfl rfl rfl rfl ((k.write _).trans N.write)

/-! ### A request that starts -/

section
variable {o : OpSpec} {h : Hdr} {s : State} (act : Sender → Dev → Reply × Dev)

/-- A request of a ring that starts and fails a check is taken and refused. -/
theorem runMessage_rejects (S : s.Starts o h) (hb : h.boot = false) {st : Status} {known : Bool}
    (he : envelope o h s.dev = some (st, known)) :
    ∃ a, runMessage o h act s = .next { s with dev :=
      ((s.dev.take h).reject (tokenOf (s.dev.take h) h o a) h st known).flush } := by
  have hu : (s.dev.mbox h.fn).unknown = [] := S.first.resolve_left (by simp [hb])
  have hf : misframed h (s.dev.mbox h.fn) = false := S.framed.resolve_left (by simp [hb])
  refine ⟨o.canAsync && h.flags.testBit 0 && !h.boot, (running_on S.power).trans ?_⟩
  simp [message, hb, serveUnknown_none _ _ hu, S.rom, S.start, hu, hf, take_envelope, he]

/-- What the opcode's own work answers, under the rules of R393 and R481 that come before it. -/
def ownWork (o : OpSpec) (act : Sender → Dev → Reply × Dev) (x : Session) (w : Sender) (d : Dev) : Reply × Dev :=
  if x.role == .maint && o.changes then (.say .notPermitted, d)
  else if !o.early && !d.boot.ready then (.say .badState, d)
  else act w d

/-- The work of a request that passes every check: at once, or after ACCEPTED where it asks for that, or refused for want
of a place among the messages in progress (R419). -/
def carryOut (o : OpSpec) (h : Hdr) (act : Sender → Dev → Reply × Dev) (x : Session) (w : Sender) (d : Dev) : Dev :=
  if w.tok.isAsync then
    if 32 ≤ (d.mbox h.fn).asyncs.length then d.respond w.tok .slotBusy (h.session != 0) 0 []
    else Dev.conclude w.tok (ownWork o act x w (d.respond w.tok .accepted (h.session != 0) 0 []))
  else Dev.conclude w.tok (ownWork o act x w d)

/-- A request of a ring that starts and passes every check: its window takes its sequence before its work. -/
theorem runMessage_passes (S : s.Starts o h) (hb : h.boot = false) {x : Session}
    (he : envelope o h s.dev = none) (hx : s.dev.session h.fn h.session = some x) :
    ∃ w : Sender, w.tok.boot = false ∧ runMessage o h act s = .next { s with dev :=
      (carryOut o h act x w ((s.dev.take h).setSession h.fn h.session (x.accept h.seq))).flush } := by
  have hu : (s.dev.mbox h.fn).unknown = [] := S.first.resolve_left (by simp [hb])
  have hf : misframed h (s.dev.mbox h.fn) = false := S.framed.resolve_left (by simp [hb])
  refine ⟨{ role := x.role, tenancy := x.tenancy, epoch := h.epoch, fn := h.fn, session := h.session,
            tok := tokenOf (s.dev.take h) h o (o.canAsync && h.flags.testBit 0 && !h.boot) },
    hb, (running_on S.power).trans ?_⟩
  simp only [message, hb, serveUnknown_none _ _ hu, S.rom, S.start, hu, hf, take_envelope, he, take_session, hx,
    List.isEmpty_nil, Bool.not_true, Bool.not_false, Bool.and_false, Bool.or_self, Bool.false_eq_true, ↓reduceIte]
  rfl

end

/-- Work that ends at once and leaves the mailboxes alone moves no window. -/
theorem carryOut_sameWindows (o : OpSpec) (h : Hdr) {act : Sender → Dev → Reply × Dev} (x : Session) {w : Sender}
    (d : Dev) (ha : ∀ w d, (act w d).2.mbx = d.mbx ∧ ∃ st n body, (act w d).1 = .done st n body)
    (hw : w.tok.boot = false) : SameWindows d (carryOut o h act x w d) := by
  have hwork (d : Dev) : SameWindows d (Dev.conclude w.tok (ownWork o act x w d)) := by
    unfold ownWork
    split
    · exact SameWindows.finish d _ _ _ hw
    · split
      · exact SameWindows.finish d _ _ _ hw
      · obtain ⟨hm, st, n, body, hr⟩ := ha w d
        have hc : Dev.conclude w.tok (act w d) = (act w d).2.finish w.tok st n body := by simp only [Dev.conclude, hr]
        rw [hc]
        exact (SameWindows.of_mbx hm).trans (SameWindows.finish _ _ _ _ hw)
  unfold carryOut
  split
  · split
    · exact SameWindows.respond d _ _ _ _ hw
    · exact (SameWindows.respond d _ _ _ _ hw).trans (hwork _)
  · exact hwork d

theorem take_sameWindows (d : Dev) (h : Hdr) : SameWindows d (d.take h) := fun f k => by rw [take_session]

/-! ### The checks of the seal and of the sequence -/

theorem envelope_badSeal (o : OpSpec) {h : Hdr} {d : Dev} {x : Session} (hx : d.session h.fn h.session = some x)
    (hg : ¬ sealGood h) : envelope o h d = some (.badSeal, false) := by
  unfold envelope
  simp only [hx]
  split
  · rfl
  · next hf =>
    have hf : h.flags.testBit 1 = (h.session != 0) := by simpa only [bne_iff_ne, ne_eq, Classical.not_not] using hf
    have hs : (h.session != 0 && !h.sealOk) = true := by simpa [sealGood, hf] using hg
    simp only [hs, ↓reduceIte]

/-- With a good seal the next check is that of the sequence. -/
theorem envelope_of_sealGood (o : OpSpec) {h : Hdr} {d : Dev} {x : Session}
    (hx : d.session h.fn h.session = some x) (hg : sealGood h) :
    (x.accepts h.seq = false → envelope o h d = some (.badSequence, true)) ∧
    (x.accepts h.seq = true → envelope o h d = none ∨
      ∃ st, st ≠ .badSequence ∧ envelope o h d = some (st, true)) := by
  have hs : (h.session != 0 && !h.sealOk) = false := by
    by_cases h0 : h.session = 0
    · simp [h0]
    · simp [hg.2 h0]
  unfold envelope
  simp only [hx, hg.1, hs, bne_self_eq_false, Bool.false_eq_true, ↓reduceIte]
  refine ⟨fun ha => by simp [ha], fun ha => ?_⟩
  simp only [ha, Bool.not_true, Bool.false_eq_true, ↓reduceIte]
  split
  · exact .inr ⟨.badSeal, by decide, rfl⟩
  split
  · exact .inr ⟨.badSeal, by decide, rfl⟩
  split
  · exact .inr ⟨.notPermitted, by decide, rfl⟩
  split
  · exact .inr ⟨.badField, by decide, rfl⟩
  · exact .inl rfl

/-! ### The window of a request's session -/

section
variable {o : OpSpec} {h : Hdr} {s : State} {x : Session} (act : Sender → Dev → Reply × Dev)

/-- A request refused before its session is known, or for its sequence, changes neither the data path nor the window. -/
theorem rejection_keeps_window (S : s.Starts o h) (N : s.Hears h) (hx : s.dev.session h.fn h.session = some x)
    {st : Status} {known : Bool} (he : envelope o h s.dev = some (st, known))
    (hk : (known && st != .badSequence) = false) :
    ∃ t y, runMessage o h act s = .next t ∧ t.pending = s.pending ∧ t.dev.Replied h st [] ∧
      t.dev.data = s.dev.data ∧ t.dev.session h.fn h.session = some y ∧ y.highest = x.highest ∧ y.seen = x.seen := by
  obtain ⟨a, hrun⟩ := runMessage_rejects act S N.ring he
  have hreply := rejected_replied o N a st known
  have hdata : ((s.dev.take h).reject (tokenOf (s.dev.take h) h o a) h st known).flush.data = s.dev.data := by simp
  have hwin := (take_sameWindows s.dev h).trans
    ((SameWindows.reject _ (tok := tokenOf (s.dev.take h) h o a) h N.ring hk).trans (SameWindows.flush _))
  generalize (Dev.reject _ _ _ _ _).flush = d at hrun hreply hdata hwin
  obtain ⟨y, hy⟩ := hwin.session hx
  exact ⟨_, y, hrun, rfl, hreply, hdata, hy⟩

/-- A request whose seal and sequence are good moves the window, whether a later check refuses it or not. -/
theorem accepted_moves_window (S : s.Starts o h) (N : s.Hears h) (hx : s.dev.session h.fn h.session = some x)
    (hg : sealGood h) (hs : x.accepts h.seq = true)
    (ha : ∀ w d, (act w d).2.mbx = d.mbx ∧ ∃ st n body, (act w d).1 = .done st n body) :
    ∃ t y, runMessage o h act s = .next t ∧ t.dev.session h.fn h.session = some y ∧
      y.highest = (x.accept h.seq).highest ∧ y.seen = (x.accept h.seq).seen := by
  have htake : (s.dev.take h).session h.fn h.session = some x := (take_session _ _ _ _).trans hx
  have hset := setSession_self _ _ _ (x.accept h.seq) x htake
  have hmoved : ∃ e, runMessage o h act s = .next { s with dev := e.flush } ∧
      SameWindows ((s.dev.take h).setSession h.fn h.session (x.accept h.seq)) e := by
    rcases (envelope_of_sealGood o hx hg).2 hs with he | ⟨st, hst, he⟩
    · obtain ⟨w, hw, hrun⟩ := runMessage_passes act S N.ring he hx
      exact ⟨_, hrun, carryOut_sameWindows o h x _ ha hw⟩
    · obtain ⟨a, hrun⟩ := runMessage_rejects act S N.ring he
      exact ⟨_, hrun, SameWindows.reject_accepts _ h N.ring hst htake⟩
  obtain ⟨e, hrun, hmoved⟩ := hmoved
  have hwin := hmoved.trans (SameWindows.flush e)
  generalize e.flush = d at hrun hwin
  obtain ⟨y, hy⟩ := hwin.session hset
  exact ⟨_, y, hrun, hy⟩

end

/-- Settles O57: a refusal of the seal or of the sequence comes before the window moves; every later step of a request,
and the delivery of events after it, leaves the window alone. -/
theorem sequenceWindow : Obligations.SequenceWindow := by
  refine ⟨fun d r x => ⟨rfl, rfl⟩, Session.accepts_iff,
    fun x n m => ⟨Session.accept_highest x n, Session.mem_accept_seen x n m⟩, ?_, ?_, ?_⟩
  · intro o h act s x S N hx hg hs
    exact rejection_keeps_window act S N hx ((envelope_of_sealGood o hx hg).1 hs) rfl
  · intro o h act s x S N hx hg
    exact rejection_keeps_window act S N hx (envelope_badSeal o hx hg) rfl
  · intro o h act s x S N hx hg hs ha
    exact accepted_moves_window act S N hx hg hs ha

end Sys2Proof.Machine
end

section
/-! PROOF. The rings of a mailbox and their enables (R408). -/

namespace Sys2Proof.Machine

/-! ### A write of a register of a function that exists -/

/-- A command of a running device whose own work raises no event. -/
theorem runs_of_running {c : Instr} {f : Dev → Dev} {s : State} {Q : Dev → Prop} (hc : exec c s = running f s)
    (hon : s.On) (hout : (f s.dev).outbox = []) (hQ : Q (f s.dev)) : Runs c s Q := by
  refine ⟨_, hc.trans (running_on hon), rfl, ?_⟩
  simp only [flush_of_settled hout]
  exact hQ

theorem onFn_of_exists {d : Dev} {f : Nat} (h : d.fnExists f = true) (act : Mailbox → Dev) :
    d.onFn f act = act (d.mbox f) := by simp [Dev.onFn, h]

/-- A write of a mailbox register leaves the mailbox that the register's own rule gives. -/
theorem registerWrite_runs {f v : Nat} {s : State} {r : Reg} {act : Mailbox → Mailbox} {Q : Dev → Prop} (hon : s.On)
    (hset : s.Settled) (hf : s.dev.fnExists f = true) (hr : s.dev.writeReg f v r = s.dev.regMbox f act)
    (hQ : Q (s.dev.setMbox f (act (s.dev.mbox f)))) : Runs (.registerWrite f r v) s Q := by
  have hw : s.dev.writeReg f v r = s.dev.setMbox f (act (s.dev.mbox f)) := hr.trans (onFn_of_exists hf _)
  refine runs_of_running (exec_registerWrite f r v s) hon ?_ ?_
  · simp only [hw, outbox_setMbox]; exact hset
  · simpa only [hw] using hQ

/-! ### The sessions of a mailbox replaced -/

/-- A mailbox replaced by one with the same session 0 and the same sealed sessions. -/
theorem session_setMbox_of_same (d : Dev) (f : Nat) {m : Mailbox} (ho : m.zeroOpen = (d.mbox f).zeroOpen)
    (hz : m.zero = (d.mbox f).zero) (hs : m.sealed = (d.mbox f).sealed) (g k : Nat) :
    (d.setMbox f m).session g k = d.session g k := by
  by_cases hg : g = f
  · subst hg; simp [Dev.session, ho, hz, hs]
  · simp [Dev.session, mbox_setMbox_ne _ _ _ _ hg]

theorem ringSize_of_le {top n : Nat} (h6 : 6 ≤ n) (ht : n ≤ top) : ringSize top n = true := by
  simp [ringSize, h6, ht]

/-! ### The response ring after its enable: its tail counts the entries written since -/

/-- What the delivery of held events keeps of a response ring enabled in `d` with head `n`, no event being on its way:
the tail is the head plus the slots of the entries that stand in it. -/
structure CountsSlots (f n : Nat) (d : Dev) : Prop where
  enabled : (d.mbox f).rsp.enabled = true
  head : (d.mbox f).rsp.head = n
  tail : (d.mbox f).rsp.tail % 2 ^ 32 = (n + ((d.mbox f).entries.map (·.slots)).sum) % 2 ^ 32
  empty : (d.mbox f).entries = [] → (d.mbox f).rsp.tail = n
  settled : d.outbox = []

theorem CountsSlots.of_same {f n : Nat} {d e : Dev} (C : CountsSlots f n d) (hr : (e.mbox f).rsp = (d.mbox f).rsp)
    (he : (e.mbox f).entries = (d.mbox f).entries) (ho : e.outbox = d.outbox) : CountsSlots f n e where
  enabled := hr ▸ C.enabled
  head := hr ▸ C.head
  tail := by rw [hr, he]; exact C.tail
  empty := by rw [hr, he]; exact C.empty
  settled := ho.trans C.settled

theorem setSession_rsp (d : Dev) (f k : Nat) (y : Session) : ((d.setSession f k y).mbox f).rsp = (d.mbox f).rsp := by
  rw [setSession_mbox]; split <;> rfl

theorem setSession_entries (d : Dev) (f k : Nat) (y : Session) :
    ((d.setSession f k y).mbox f).entries = (d.mbox f).entries := by
  rw [setSession_mbox]; split <;> rfl

theorem outbox_of_onWay {d e : Dev} (h : e.onWay = d.onWay) : e.outbox = d.outbox := congrArg Prod.fst h

theorem CountsSlots.setSession {f n : Nat} {d : Dev} (C : CountsSlots f n d) (k : Nat) (y : Session) :
    CountsSlots f n (d.setSession f k y) :=
  C.of_same (setSession_rsp _ _ _ _) (setSession_entries _ _ _ _) (outbox_of_onWay (setSession_onWay _ _ _ _))

theorem CountsSlots.nextSeq {f n : Nat} {d : Dev} (C : CountsSlots f n d) (k : Nat) :
    CountsSlots f n (d.nextSeq f k).2 := by
  unfold Dev.nextSeq
  split
  · exact C.setSession _ _
  · exact C

/-- An entry written moves the tail by its slots. -/
theorem CountsSlots.writeEntry {f n : Nat} {d : Dev} (C : CountsSlots f n d) (k : Nat) (e : Entry) :
    CountsSlots f n (d.writeEntry f k e) where
  enabled := by rw [writeEntry_mbox]; exact C.enabled
  head := by rw [writeEntry_mbox]; exact C.head
  tail := by
    have ht := C.tail
    rw [writeEntry_mbox]
    simp only [List.map_append, List.map_cons, List.map_nil, List.sum_append, List.sum_cons, List.sum_nil]
    omega
  empty := by simp [writeEntry_mbox]
  settled := (outbox_of_onWay (writeEntry_onWay _ _ _ _)).trans C.settled

theorem CountsSlots.writeEvent {f n : Nat} {d : Dev} (C : CountsSlots f n d) (k : Nat) (y : Session) (e : EventMsg) :
    CountsSlots f n (d.writeEvent f k y e) :=
  ((C.nextSeq k).writeEntry _ _).of_same rfl rfl rfl

theorem newEvent_mbx (d : Dev) (code : Nat) (args : List Nat) : (d.newEvent code args).2.mbx = d.mbx := rfl

/-- What every step of the delivery of held events keeps: the link of each function, and the count of the slots of
function `f`. -/
structure Drains (f : Nat) (d e : Dev) : Prop where
  keeps : Keeps d e
  counts : ∀ n, CountsSlots f n d → CountsSlots f n e

namespace Drains

theorem refl (f : Nat) (d : Dev) : Drains f d d := ⟨Keeps.refl d, fun _ C => C⟩

theorem trans {f : Nat} {a b c : Dev} (h : Drains f a b) (g : Drains f b c) : Drains f a c :=
  ⟨h.keeps.trans g.keeps, fun n C => g.counts n (h.counts n C)⟩

theorem foldl {α : Type} {f : Nat} (act : Dev → α → Dev) (ha : ∀ d a, Drains f d (act d a)) (l : List α) (d : Dev) :
    Drains f d (l.foldl act d) := by
  induction l generalizing d with
  | nil => exact refl f d
  | cons a l ih => exact (ha d a).trans (ih (act d a))

theorem newEvent (f : Nat) (d : Dev) (code : Nat) (args : List Nat) : Drains f d (d.newEvent code args).2 :=
  ⟨Keeps.of_eq rfl (SameEnds.of_host rfl), fun _ C => C.of_same rfl rfl rfl⟩

/-- An event written for a session whose waiting events it leaves. -/
theorem writeHeld {f k : Nat} {d : Dev} {y z : Session} (hz : d.session f k = some z) (hy : y.serial = z.serial)
    (w : Session) (e : EventMsg) : Drains f d ((d.setSession f k y).writeEvent f k w e) :=
  ⟨(Keeps.setSession d f k y z hz hy).trans (Keeps.writeEvent _ _ _ _ _),
   fun _ C => (C.setSession k y).writeEvent k w e⟩

theorem drainSession (f : Nat) (d : Dev) (k : Nat) : Drains f d (d.drainSession f k) := by
  unfold Dev.drainSession
  split
  · exact refl f d
  · next z hz =>
    refine trans ?_ (foldl _ (fun d e => ?_) z.held _)
    · split
      · exact refl f d
      · dsimp only
        split
        · have hx : (d.newEvent 0x1102 [z.lost]).2.session f k = some z :=
            (session_of_mbx (newEvent_mbx _ _ _) f k).trans hz
          refine (newEvent f d 0x1102 [z.lost]).trans (writeHeld hx ?_ _ _)
          rfl
        · exact refl f d
    · split
      · exact refl f d
      · next z hz =>
        split
        · refine writeHeld hz ?_ _ _
          rfl
        · exact refl f d

theorem drainEvents (f : Nat) (d : Dev) : Drains f d (d.drainEvents f) :=
  foldl _ (fun d k => drainSession f d k) _ d

end Drains

/-! ### The enables -/

section
variable {f : Nat} {s : State}

theorem reqRing_enables (hon : s.On) (hset : s.Settled) (hf : s.dev.fnExists f = true)
    (he : (s.dev.mbox f).req.enabled = false) (h6 : 6 ≤ (s.dev.mbox f).req.size) (h14 : (s.dev.mbox f).req.size ≤ 14) :
    Runs (.reqRingEnableWrite f true) s fun d => (d.mbox f).sealed = (s.dev.mbox f).sealed ∧
      (d.mbox f).req = { (s.dev.mbox f).req with enabled := true, head := (s.dev.mbox f).req.tail } ∧
      ∃ x, d.session f 0 = some x ∧ x.highest = 0 ∧ x.seen = [] := by
  refine runs_of_running (exec_reqRingEnableWrite f true s) hon ?_ ?_
  all_goals simp only [onFn_of_exists hf, he, ringSize_of_le h6 h14, Bool.not_true, Bool.or_self, Bool.false_eq_true,
    ↓reduceIte]
  · exact hset
  · simp [Dev.session]

@[simp] theorem dropStagedOf_mbx (d : Dev) (t : Nat) : (d.dropStagedOf t).mbx = d.mbx := by
  unfold Dev.dropStagedOf; split <;> rfl

@[simp] theorem dropStagedOf_outbox (d : Dev) (t : Nat) : (d.dropStagedOf t).outbox = d.outbox := by
  unfold Dev.dropStagedOf; split <;> rfl

theorem reqRing_disables (hon : s.On) (hset : s.Settled) (hf : s.dev.fnExists f = true) :
    Runs (.reqRingEnableWrite f false) s fun d => (d.mbox f).req.enabled = false ∧
      (d.mbox f).sealed = (s.dev.mbox f).sealed := by
  refine runs_of_running (exec_reqRingEnableWrite f false s) hon ?_ ?_
  all_goals simp only [onFn_of_exists hf, Bool.not_false, ↓reduceIte]
  · split
    · exact (dropStagedOf_outbox _ _).trans hset
    · exact hset
  · split
    · simp [mbox_of_mbx (dropStagedOf_mbx _ _)]
    · simp

theorem rspRing_enables (hon : s.On) (hset : s.Settled) (hf : s.dev.fnExists f = true)
    (he : (s.dev.mbox f).rsp.enabled = false) (h6 : 6 ≤ (s.dev.mbox f).rsp.size) (h14 : (s.dev.mbox f).rsp.size ≤ 14) :
    Runs (.rspRingEnableWrite f true) s fun d =>
      (∀ k, (d.session f k).map (·.serial) = (s.dev.session f k).map (·.serial)) ∧
      (d.mbox f).rsp.enabled = true ∧ (d.mbox f).rsp.head = (s.dev.mbox f).rsp.head ∧
      (d.mbox f).rsp.tail % 2 ^ 32 =
        ((s.dev.mbox f).rsp.head + ((d.mbox f).entries.map (·.slots)).sum) % 2 ^ 32 ∧
      ((d.mbox f).entries = [] → (d.mbox f).rsp.tail = (s.dev.mbox f).rsp.head) := by
  generalize hm : ({ s.dev.mbox f with
    rsp := { (s.dev.mbox f).rsp with enabled := true, tail := (s.dev.mbox f).rsp.head }, entries := [] } : Mailbox) = m
  have hcount : CountsSlots f (s.dev.mbox f).rsp.head (s.dev.setMbox f m) := by
    subst hm
    exact ⟨by simp, by simp, by simp, by simp, hset⟩
  have hsame (k : Nat) : (s.dev.setMbox f m).session f k = s.dev.session f k := by
    subst hm
    apply session_setMbox_of_same <;> rfl
  have hdrain := Drains.drainEvents f (s.dev.setMbox f m)
  have hend := hdrain.counts _ hcount
  refine runs_of_running (exec_rspRingEnableWrite f true s) hon ?_ ?_
  all_goals simp only [onFn_of_exists hf, he, ringSize_of_le h6 h14, Bool.not_true, Bool.or_self, Bool.false_eq_true,
    ↓reduceIte, hm]
  · exact hend.settled
  · exact ⟨fun k => (hdrain.keeps.serial f k).trans (by rw [hsame]), hend.enabled, hend.head, hend.tail, hend.empty⟩

theorem rxRing_enables (hon : s.On) (hset : s.Settled) (hf : s.dev.fnExists f = true)
    (he : (s.dev.mbox f).rx.enabled = false) (h6 : 6 ≤ (s.dev.mbox f).rx.size) (h16 : (s.dev.mbox f).rx.size ≤ 16) :
    Runs (.rxRingEnableWrite f true) s fun d => (∀ k, d.session f k = s.dev.session f k) ∧
      (d.mbox f).rx = { (s.dev.mbox f).rx with enabled := true, tail := (s.dev.mbox f).rx.head } := by
  refine runs_of_running (exec_rxRingEnableWrite f true s) hon ?_ ?_
  all_goals simp only [onFn_of_exists hf, he, ringSize_of_le h6 h16, Bool.not_true, Bool.or_self, Bool.false_eq_true,
    ↓reduceIte]
  · exact hset
  · refine ⟨fun k => ?_, by rw [mbox_setMbox_self]⟩
    apply session_setMbox_of_same <;> rfl

end

/-- Settles O58: a register write follows its ring's own rule, an enable takes one end of its ring to the other, and the
held events that the response ring's enable delivers move its tail by the slots of their entries. -/
theorem ringsFollowTheirEnables : Obligations.RingsFollowTheirEnables := by
  refine ⟨fun f v s hon hset hf => ⟨?_, ?_, ?_, ?_, ?_, ?_⟩, fun f s => reqRing_enables, fun f s => rspRing_enables,
    fun f s => rxRing_enables, fun f s => reqRing_disables⟩
  all_goals
    refine registerWrite_runs hon hset hf rfl ?_
    simp only [mbox_setMbox_self]
    rfl

end Sys2Proof.Machine
end
